-- ==== Sys2Proof/Word.lean ====
section
/-!
DEFINITION. The word types of the Idlux N40 (00 R4: bit 0 is the least significant bit).
-/

namespace Sys2Proof

/-- One byte. -/
abbrev Byte := BitVec 8
/-- A 32-bit register or scalar register. -/
abbrev Word32 := BitVec 32
/-- A 64-bit register. -/
abbrev Word64 := BitVec 64
/-- One sum word SW48 (02 R36). -/
abbrev Sum48 := BitVec 48
/-- One 256-byte vector register (04 R103). -/
abbrev VReg := BitVec 2048
/-- One 256-bit predicate (05 R123). -/
abbrev PReg := BitVec 256
/-- One row of a comb: 512 cells (03 R52). -/
abbrev CombRow := BitVec 512

end Sys2Proof
end

