-- ==== Sys2Proof/Syntax.lean ====
section
/-!
DEFINITION. The commands of the block: one constructor per row of spec/opcode_table.json, with the row's operands
(log entry 1). A row has no bits of its own, so no word spells a command.
-/

namespace Sys2Proof

/-- Who makes a register access (R9): control-die firmware, the BMC, the JTAG debugger (R471), a port's physical
function, a port's virtual function (port 0 A, 1 B). -/
inductive Who where
  | firmware
  | bmc
  | jtag
  | pf (port : Nat)
  | vf (port fn : Nat)
  deriving DecidableEq, Repr

/-- What a link receiver or a read found: no error, an error it corrected, an uncorrectable payload error, an
uncorrectable header or sideband error (R217, R338, R359). -/
inductive LinkErr where
  | ok | corrected | payload | header
  deriving DecidableEq, Repr

/-- How a flit at the head of a router's input moves on: the outputs that act on it, as a mask (0 N, 1 E, 2 S, 3 W, 4 EDGE,
5 LAND), and what its receiver found when it looked at it. -/
structure FlitTake where
  outs : Nat
  err : LinkErr
  deriving DecidableEq, Repr

/-- The memory die or the set that a request names, and whether a window write that concerns it is performed in the same
cycle (R388, R401). -/
structure Request where
  of : Nat
  meets : Bool
  deriving DecidableEq, Repr


/-- The commands. -/
inductive Instr where
  /-- REGISTER_WRITE (R7): A write to a register that has no row of its own updates its fields by their access codes, or is refused. -/
  | registerWrite (who : Who) (die off width : Nat) (v : Word64)
  /-- READ_CLEAR (R7): A read of a register with RC fields returns the values and then clears those fields, keeping any event of the same cycle. -/
  | readClear (who : Who) (die off width : Nat)
  /-- LOAD_START (R99): A waiting engine load starts once its engine is free, the permit allows it, its entry is not being sent, no test is overdue and its engine is ACTIVE. -/
  | loadStart (cd k t : Nat)
  /-- CORE_GATE (R100): A core that has started no load for CORE_SOFT.IDLE enabled cycles gates its engines. -/
  | coreGate (cd k : Nat)
  /-- LIM_RAMP (R100): Every 8 enabled cc the load limit of an ungated core rises by 2 toward CAP. -/
  | limRamp (cd k : Nat)
  /-- ENGINE_PASS (R64): In cycle 13 of a pass the edge converter aligns every output and adds the partials into the named partial-queue entry. -/
  | enginePass (cd k p : Nat)
  /-- ROW_WRITE (R74): A GO to ENG_WCMD with TARGET 0 starts a comb row write command, or refuses it. -/
  | rowWrite (cd k p index : Nat)
  /-- SCALE_WRITE (R74): A GO to ENG_WCMD with TARGET 1 starts a scale chunk write command, or refuses it. -/
  | scaleWrite (cd k p index : Nat)
  /-- ENG_WRITE_DONE (R74): A write command ends after its read-back compare, retrying once and faulting the engine on a second mismatch. -/
  | engWriteDone (cd k p mismatches : Nat)
  /-- ACCEPTANCE_TEST (R77): An IDLE or FAULTED engine with LOADED set and TESTED clear whose write port has been idle 64 cc starts a test pass. -/
  | acceptanceTest (cd k p t h : Nat)
  /-- PERIODIC_TEST (R81): Each PERIOD milliseconds an ACTIVE engine runs a test pass in its first two free load slots. -/
  | periodicTest (cd k p t h : Nat)
  /-- TEST_FORCE (R91): Writing ENG_TV_CTL.FORCE runs a test pass on every ACTIVE engine of the core. -/
  | testForce (cd k t : Nat)
  /-- TEST_OVERDUE (R81): When 100 ms pass since an ACTIVE engine's last passed test, its loads are held until an overdue test pass runs. -/
  | testOverdue (cd k p t h : Nat)
  /-- TEST_SLOT1_CHECK (R79): At cycle c + 13 the column accumulators of test slot 1 are compared with the column signatures. -/
  | testSlot1Check (cd k p : Nat)
  /-- TEST_SLOT2_CHECK (R79): At cycle c + 21 the combined and scaled results of test slot 2 are checked, and a pass sets TESTED and changes state. -/
  | testSlot2Check (cd k p : Nat)
  /-- SCRUB_ROW_READ (R82): Every 2^(INTERVAL + 6) cc a loaded engine reads its next row, with 4 scale bytes and 4 signatures, and checks parity. -/
  | scrubRowRead (cd k p : Nat)
  /-- ENG_MAPL_WRITE (R70): A write of a logical-to-physical map entry is judged and accepted or refused, changing engine states. -/
  | engMaplWrite (cd k l : Nat) (en : Bool) (phys : Nat)
  /-- ENG_RETIRE (R84): Writing ENG_CFG.RETIRE moves an IDLE or FAULTED engine to RETIRED. -/
  | engRetire (cd k p : Nat)
  /-- ENG_CODE_WRITE (R84): A write of ENG_CFG.CODE to an IDLE or FAULTED engine sets its weight code and clears TESTED. -/
  | engCodeWrite (cd k p code : Nat)
  /-- CORE_RUN (R118): Writing CORE_CTL.RUN in STOPPED starts fetch at instruction 0. -/
  | coreRun (cd k : Nat)
  /-- CORE_STOP (R137): Writing CORE_CTL.STOP stops issue at the next boundary, abandoning a waiting or held instruction. -/
  | coreStop (cd k : Nat)
  /-- CORE_STOPPED (R137): When the work issued before HALT or STOP has completed, the core enters STOPPED. -/
  | coreStopped (cd k : Nat)
  /-- WAIT_TIMEOUT (R164): A core that has waited or been held for CORE_WDOG.LIMIT µs without issuing raises WAIT_TIMEOUT. -/
  | waitTimeout (cd k h : Nat)
  /-- ADD (R134): Scalar add modulo 2^32. -/
  | add (cd k : Nat)
  /-- SUB (R134): Scalar subtract modulo 2^32. -/
  | sub (cd k : Nat)
  /-- AND (R134): Scalar bitwise AND. -/
  | and (cd k : Nat)
  /-- OR (R134): Scalar bitwise OR. -/
  | or (cd k : Nat)
  /-- XOR (R134): Scalar bitwise XOR. -/
  | xor (cd k : Nat)
  /-- SHL (R134): Scalar shift left. -/
  | shl (cd k : Nat)
  /-- SHR (R134): Scalar logical shift right. -/
  | shr (cd k : Nat)
  /-- SRA (R134): Scalar arithmetic shift right. -/
  | sra (cd k : Nat)
  /-- MUL (R134): Low 32 bits of a scalar product. -/
  | mul (cd k : Nat)
  /-- MIN (R134): Signed scalar minimum. -/
  | min (cd k : Nat)
  /-- MAX (R134): Signed scalar maximum. -/
  | max (cd k : Nat)
  /-- ADDI (R134): Scalar add of an immediate. -/
  | addi (cd k : Nat)
  /-- LI (R134): Loads an immediate into a scalar register. -/
  | li (cd k : Nat)
  /-- CMP (R135): Compares two scalar registers into a predicate. -/
  | cmp (cd k : Nat)
  /-- CMPI (R135): Compares a scalar register with an immediate into a predicate. -/
  | cmpi (cd k : Nat)
  /-- PLOG (R134): Combines two predicates by a logic operation. -/
  | plog (cd k : Nat)
  /-- SLD (R148): Loads 4 bytes from the core buffer into a scalar register. -/
  | sld (cd k : Nat)
  /-- SST (R148): Stores a scalar register to 4 bytes of the core buffer. -/
  | sst (cd k : Nat)
  /-- RDW (R133): Reads the core's waggle-counter copy into two scalar registers. -/
  | rdw (cd k : Nat)
  /-- BR (R136): Branches to an instruction index when the guard is 1. -/
  | br (cd k : Nat)
  /-- JAL (R134): Saves the return index and jumps. -/
  | jal (cd k : Nat)
  /-- JR (R134): Jumps to the index in a scalar register. -/
  | jr (cd k : Nat)
  /-- LOOP (R134): Decrements a counter register and branches while it is non-zero. -/
  | loop (cd k : Nat)
  /-- HALT (R137): Stops issue after itself, like a STOP at this instruction. -/
  | halt (cd k : Nat)
  /-- ELD (R139): Issues one engine load per set MASK bit, with addresses, exponent and reduction-group fields taken at issue. -/
  | eld (cd k : Nat)
  /-- EMAX (R141): Returns the largest of n exponent bytes other than 0xFF. -/
  | emax (cd k : Nat)
  /-- PQCLR (R142): Clears a partial-queue entry, waiting for any send or pass naming it. -/
  | pqclr (cd k : Nat)
  /-- VFMA (R175): Vector fused multiply-add with one rounding. -/
  | vfma (cd k : Nat)
  /-- VADD (R175): Vector float add. -/
  | vadd (cd k : Nat)
  /-- VSUB (R175): Vector float subtract. -/
  | vsub (cd k : Nat)
  /-- VMUL (R175): Vector float multiply. -/
  | vmul (cd k : Nat)
  /-- VMIN (R176): Vector minimum, float or integer. -/
  | vmin (cd k : Nat)
  /-- VMAX (R176): Vector maximum, float or integer. -/
  | vmax (cd k : Nat)
  /-- VIADD (R134): Vector wrapping integer add. -/
  | viadd (cd k : Nat)
  /-- VISUB (R134): Vector wrapping integer subtract. -/
  | visub (cd k : Nat)
  /-- VAND (R134): Vector bitwise AND. -/
  | vand (cd k : Nat)
  /-- VOR (R134): Vector bitwise OR. -/
  | vor (cd k : Nat)
  /-- VXOR (R134): Vector bitwise XOR. -/
  | vxor (cd k : Nat)
  /-- VSHL (R134): Vector shift left. -/
  | vshl (cd k : Nat)
  /-- VSHR (R134): Vector logical shift right. -/
  | vshr (cd k : Nat)
  /-- VSRA (R134): Vector arithmetic shift right. -/
  | vsra (cd k : Nat)
  /-- VCMP (R135): Vector compare into a predicate. -/
  | vcmp (cd k : Nat)
  /-- VSEL (R131): Selects vector elements by a predicate. -/
  | vsel (cd k : Nat)
  /-- VDOT4 (R104): Four-way INT8 dot product accumulated into INT32 lanes. -/
  | vdot4 (cd k : Nat)
  /-- VCVT (R177): Converts vector elements between formats. -/
  | vcvt (cd k : Nat)
  /-- VSWC (R144): Converts 64 sum words to FP32 under their numeric header. -/
  | vswc (cd k : Nat)
  /-- VPART (R144): Encodes FP32 values as partials and adds them into a partial-queue entry. -/
  | vpart (cd k : Nat)
  /-- VQUANT (R144): Quantizes 128 FP32 values into an activation block or four KV blocks. -/
  | vquant (cd k : Nat)
  /-- VRED (R105): Reduces a register to one element by a fixed pairing tree. -/
  | vred (cd k : Nat)
  /-- VTRAN (R106): Computes a transcendental function in FP32. -/
  | vtran (cd k : Nat)
  /-- VDIV (R183): Correctly rounded FP32 division. -/
  | vdiv (cd k : Nat)
  /-- VSQRT (R183): Correctly rounded FP32 square root. -/
  | vsqrt (cd k : Nat)
  /-- VTOPK (R145): Writes the k largest candidates with their positions. -/
  | vtopk (cd k : Nat)
  /-- GATE (R146): Selects experts and computes their weights into a 72-byte record. -/
  | gate (cd k : Nat)
  /-- VLD (R148): Loads 256 bytes of the core buffer into a vector register. -/
  | vld (cd k : Nat)
  /-- VST (R148): Stores a vector register to 256 bytes of the core buffer. -/
  | vst (cd k : Nat)
  /-- DMOV (R148): Moves bytes between the core buffer and the cluster buffer. -/
  | dmov (cd k : Nat)
  /-- SEND (R151): After waiting for credit and for the entry's passes, sends a partial-queue entry to the cluster router. -/
  | send (cd k : Nat)
  /-- SEND_DONE (R98): When the router accepts the last word of a sent entry, the entry clears. -/
  | sendDone (cd k : Nat)
  /-- MCAST (R149): Sends a buffer range as a multicast vector to a group. -/
  | mcast (cd k : Nat)
  /-- MCASTX (R152): Sends the layer input once to each expert of a GATE record. -/
  | mcastx (cd k : Nat)
  /-- GRANT (R153): After every earlier buffer access is performed, returns credits on a credit route. -/
  | grant (cd k : Nat)
  /-- WAITA (R155): Waits until an arrival counter reaches n and subtracts n. -/
  | waita (cd k : Nat)
  /-- WAITC (R155): Waits until a credit counter reaches a value. -/
  | waitc (cd k : Nat)
  /-- WAITW (R159): Waits until the core's waggle copy reaches a step, recording a late step if already passed. -/
  | waitw (cd k : Nat)
  /-- CSET (R156): Sets an arrival or credit counter, adding increments of the same cycle. -/
  | cset (cd k : Nat)
  /-- WAITL (R158): Waits until the core's earlier buffer writes and their counter increments have been performed. -/
  | waitl (cd k : Nat)
  /-- TMARK (R160): Emits a trace mark record when tracing is on and updates the current identifier pair. -/
  | tmark (cd k : Nat)
  /-- MULTICAST_FLIT (R200): A router copies a multicast data flit to its FWD outputs and lands it at its LOCAL targets. -/
  | multicastFlit (cd c port : Nat) (take : FlitTake)
  /-- CREDIT_FLIT (R202): A credit flit follows its group and adds AMT to the credit counter of each named core. -/
  | creditFlit (cd c port : Nat) (take : FlitTake)
  /-- REDUCTION_FLIT (R207): A reduction flit is added into its combining slot, and emitted once every expected input has delivered it. -/
  | reductionFlit (cd c port : Nat) (err : LinkErr)
  /-- NOC_RGT_WRITE (R204): A write of a reduction group entry is checked and accepted or refused. -/
  | nocRgtWrite (cd c tag w : Nat) (v : Word64)
  /-- NOC_MGT_WRITE (R220): A write of a multicast group entry is checked and accepted or refused. -/
  | nocMgtWrite (cd c g : Nat) (v : Word64)
  /-- NOC_CRT_WRITE (R220): A write of a credit route entry is checked and accepted or refused. -/
  | nocCrtWrite (cd c r : Nat) (v : Word64)
  /-- NOC_DISCARD (R218): A GO empties every slot of a tag's entry and resets its instance counters. -/
  | nocDiscard (cd c tag : Nat)
  /-- NOC_LOCK (R222): Setting NOC_CTL.LOCK locks the arbitration weights until die reset. -/
  | nocLock (cd c : Nat)
  /-- ATTEND (R241): A memory die appends tokens and attends query rows over the KV cache, sending one output vector per row. -/
  | attend (md n : Nat) (units : List Nat) (cc : Nat)
  /-- COMMIT (R244): Appends a verified tree path's nodes to the committed positions of every pair. -/
  | commit (md n : Nat)
  /-- RQ_OPEN (R243): Opens a request slot with its reservations, table area and optional tree slots. -/
  | rqOpen (md n : Nat)
  /-- RQ_RELEASE (R243): After earlier commands complete, returns the request's slots and reservation and clears its entry. -/
  | rqRelease (md n : Nat)
  /-- GATHER (R245): Reads rows from the DATA region and sends them as multicast vectors. -/
  | gather (md n : Nat)
  /-- HBM_SCRUB_BURST (R231): Every 2^INTERVAL hc a stack is patrol-read by one burst, writing back corrected data and checking golden CRCs. -/
  | hbmScrubBurst (md st : Nat)
  /-- MDA_LOCK (R262): Setting MDA_CTL.LOCK locks the HBM region registers until die reset. -/
  | mdaLock (md : Nat)
  /-- LTAB_WRITE (R270): A write of a layer-table entry is checked and accepted or refused. -/
  | ltabWrite (md L word : Nat) (ws : List Word64)
  /-- SUBMIT (R278): A request parameter block is checked and the request admitted, queued or refused. -/
  | submit (fn q : Nat)
  /-- CP2_CANCEL (R425): The CP2 CANCEL command ends a request as a write of SRV_SLOT3.CANCEL would. -/
  | cp2Cancel (fn q : Nat)
  /-- SLOT_CANCEL (R276): Writing SRV_SLOT3.CANCEL ends, frees or holds the cancel of a request by its slot state. -/
  | slotCancel (who : Who) (slot : Nat)
  /-- DRAFT (R425): The CP2 DRAFT command reads a draft record from host memory into the slot's draft window. -/
  | draft (fn q : Nat)
  /-- DRAFT_WINDOW_WRITE (R291): A write to a slot's draft window stores node entries, and a write of byte 3 with N non-zero arms the record. -/
  | draftWindowWrite (who : Who) (slot off : Nat) (bs : List Byte)
  /-- CP2_ACK (R425): The CP2 ACK command returns consumed tokens of a slot. -/
  | cp2Ack (fn q : Nat)
  /-- SLOT_ACK (R297): Writing SRV_SLOT3.ACK adds to ACKED, or is an access error when too large. -/
  | slotAck (who : Who) (slot n : Nat)
  /-- CMD_ACKDB (R447): Writing the ACK doorbell acknowledges tokens of a slot. -/
  | cmdAckdb (fn : Nat) (v : Word64)
  /-- COMPLETION_RECORD (R275): A memory die's completion record reaches the serving engine and moves the slot's state. -/
  | completionRecord
  /-- INJECTION (R284): The serving engine injects the next ready slot's rows with a GATHER and a descriptor. -/
  | injection
  /-- SLOT_RELEASE (R275): An ENDING slot with no injection in flight sends RQ_RELEASE to all four memory dies. -/
  | slotRelease (slot : Nat)
  /-- FORAGER_DRAW (R288): Once a row's last candidate list has arrived, the forager merges the lists and draws the token. -/
  | foragerDraw
  /-- TOKEN_COMMIT (R296): A drawn token is written to the output queue with its position and waggle value, and the request may end. -/
  | tokenCommit
  /-- TTFT_DEADLINE (R301): When a CP1 request's TTFT deadline passes without a first token, it ends LATE or is flagged. -/
  | ttftDeadline (slot h : Nat)
  /-- COST_WRITE (R305): A write of SRV_COSTA or SRV_COSTB sets the cost model and evaluates the queue. -/
  | costWrite (which : Nat) (v : Word64)
  /-- QUOTA_WRITE (R456): A write of a context quota takes effect at the next admission decision and evaluates the queue. -/
  | quotaWrite (ctx which : Nat) (v : Word64)
  /-- HOUSEKEEPING_ROUND (R539): At each 1 ms round start KD0 captures and reads back every die's readings and runs the round's sweeps. -/
  | housekeepingRound (h stale : Nat) (rails : List Nat) (hbm : List Int)
  /-- QH_WINDOW_END (R321): At the end of each window, layers over threshold are flagged and window counts restart. -/
  | qhWindowEnd
  /-- QH_CLR (R325): Writing MON_QH_CFG.CLR zeroes every total and flag at the next round boundary. -/
  | qhClr
  /-- RD (R345): A read request is routed and performed at its target, which returns a CPL. -/
  | rd (die n : Nat)
  /-- WR (R348): A write request is held until whole, checked and performed at its target, which returns an ACK. -/
  | wr (die n : Nat)
  /-- CPL (R364): A read completion is matched to its outstanding request by unit, tag and generation. -/
  | cpl (die n : Nat)
  /-- ACK (R364): A write completion is matched to its outstanding request. -/
  | ack (die n : Nat)
  /-- MCV (R352): A multicast vector is rebuilt into mesh flits, taken as a command or candidate list, or forwarded by the receiving die. -/
  | mcv (die n : Nat)
  /-- MCC (R352): A multicast credit is rebuilt into a credit flit or forwarded by the receiving die. -/
  | mcc (die n : Nat)
  /-- DIE_LINK_FLIT (R340): A die-link receiver accepts a flit with good CRC and expected SEQ, or discards it and NAKs. -/
  | dieLinkFlit (die l : Nat) (noise : BitVec 544)
  /-- FLIT_ACK (R340): An ACK control flit frees acknowledged flits from the replay buffer. -/
  | flitAck (die l : Nat)
  /-- FLIT_NAK (R340): A NAK control flit makes the sender resend from the expected SEQ. -/
  | flitNak (die l : Nat)
  /-- CREDIT_RETURN (R339): A credit-return control flit returns link buffer credits to the sender. -/
  | creditReturn (die l vc h : Nat)
  /-- ABORT (R351): An ABORT control flit ends its stream's message, whose flits are marked BAD. -/
  | abort (die l : Nat)
  /-- ACK_DUE (R340): A receiver sends an ACK within 16 cc of accepting an unacknowledged flit. -/
  | ackDue (die l : Nat)
  /-- LINK_TRAINING_DONE (R341): A die link finishes training or retraining and resends its replay buffer. -/
  | linkTrainingDone (die l : Nat) (low high : Bool)
  /-- ILP_FLIT (R359): An ILP port accepts a flit with good CRC and expected SEQ, or NAKs it. -/
  | ilpFlit (die p h : Nat) (first align last : List Nat) (flit : BitVec 2048) (ph steps ph3 : Nat)
  /-- SYNC_REQ (R493): An upstream package answers a SYNC_REQ with a stamped SYNC_RSP. -/
  | syncReq (die p seq ph2 steps ph3 : Nat)
  /-- SYNC_RSP (R494): A follower computes offset and delay from a SYNC_RSP and schedules step adjustments. -/
  | syncRsp (die p seq : Nat) (locked master : Bool) (v2 ph2 v3 ph3 ph4 : Nat)
  /-- MAC (R468): A MAC control flit verifies its window's tag, releasing the window or taking the port down. -/
  | mac (die p slot win : Nat) (tag : BitVec 128)
  /-- MAC_RESEND (R468): A sender with no ACK 4 µs after a window's MAC flit resends it. -/
  | macResend (die p : Nat)
  /-- PORT_LANE_LOSS (R360): Loss of lock on a port lane degrades the port. -/
  | portLaneLoss (die p : Nat)
  /-- PORT_TRAINING_DONE (R360): An ILP port finishes training or retraining and resends unacknowledged flits. -/
  | portTrainingDone (die p peer peerPort : Nat) (nonce : BitVec 128)
  /-- LNK_PCFG_EN (R360): Writing LNK_PCFG.EN to 0 and then 1 retrains a port to full width. -/
  | lnkPcfgEn (die p : Nat) (en : Bool)
  /-- REQUEST_TIMEOUT (R365): An outstanding request completes to its user with TIMEOUT and its tag enters quarantine. -/
  | requestTimeout (die unit tag h : Nat)
  /-- QUARANTINE_EXPIRY (R366): A quarantined tag is freed after QUAR ms. -/
  | quarantineExpiry (die unit tag h : Nat)
  /-- LINK_STALL (R367): A VC that has not moved for LSTALL µs raises STALL and takes the link DOWN. -/
  | linkStall (die l h : Nat)
  /-- PFAB_LOCK (R372): Setting PFAB_CTL.LOCK locks the package ID, route and weight tables until die reset. -/
  | pfabLock (die : Nat)
  /-- GOLD_RECORD_WRITE (R387): A write through the golden-copy window stores record bytes, mirrors them, and checks a commit. -/
  | goldRecordWrite (md set r b : Nat) (bs : List Byte)
  /-- LOADER_WRITE (R385): A write through a loader window sets the engine code and issues one comb write command per packet. -/
  | loaderWrite (n : Nat)
  /-- LOADER_REISSUE (R385): After each housekeeping round a command refused for temperature is reissued. -/
  | loaderReissue (n : Nat)
  /-- GOLD_COPY (R391): WGT_MDCMD copy sends a side's valid records to a set of another package. -/
  | goldCopy (md : Nat) (v : Word64)
  /-- GOLD_CLEAR (R392): WGT_MDCMD clear starts invalidating every record of a set. -/
  | goldClear (md : Request) (v : Word64)
  /-- GOLD_CLEAR_DONE (R392): A clear completes within 3,641 cc with SETn_VALID cleared. -/
  | goldClearDone (md : Nat)
  /-- SEAL (R393): WGT_SEAL GO starts hashing a set's sides, or is refused. -/
  | sealSet (set : Request)
  /-- SEAL_DONE (R393): When hashing ends, the digests and counts are compared and SETn_VALID set or RESULT recorded. -/
  | sealDone
  /-- WGT_HDR_WRITE (R403): A write of an image header register is refused or performed, clearing SETn_VALID. -/
  | wgtHdrWrite (set i : Nat) (v : Word64)
  /-- SWITCH_ARM (R394): Writing ARM makes a switch pending and stops admissions. -/
  | switchArm
  /-- SWITCH_DRAINED (R394): An ARMED package becomes DRAINED when every slot is FREE or QUEUED with no injection in flight. -/
  | switchDrained
  /-- SWITCH_GO (R395): Writing GO commits the switch at a waggle step, or is refused with RESULT. -/
  | switchGo
  /-- SWITCH_ABORT (R396): Writing ABORT ends a pending switch and returns the package to IDLE. -/
  | switchAbort
  /-- SWITCH_START (R397): When KD0's waggle copy reaches STEP a committed switch enters SWITCHING and stops every core. -/
  | switchStart
  /-- SWITCH_CORES_STOPPED (R397): Once all cores are STOPPED the set becomes active, the image is applied, maps are set and the fill starts. -/
  | switchCoresStopped
  /-- SWITCH_FILL_DONE (R397): When every valid record's engine is mapped the cores run, CONFIG clears and the state returns to IDLE. -/
  | switchFillDone
  /-- GOLD_REPAIR (R401): A queued repair copies the good golden record over the bad one. -/
  | goldRepair (md : Request)
  /-- GOLD_REHASH_DONE (R402): After a lost record is restored, the side's rehash is checked against the sealed digest. -/
  | goldRehashDone (side : Nat)
  /-- SQ_FETCH (R417): The N40 fetches an SQ entry once the CQ has room reserved for its completion. -/
  | sqFetch (fn q : Nat)
  /-- CMD_SQTDB (R418): Writing the SQ tail doorbell sets the tail, or puts the pair in ERROR. -/
  | cmdSqtdb (fn q : Nat) (v : Word64)
  /-- CMD_CQHDB (R418): Writing the CQ head doorbell sets the head, or puts the pair in ERROR. -/
  | cmdCqhdb (fn q : Nat) (v : Word64)
  /-- QUEUE_ENABLE (R418): Writing CMD_QCFG.EN = 1 enables a pair and resets its indices. -/
  | queueEnable (fn q : Nat) (v : Word64)
  /-- QUEUE_DISABLE (R422): Writing CMD_QCFG.EN = 0 puts a pair in DRAINING. -/
  | queueDisable (fn q : Nat) (v : Word64)
  /-- REG_READ (R428): The CP2 REG_READ command reads a register by global address. -/
  | regRead (fn q : Nat)
  /-- REG_WRITE (R428): The CP2 REG_WRITE command writes a register by global address. -/
  | regWrite (fn q : Nat)
  /-- MEM_WRITE (R427): Copies host memory to a global range in 4 KiB fabric writes, with the HLAST message last. -/
  | memWrite (fn q : Nat)
  /-- MEM_READ (R427): Copies a global range to host memory in fabric reads. -/
  | memRead (fn q : Nat)
  /-- PROG_STAGE (R433): Starts hashing and checking a step-program image on MD0. -/
  | progStage (fn q : Nat)
  /-- STAGE_HASH_DONE (R433): When hashing ends the image is STAGED or the command completes with DIGEST. -/
  | stageHashDone
  /-- PROG_UNSTAGE (R429): Releases the staged image. -/
  | progUnstage (fn q : Nat)
  /-- EVENT_WAIT (R431): Waits for the next event of the function, completing with its kind and count. -/
  | eventWait (fn q : Nat)
  /-- NOP (R425): The CP2 NOP command completes with no effect. -/
  | nop (fn q : Nat)
  /-- GEN (R436): The CP1 GEN command is performed as a SUBMIT with a derived parameter block. -/
  | gen (fn q : Nat)
  /-- CP1_ABORT (R435): The CP1 ABORT command is performed as CANCEL. -/
  | cp1Abort (fn q : Nat)
  /-- RDREG (R435): The CP1 RDREG command is performed as a 4-byte REG_READ. -/
  | rdreg (fn q : Nat)
  /-- WRREG (R435): The CP1 WRREG command is performed as a 4-byte REG_WRITE. -/
  | wrreg (fn q : Nat)
  /-- CP1_NOP (R435): The CP1 NOP command is performed as NOP. -/
  | cp1Nop (fn q : Nat)
  /-- SEM_TAKE (R437): TAKE sets a free semaphore's HELD and OWNER. -/
  | semTake (n : Nat) (whos : List Who)
  /-- SEM_GIVE (R437): GIVE by the owner releases the semaphore. -/
  | semGive (who : Who) (n : Nat)
  /-- SEM_FORCE (R437): FORCE from a PF or the BMC releases a semaphore whoever holds it. -/
  | semForce (who : Who) (n : Nat)
  /-- APERTURE_ACCESS (R414): A TLP through a BAR2 aperture becomes one fabric RD or WR of the same address and length. -/
  | apertureAccess (port n a tag len : Nat) (w : Option (List Byte)) (ide : Option Nat)
  /-- HOST_READ_COMPLETION (R439): A completion of an N40 host-memory read delivers its data or fails the read. -/
  | hostReadCompletion (port tag : Nat) (ok : Bool) (bs : List Byte)
  /-- HOST_READ_TIMEOUT (R439): A host-memory read that times out fails with the effects of its kind. -/
  | hostReadTimeout (port tag h : Nat)
  /-- HOST_TAG_RELEASE (R440): A timed-out host-read tag is freed after CMD_HTMO.QUAR ms. -/
  | hostTagRelease (port tag h : Nat)
  /-- FUNCTION_LEVEL_RESET (R422): A function level reset disables the function's queues, cancels its requests and releases its semaphores. -/
  | functionLevelReset (fn : Nat)
  /-- PERST_ASSERT (R598): Assertion of a port's PERST input resets that port and its functions only. -/
  | perstAssert (port : Nat)
  /-- PERST_RELEASE (R599): Release of a port's PERST input starts link training within 20 ms. -/
  | perstRelease (port : Nat)
  /-- GET_VERSION (R463): SPDM GET_VERSION request. -/
  | getVersion (port : Nat)
  /-- GET_CAPABILITIES (R463): SPDM GET_CAPABILITIES request. -/
  | getCapabilities (port : Nat)
  /-- NEGOTIATE_ALGORITHMS (R463): SPDM NEGOTIATE_ALGORITHMS request. -/
  | negotiateAlgorithms (port : Nat)
  /-- GET_DIGESTS (R463): SPDM GET_DIGESTS request. -/
  | getDigests (port : Nat)
  /-- GET_CERTIFICATE (R463): SPDM GET_CERTIFICATE request. -/
  | getCertificate (port slot off n : Nat)
  /-- CHALLENGE (R463): SPDM CHALLENGE request. -/
  | challenge (port slot : Nat)
  /-- GET_MEASUREMENTS (R464): Reports the measurement digests taken in one kc cycle. -/
  | getMeasurements (port index : Nat)
  /-- KEY_EXCHANGE (R463): SPDM KEY_EXCHANGE request. -/
  | keyExchange (port : Nat)
  /-- FINISH (R463): SPDM FINISH request. -/
  | finish (port id : Nat) (verified : Bool)
  /-- HEARTBEAT (R463): SPDM HEARTBEAT request. -/
  | heartbeat (port id : Nat)
  /-- KEY_UPDATE (R463): SPDM KEY_UPDATE request. -/
  | keyUpdate (port id : Nat)
  /-- END_SESSION (R463): SPDM END_SESSION request. -/
  | endSession (port id : Nat)
  /-- VENDOR_DEFINED_REQUEST (R463): SPDM vendor-defined request inside a secure session. -/
  | vendorDefinedRequest (port id : Nat)
  /-- SET_LINK_KEY (R466): Loads the swarm link key into a key slot of every link die, unless the slot is in use. -/
  | setLinkKey (port id slot : Nat) (key : List Byte)
  /-- KEY_CHANGE (R469): At the first window after the waggle copy reaches KSTEP the sender switches key slots. -/
  | keyChange (die p : Nat)
  /-- SVN_COMMIT (R462): Writing SEC_SVN.COMMIT raises the fused SVN to the running image's, or is refused. -/
  | svnCommit
  /-- DEBUG_UNLOCK (R472): SEC_DBGCTL.GO checks the signature and starts destroying keys and tenant state. -/
  | debugUnlock
  /-- UNLOCK_DONE (R472): When the tenant regions are zeroed the debug state becomes UNLOCKED. -/
  | unlockDone
  /-- PLL_LOSS (R487): A lost root clock or PLL lock gates the die's clocks and reports a die fault. -/
  | pllLoss (die : Nat)
  /-- REF_LOSS (R487): PKG_REFCLK absent for 4 µs sets REF_LOSS on both control dies. -/
  | refLoss
  /-- WAGGLE_STEP (R489): At each step boundary a die's waggle copy increases by 1, applying any scheduled adjustment. -/
  | waggleStep (die cc : Nat)
  /-- WAGGLE_START (R490): A die receives its start value and step from KD0 and counts from that boundary. -/
  | waggleStart (die lead : Nat)
  /-- WAGGLE_ADJUST (R490): A die receives a scheduled shortened or lengthened step from KD0. -/
  | waggleAdjust (die : Nat)
  /-- SYNC_REQ_DUE (R493): Every 32 steps a follower sends a SYNC_REQ on its upstream port. -/
  | syncReqDue (alt : Bool) (ph : Nat)
  /-- MASTER_TIMEOUT (R495): A primary master with no locked response within 10 ms of bring-up becomes LOCKED as master. -/
  | masterTimeout (h : Nat)
  /-- SYNC_HOLDOVER (R495): With no usable response for 1,024 steps on both ports the package enters HOLDOVER. -/
  | syncHoldover
  /-- WAG_CAPTURE (R497): Writing WAG_CAP.GO captures V and its phase from one reference cycle. -/
  | wagCapture (die : Nat)
  /-- PKG_SYNC_EDGE (R499): A rising PKG_SYNC edge on the primary master is stamped and used as an offset, or rejected. -/
  | pkgSyncEdge (h high : Nat)
  /-- GOVERNOR_STEP (R514): Every 1 µs a die measures its power and sets its engine allowance, CAPs or cycle skipping. -/
  | governorStep (die h w f pin : Nat)
  /-- THERMAL_SAMPLE (R519): Every 10 µs a die's controller updates its thresholds and thermal level. -/
  | thermalSample (die h : Nat) (ts : List (Option Int))
  /-- THROTTLE_IN_CHANGE (R521): The external throttle input puts every die at level 1 while asserted and for 1 ms after. -/
  | throttleInChange (on : Bool) (h : Nat)
  /-- THERMAL_TRIP (R524): Two samples at or above 108 °C trip the die off and assert THERMTRIP_N. -/
  | thermalTrip (dies : Nat)
  /-- INPUT_UNDERVOLTAGE (R511): Input below 10.8 V for 5 µs sets UV and asserts ALERT_N. -/
  | inputUndervoltage
  /-- INPUT_OVERVOLTAGE (R511): Input above 13.2 V for 5 µs sets OV and asserts ALERT_N. -/
  | inputOvervoltage
  /-- ADC_SLOT (R538): Each 2 µs slot a housekeeping converter converts its scheduled channel and updates means. -/
  | adcSlot (kd conv h : Nat) (raw : Int)
  /-- URGENT_CONVERSION (R543): Writing HK_URG.GO requests one conversion in the next eligible slot. -/
  | urgentConversion (kd : Nat) (v : Word64)
  /-- CAL_GO (R549): Writing CAL_CTL.GO triggers calibration of one die or all dies. -/
  | calGo (all : Bool) (die : Nat)
  /-- TRIM_RAMP_STEP (R551): Every 10 µs a rail trim moves one code toward its accepted value. -/
  | trimRampStep (die item : Nat)
  /-- CAL_SAVE (R554): Writing CAL_CTL.SAVE snapshots the accepted values and starts writing a flash copy. -/
  | calSave
  /-- CAL_SAVE_DONE (R554): The flash copy is read back and the save completes or fails. -/
  | calSaveDone (ok : Bool)
  /-- CAL_RESTORE (R556): Writing CAL_CTL.RESTORE applies the selected flash copy as accepted values. -/
  | calRestore
  /-- FAULT_RECOVERY (R571): A class-A fault on a die quiesces, clears, repairs, restarts and replays the die. -/
  | faultRecovery (die : Nat)
  /-- REFILL (R587): A write of RAS_REFILL queues one golden refill of a physical engine. -/
  | refill (cd md : Nat) (v : Word64)
  /-- REFILL_RUN (R587): A queued refill reads the golden record and writes it through the physical loader window. -/
  | refillRun (md : Nat)
  /-- STEP_RELEASE (R570): A receiver's release for a slot frees the sender's retained copies for that slot. -/
  | stepRelease (die slot rpkg rdie : Nat)
  /-- RESEND_REQUEST (R577): A receiver's request makes the sender resend retained messages after an abort or drop. -/
  | resendRequest (die rpkg rdie group skip : Nat)
  /-- DIE_RESET (R579): A class-C recovery resets a die, relocks, reloads, refills and replays it. -/
  | dieReset (die : Nat)
  /-- KD_HEARTBEAT (R580): Every 10 µs each control die sends a heartbeat write to the other. -/
  | kdHeartbeat (kd : Nat) (sent : Bool)
  /-- CONTROL_DIE_TAKEOVER (R580): After three missing heartbeats the survivor takes over serving and restarts injections. -/
  | controlDieTakeover (kd : Nat)
  /-- RAS_FORCE (R583): Writing RAS_CTL.FORCE runs a recovery without a fault. -/
  | rasForce (die : Nat)
  /-- VIN_RISE (R591): 12 V rising through 10.8 V brings up the always-on island. -/
  | vinRise (h : Nat) (owned encrypt : Bool) (pkg : Nat) (tables : List (Nat × Nat × Word64)) (stfail : Nat)
  /-- VIN_LOSS (R589): Removal of 12 V is a cold reset that also clears THM_TRIP. -/
  | vinLoss (h : Nat)
  /-- PWROK_ASSERT (R591): PWROK assertion starts the cold power-up sequence through boot to READY. -/
  | pwrokAssert (h : Nat) (owned encrypt : Bool) (pkg : Nat) (tables : List (Nat × Nat × Word64)) (stfail : Nat)
  /-- PWROK_DEASSERT (R592): PWROK deassertion gates every clock and turns the rails off in reverse order. -/
  | pwrokDeassert (h : Nat)
  /-- RST_N_ASSERT (R597): RST_N assertion puts the package in warm reset with the stacks in self-refresh. -/
  | rstNAssert (h : Nat)
  /-- RST_N_RELEASE (R593): RST_N release runs the warm restart back to service. -/
  | rstNRelease (h : Nat) (owned encrypt : Bool) (pkg : Nat) (tables : List (Nat × Nat × Word64)) (stfail : Nat)
  /-- RST_LONG (R598): RST_N held 1 s sets RST_LONG, and held 10 s asserts ALERT_N. -/
  | rstLong (h : Nat)
  /-- PWR_RESET_WARM (R609): Writing PWR_RESET.WARM from a PF or the BMC schedules a warm restart 1 ms later. -/
  | pwrResetWarm (who : Who)
  /-- WARM_RESTART (R593): A warm restart starts after its delay or on a class-E fault and runs the restart sequence. -/
  | warmRestart (h stfail : Nat)
  /-- RETIREMENT_RECORD_WRITE (R595): Within 1 s of a retirement the bitmap is written into the older flash copy. -/
  | retirementRecordWrite (ok : Bool)
  /-- PIN_SBCFG_WRITE (R603): A sideband configuration write changes the pin's function at the next hclk edge. -/
  | pinSbcfgWrite (kd i : Nat) (v : Word64)
  /-- SIDEBAND_INPUT (R604): A sideband input stable at a new level for the filter time changes its reported level. -/
  | sidebandInput (kd i h : Nat) (level : Bool)
  /-- TACH_EDGE (R602): A rising edge on a TACH pin updates the measured period. -/
  | tachEdge (kd i h : Nat)
  /-- PWM_TOGGLE (R602): A PWM pin changes level at the end of its high or low phase. -/
  | pwmToggle (kd i h : Nat)
  /-- LED_TOGGLE (R602): An LED pin toggles every PARAM × 10 ms. -/
  | ledToggle (kd i h : Nat)
  /-- BMC_READ4 (R601): BMC block write command 0x01 reads 4 bytes at a global address. -/
  | bmcRead4 (addr : Word64)
  /-- BMC_READ8 (R601): BMC block write command 0x02 reads 8 bytes at a global address. -/
  | bmcRead8 (addr : Word64)
  /-- BMC_WRITE4 (R601): BMC block write command 0x03 writes 4 bytes at a global address. -/
  | bmcWrite4 (addr : Word64) (v : Word32)
  /-- BMC_WRITE8 (R601): BMC block write command 0x04 writes 8 bytes at a global address. -/
  | bmcWrite8 (addr v : Word64)
  /-- BMC_BLOCK_READ (R601): The BMC's block read returns the status and data of the previous command. -/
  | bmcBlockRead
  /-- TRACE_WINDOW_START (R612): When a core's waggle copy reaches DBG_TSTART its trace window opens and EPOCH increments. -/
  | traceWindowStart (cd : Nat)
  /-- TRACE_WINDOW_STOP (R612): When a core's waggle copy reaches DBG_TSTOP its trace window closes. -/
  | traceWindowStop (cd : Nat)
  /-- PC_SAMPLE (R615): Every 2^PER cclk cycles a traced core emits a PC sample with its stall code. -/
  | pcSample (cd k cc busy : Nat)
  /-- TRACE_WRITE (R616): The collector writes a pair of records to the sink as one 64-byte fabric write. -/
  | traceWrite (cd : Nat)
  /-- TRACE_FLUSH (R616): A record unpaired for 1 µs is written with an empty second half. -/
  | traceFlush (cd h : Nat)
  /-- FREEZE (R621): Writing DBG_RSTAT.FREEZE freezes an event ring. -/
  | freeze (die : Nat) (core : Bool) (u : Nat)
  /-- THAW (R621): Writing DBG_RSTAT.THAW writes a THAW entry and resumes recording. -/
  | thaw (die : Nat) (core : Bool) (u : Nat)
  /-- RING_FREEZE_STEP (R621): When the waggle copy reaches DBG_RFREEZE the rings freeze and the register disarms. -/
  | ringFreezeStep (die : Nat)
  /-- MON_SNAP (R626): Writing MON_CTL.SNAP copies every monitor field into the shadow. -/
  | monSnap (ctx : Bool) (die m : Nat)
  /-- MON_CLR (R626): Writing MON_CTL.CLR zeroes the live monitor fields. -/
  | monClr (ctx : Bool) (die m : Nat)
  /-- ILLEGAL_INSTRUCTION (R126): An instruction word whose OP is not in the opcode map reaches issue, or an opcode-listed word with a reserved field, and raises ILLEGAL. -/
  | illegalInstruction (cd k : Nat)
  /-- INJECTION_FINISH (R284): An injection that samples no token, such as a prompt chunk without LAST, stops being in flight, freeing its place under INFLIGHT and PF_MAX and letting an ENDING slot release. -/
  | injectionFinish (slot : Nat)
  /-- VR_FAULT (R530): A stage-1 phase or an integrated regulator reports a fault, setting PWR_ERR.VR_FAULT. -/
  | vrFault
  /-- FORWARDED_CLOCK_LOSS (R487): A die whose link partner has stopped its UCIe forwarded clock detects the loss within 2 µs and takes that link DOWN. -/
  | forwardedClockLoss (die l : Nat)
  /-- CONFIGURATION_REQUEST (R599): A PCIe configuration request reaches a port's function and is completed, or completed with Configuration Request Retry Status before the port's firmware is ready. -/
  | configurationRequest (fn tag off : Nat) (w : Option Word32)
  deriving DecidableEq, Repr

end Sys2Proof
end

