-- ==== Sys2Proof/Decode.lean ====
section
/-!
DEFINITION. The command that a word spells. The rows of spec/opcode_table.json give no bits, so no word spells a
command (log entry 1). The encodings of step instructions and of messages are data of the block and stand with the
operations that read them.
-/

namespace Sys2Proof

/-- No row of the table has bits. -/
def decodeTableWord (_nbits _w : Nat) : Option Instr := none

end Sys2Proof
end

