-- ==== Sys2Proof/Machine/Bits.lean ====
section
/-!
DEFINITION. Bit fields, signs and byte order (00 R4: a field is written [msb:lsb], every value wider than one byte
is little-endian).
-/

namespace Sys2Proof.Machine

/-- Bits [hi:lo] of a number. -/
def bits (v hi lo : Nat) : Nat := (v >>> lo) % 2 ^ (hi + 1 - lo)

/-- Bit `i` of a number. -/
def bit (v i : Nat) : Bool := (v >>> i) % 2 == 1

/-- A mask of bits [hi:lo]. -/
def maskOf (hi lo : Nat) : Nat := (2 ^ (hi + 1 - lo) - 1) <<< lo

/-- Replace bits [hi:lo] of a number by `x`. -/
def setBits (v hi lo x : Nat) : Nat :=
  (v - (bits v hi lo <<< lo)) + ((x % 2 ^ (hi + 1 - lo)) <<< lo)

/-- 1 for true. -/
def b2n (b : Bool) : Nat := if b then 1 else 0

/-- The signed value of the low `w` bits. -/
def signed (w v : Nat) : Int := let u := v % 2 ^ w; if 2 * u < 2 ^ w then (u : Int) else (u : Int) - (2 ^ w : Nat)

/-- The two's-complement code of an integer in `w` bits. -/
def unsigned (w : Nat) (i : Int) : Nat := (i % ((2 ^ w : Nat) : Int)).toNat

/-- The number that a little-endian byte list holds. -/
def ofBytes : List Byte → Nat
  | [] => 0
  | b :: t => b.toNat + 256 * ofBytes t

/-- The `n` little-endian bytes of a number. -/
def toBytes : Nat → Nat → List Byte
  | 0, _ => []
  | n + 1, v => BitVec.ofNat 8 v :: toBytes n (v / 256)

/-- Byte `i` of a byte list (zero past its end). -/
def byteAt (l : List Byte) (i : Nat) : Nat := (l.getD i 0#8).toNat

/-- The `n` bytes of a list from `i` on, zero past its end. -/
def slice (l : List Byte) (i n : Nat) : List Byte := toBytes n (ofBytes ((l.drop i).take n))

/-- The little-endian number in the `n` bytes of a list from `i` on. -/
def numAt (l : List Byte) (i n : Nat) : Nat := ofBytes ((l.drop i).take n)

/-- Element `i` of width `w` bits of a wide register value. -/
def elem (v w i : Nat) : Nat := (v >>> (w * i)) % 2 ^ w

/-- Replace element `i` of width `w` bits. -/
def setElem (v w i x : Nat) : Nat := (v - (elem v w i <<< (w * i))) + ((x % 2 ^ w) <<< (w * i))

/-- Pack elements of width `w` bits, element 0 lowest. -/
def pack (w : Nat) : List Nat → Nat
  | [] => 0
  | x :: t => x % 2 ^ w + 2 ^ w * pack w t

/-- The smallest `n` with `a ≤ b * n`, for `b > 0`. -/
def ceilDiv (a b : Nat) : Nat := (a + b - 1) / b

/-- Round the quotient `n / d` (`d > 0`) to the nearest integer, ties to even. -/
def rneDiv (n : Int) (d : Nat) : Int :=
  let q := n / (d : Int)
  let r := n - q * (d : Int)
  if 2 * r < (d : Int) then q
  else if (d : Int) < 2 * r then q + 1
  else if q % 2 = 0 then q else q + 1

/-- Saturating addition below `2^w`. -/
def satAdd (w a b : Nat) : Nat := min (a + b) (2 ^ w - 1)

/-- The number of ones among the low `n` bits. -/
def popcount : Nat → Nat → Nat
  | 0, _ => 0
  | n + 1, v => v % 2 + popcount n (v / 2)

/-- The positions of the ones among the low `n` bits, lowest first, counting from `i`. -/
def onesFrom : Nat → Nat → Nat → List Nat
  | 0, _, _ => []
  | n + 1, v, i => if v % 2 = 1 then i :: onesFrom n (v / 2) (i + 1) else onesFrom n (v / 2) (i + 1)

/-- Sum of a list of integers. -/
def sumInt (l : List Int) : Int := l.foldl (· + ·) 0

end Sys2Proof.Machine
end

