-- ==== Sys2Proof/Machine/Hash.lean ====
section
/-!
DEFINITION. The check codes and functions that the spec names: CRC-16 of a die link (R339), CRC-32 of a port (R357),
CRC-32C of a record (R257), SHA-384 (R393, R433, R462) and Philox-4x32-10 (R288).
-/

namespace Sys2Proof.Machine

/-! ## CRC -/

/-- One byte into a CRC of `w` bits that takes the most significant bit first. -/
def crcUpByte (w poly : Nat) (c : Nat) (b : Byte) : Nat :=
  (List.range 8).foldl (fun c i =>
    let inBit := bit b.toNat (7 - i)
    let top := bit c (w - 1)
    let c := (2 * c) % 2 ^ w
    if inBit != top then c ^^^ poly else c) c

/-- CRC-16 of R339, initial value 0xFFFF; most significant bit first (log entry 40). -/
def crc16 (bs : List Byte) : Nat := bs.foldl (crcUpByte 16 0x8BB7) 0xFFFF

/-- One byte into a reflected 32-bit CRC. -/
def crcDownByte (poly : Nat) (c : Nat) (b : Byte) : Nat :=
  (List.range 8).foldl (fun c _ => if c % 2 = 1 then (c / 2) ^^^ poly else c / 2) (c ^^^ b.toNat)

/-- The CRC-32 of IEEE 802.3 (R357). -/
def crc32 (bs : List Byte) : Nat := (bs.foldl (crcDownByte 0xEDB88320) 0xFFFFFFFF) ^^^ 0xFFFFFFFF

/-- CRC-32C, Castagnoli (R257). -/
def crc32c (bs : List Byte) : Nat := (bs.foldl (crcDownByte 0x82F63B78) 0xFFFFFFFF) ^^^ 0xFFFFFFFF

/-! ## SHA-384 (FIPS 180-4) -/

/-- The 80 round constants of SHA-512 and SHA-384, the fractions of the cube roots of the first 80 primes to 64 bits, in rows
of five words, the first word of a row at its top. -/
def shaRows : List Nat := [
  0x428a2f98d728ae227137449123ef65cdb5c0fbcfec4d3b2fe9b5dba58189dbbc3956c25bf348b538,
  0x59f111f1b605d019923f82a4af194f9bab1c5ed5da6d8118d807aa98a303024212835b0145706fbe,
  0x243185be4ee4b28c550c7dc3d5ffb4e272be5d74f27b896f80deb1fe3b1696b19bdc06a725c71235,
  0xc19bf174cf692694e49b69c19ef14ad2efbe4786384f25e30fc19dc68b8cd5b5240ca1cc77ac9c65,
  0x2de92c6f592b02754a7484aa6ea6e4835cb0a9dcbd41fbd476f988da831153b5983e5152ee66dfab,
  0xa831c66d2db43210b00327c898fb213fbf597fc7beef0ee4c6e00bf33da88fc2d5a79147930aa725,
  0x06ca6351e003826f142929670a0e6e7027b70a8546d22ffc2e1b21385c26c9264d2c6dfc5ac42aed,
  0x53380d139d95b3df650a73548baf63de766a0abb3c77b2a881c2c92e47edaee692722c851482353b,
  0xa2bfe8a14cf10364a81a664bbc423001c24b8b70d0f89791c76c51a30654be30d192e819d6ef5218,
  0xd69906245565a910f40e35855771202a106aa07032bbd1b819a4c116b8d2d0c81e376c085141ab53,
  0x2748774cdf8eeb9934b0bcb5e19b48a8391c0cb3c5c95a634ed8aa4ae3418acb5b9cca4f7763e373,
  0x682e6ff3d6b2b8a3748f82ee5defb2fc78a5636f43172f6084c87814a1f0ab728cc702081a6439ec,
  0x90befffa23631e28a4506cebde82bde9bef9a3f7b2c67915c67178f2e372532bca273eceea26619c,
  0xd186b8c721c0c207eada7dd6cde0eb1ef57d4f7fee6ed17806f067aa72176fba0a637dc5a2c898a6,
  0x113f9804bef90dae1b710b35131c471b28db77f523047d8432caab7b40c724933c9ebe0a15c9bebc,
  0x431d67c49c100d4c4cc5d4becb3e42b6597f299cfc657e2a5fcb6fab3ad6faec6c44198c4a475817]

/-- The round constants in order. -/
def shaK : List Word64 :=
  shaRows.flatMap (fun row => [256, 192, 128, 64, 0].map (fun sh => BitVec.ofNat 64 (row >>> sh)))

/-- The eight working words. -/
structure Sha where
  a : Word64
  b : Word64
  c : Word64
  d : Word64
  e : Word64
  f : Word64
  g : Word64
  h : Word64
  deriving DecidableEq, Repr

/-- Rotate right. -/
def rotr64 (x : Word64) (n : Nat) : Word64 := (x >>> n) ||| (x <<< (64 - n))

/-- One round. -/
def Sha.round (s : Sha) (k w : Word64) : Sha :=
  let s1 := rotr64 s.e 14 ^^^ rotr64 s.e 18 ^^^ rotr64 s.e 41
  let ch := (s.e &&& s.f) ^^^ (~~~s.e &&& s.g)
  let t1 := s.h + s1 + ch + k + w
  let s0 := rotr64 s.a 28 ^^^ rotr64 s.a 34 ^^^ rotr64 s.a 39
  let mj := (s.a &&& s.b) ^^^ (s.a &&& s.c) ^^^ (s.b &&& s.c)
  { a := t1 + (s0 + mj), b := s.a, c := s.b, d := s.c, e := s.d + t1, f := s.e, g := s.f, h := s.g }

/-- The message schedule: `w` holds the last 16 words, oldest first; one round per constant. -/
def shaRounds : List Word64 → List Word64 → Sha → Sha
  | [], _, s => s
  | k :: ks, w, s =>
    let w0 := w.getD 0 0
    let w1 := w.getD 1 0
    let w14 := w.getD 14 0
    let n := (rotr64 w14 19 ^^^ rotr64 w14 61 ^^^ (w14 >>> 6)) + w.getD 9 0 +
      (rotr64 w1 1 ^^^ rotr64 w1 8 ^^^ (w1 >>> 7)) + w0
    shaRounds ks (w.drop 1 ++ [n]) (s.round k w0)

/-- The big-endian number in a byte list. -/
def ofBytesBE (bs : List Byte) : Nat := bs.foldl (fun a b => 256 * a + b.toNat) 0

/-- The `n` big-endian bytes of a number. -/
def toBytesBE (n v : Nat) : List Byte := (toBytes n v).reverse

/-- One 128-byte block. -/
def Sha.block (s : Sha) (bs : List Byte) : Sha :=
  let w := (List.range 16).map (fun i => BitVec.ofNat 64 (ofBytesBE ((bs.drop (8 * i)).take 8)))
  let r := shaRounds shaK w s
  { a := s.a + r.a, b := s.b + r.b, c := s.c + r.c, d := s.d + r.d, e := s.e + r.e, f := s.f + r.f, g := s.g + r.g,
    h := s.h + r.h }

/-- All whole blocks of a padded message. -/
def Sha.blocks : Nat → List Byte → Sha → Sha
  | 0, _, s => s
  | n + 1, bs, s => Sha.blocks n (bs.drop 128) (s.block (bs.take 128))

/-- The 48 bytes of the SHA-384 digest. -/
def sha384 (m : List Byte) : List Byte :=
  let n := m.length
  let pad := (127 + 112 - n % 128) % 128
  let p := m ++ [0x80#8] ++ List.replicate pad 0#8 ++ toBytesBE 16 (8 * n)
  let s0 : Sha := { a := 0xcbbb9d5dc1059ed8, b := 0x629a292a367cd507, c := 0x9159015a3070dd17, d := 0x152fecd8f70e5939,
                    e := 0x67332667ffc00b31, f := 0x8eb44a8768581511, g := 0xdb0c2e0d64f98fa7, h := 0x47b5481dbefa4fa4 }
  let s := Sha.blocks (p.length / 128) p s0
  [s.a, s.b, s.c, s.d, s.e, s.f].flatMap (fun x => toBytesBE 8 x.toNat)

/-- HMAC with SHA-384. -/
def hmac384 (key m : List Byte) : List Byte :=
  let k := if 128 < key.length then sha384 key else key
  let k := k ++ List.replicate (128 - k.length) 0#8
  sha384 (k.map (fun b => b ^^^ 0x5C#8) ++ sha384 (k.map (fun b => b ^^^ 0x36#8) ++ m))

/-- HKDF-SHA-384, extract then one block of expand, cut to 32 bytes (R466). -/
def hkdf384 (salt ikm info : List Byte) : List Byte :=
  (hmac384 (hmac384 salt ikm) (info ++ [1#8])).take 32

/-! ## AES-256-GCM (R467) -/

/-- Product in GF(2^8) modulo x^8 + x^4 + x^3 + x + 1. -/
def gfMul8 (a b : Nat) : Nat :=
  ((List.range 8).foldl (fun (r : Nat × Nat) i =>
    (if bit b i then r.1 ^^^ r.2 else r.1, if 128 ≤ r.2 then (2 * r.2) ^^^ 0x11B else 2 * r.2)) (0, a)).1

/-- The inverse in GF(2^8), zero for zero: the 254th power. -/
def gfInv8 (a : Nat) : Nat :=
  ((List.range 7).foldl (fun (r : Nat × Nat) _ =>
    let q := gfMul8 r.1 r.1
    (q, gfMul8 r.2 q)) (a, 1)).2

/-- The AES S-box. -/
def aesSub (a : Nat) : Nat :=
  let x := gfInv8 (a % 256)
  let rot (n : Nat) : Nat := (x <<< n + x >>> (8 - n)) % 256
  x ^^^ rot 1 ^^^ rot 2 ^^^ rot 3 ^^^ rot 4 ^^^ 0x63

/-- The 256 S-box values, in order. -/
def aesBox : List Nat := (List.range 256).map aesSub

/-- The 240 key-schedule bytes of AES-256: `n` more words of 4 bytes after `i` ones. -/
def aesKeyGo (box : List Nat) : Nat → Nat → List Nat → Nat → List Nat
  | 0, _, ks, _ => ks
  | n + 1, i, ks, rc =>
    let prev := ks.drop (4 * (i - 1))
    let old := (ks.drop (4 * (i - 8))).take 4
    let sub (l : List Nat) : List Nat := l.map (fun b => box.getD b 0)
    let t := if i % 8 = 0 then
        match sub prev with
        | [a, b, c, d] => [b ^^^ rc, c, d, a]
        | l => l
      else if i % 8 = 4 then sub prev else prev
    aesKeyGo box n (i + 1) (ks ++ List.zipWith (· ^^^ ·) old t) (if i % 8 = 0 then gfMul8 rc 2 else rc)

def aesKey (box : List Nat) (key : List Byte) : List Nat := aesKeyGo box 52 8 (key.map (fun b => b.toNat)) 1

/-- One column through MixColumns. -/
def aesMix : List Nat → List Nat
  | [a, b, c, d] =>
    [gfMul8 a 2 ^^^ gfMul8 b 3 ^^^ c ^^^ d, a ^^^ gfMul8 b 2 ^^^ gfMul8 c 3 ^^^ d,
     a ^^^ b ^^^ gfMul8 c 2 ^^^ gfMul8 d 3, gfMul8 a 3 ^^^ b ^^^ c ^^^ gfMul8 d 2]
  | l => l

/-- Rounds from `r` on; the last does not mix. -/
def aesRounds (box ks : List Nat) : Nat → Nat → List Nat → List Nat
  | 0, _, st => st
  | n + 1, r, st =>
    let sb := st.map (fun b => box.getD b 0)
    let sh := (List.range 16).map (fun i => sb.getD ((i + 4 * (i % 4)) % 16) 0)
    let mx := if n = 0 then sh else (List.range 4).flatMap (fun c => aesMix ((sh.drop (4 * c)).take 4))
    aesRounds box ks n (r + 1) (List.zipWith (· ^^^ ·) mx ((ks.drop (16 * r)).take 16))

/-- AES-256 of one 16-byte block. -/
def aesBlock (box ks : List Nat) (b : List Nat) : List Nat :=
  aesRounds box ks 14 1 (List.zipWith (· ^^^ ·) b (ks.take 16))

/-- Product in GF(2^128) as GCM counts bits, on big-endian numbers. -/
def gcmMul (x y : Nat) : Nat :=
  ((List.range 128).foldl (fun (r : Nat × Nat) i =>
    (if bit x (127 - i) then r.1 ^^^ r.2 else r.1,
     if bit r.2 0 then (r.2 / 2) ^^^ (0xE1 * 2 ^ 120) else r.2 / 2)) (0, y)).1

def ofNatsBE (l : List Nat) : Nat := l.foldl (fun a b => 256 * a + b) 0

/-- The key stream of AES-256-GCM from counter block `iv` ‖ 2 on. -/
def gcmStream (key iv : List Byte) (blocks : Nat) : List Nat :=
  let box := aesBox
  let ks := aesKey box key
  let ivn := iv.map (fun b => b.toNat)
  (List.range blocks).flatMap (fun i => aesBlock box ks (ivn ++ (toBytesBE 4 (i + 2)).map (fun b => b.toNat)))

/-- Encrypt or decrypt bytes that start at byte `from_` of the text. -/
def gcmCrypt (key iv : List Byte) (from_ : Nat) (bs : List Byte) : List Byte :=
  let ks := (gcmStream key iv ((from_ + bs.length + 15) / 16)).drop from_
  List.zipWith (fun b k => b ^^^ BitVec.ofNat 8 k) bs ks

/-- The GCM tag of a ciphertext without associated data. -/
def gcmTag (key iv ct : List Byte) : List Byte :=
  let box := aesBox
  let ks := aesKey box key
  let h := ofNatsBE (aesBlock box ks (List.replicate 16 0))
  let n := (ct.length + 15) / 16
  let g := (List.range n).foldl (fun y i =>
    let b := (ct.drop (16 * i)).take 16
    gcmMul (y ^^^ (ofBytesBE b <<< (8 * (16 - b.length)))) h) 0
  let g := gcmMul (g ^^^ (8 * ct.length)) h
  let e := ofNatsBE (aesBlock box ks (iv.map (fun b => b.toNat) ++ [0, 0, 0, 1]))
  toBytesBE 16 (g ^^^ e)

/-! ## Philox-4x32-10 -/

/-- One round on counter words and key words. -/
def philoxRound (c0 c1 c2 c3 k0 k1 : Nat) : Nat × Nat × Nat × Nat :=
  let p0 := 0xD2511F53 * c0
  let p1 := 0xCD9E8D57 * c2
  ((p1 / 2 ^ 32) ^^^ c1 ^^^ k0, p1 % 2 ^ 32, (p0 / 2 ^ 32) ^^^ c3 ^^^ k1, p0 % 2 ^ 32)

/-- `n` rounds, the key raised after each. -/
def philoxGo : Nat → Nat × Nat × Nat × Nat → Nat → Nat → Nat × Nat × Nat × Nat
  | 0, c, _, _ => c
  | n + 1, (c0, c1, c2, c3), k0, k1 =>
    philoxGo n (philoxRound c0 c1 c2 c3 k0 k1) ((k0 + 0x9E3779B9) % 2 ^ 32) ((k1 + 0xBB67AE85) % 2 ^ 32)

/-- Ten rounds. -/
def philox (c : Nat × Nat × Nat × Nat) (k0 k1 : Nat) : Nat × Nat × Nat × Nat := philoxGo 10 c k0 k1

end Sys2Proof.Machine
end

