-- ==== Sys2Proof/Config.lean ====
section
/-!
DEFINITION. What an implementation fixes or the spec leaves open. Every constant here is a free value: it has no
body, so no proof can see what it is and every claim holds whatever it is (log entries 10 to 14, 60, 61, 80, 114, 173 and 175).
-/

namespace Sys2Proof.Config

/-- A transcendental result of VTRAN, GATE, attention or the forager where R183 lists no exact value: function code
`fn` of R144 applied to the FP32 code `x`. R106 bounds it but does not give its bits: the number chooses one of the
values within the bound (log entry 10). -/
opaque transcendental (fn : Nat) (x : Word32) : Word32

/-- A fresh random number, drawn where the spec says that one is drawn and gives no generator: a debug nonce
(R472), an SPDM nonce or random field (R463). Applied to a counter that State holds (log entry 11). -/
opaque random (counter : Nat) : BitVec 512

/-- A value that the spec calls undefined after an operation that goes on. Applied to the state's counter of such
values (log entry 12). -/
opaque undefinedValue (counter : Nat) : Word64

/-- What a comb row or scale chunk holds after a write command that failed its read-back twice (R74): the spec says
only that it differs from the data (log entry 12). -/
opaque undefinedRow (counter : Nat) : BitVec 512

/-- The bytes that the spec names but does not give: firmware image bytes, certificate chains, SPDM transcript and
key material. `kind` says which one, `i` is the byte's index (log entry 13). -/
opaque givenByte (kind i : Nat) : Byte

/-- The check byte of the SECDED code over a word of a mesh flit (R194): the spec names the code and gives no matrix (log
entry 173). -/
opaque secded (word : Nat) : Byte

/-- Flits of receive buffer that a die link has for a VC beyond what a link needs to run at its full rate (R343, R369; log
entry 114). -/
opaque linkRoom (vc : Nat) : Nat

/-- The same in units for a VC and VL of a port, keyed 4 × VL + VC (R357, R359, R369; log entry 114). -/
opaque portRoom (key : Nat) : Nat

/-- Symbol `i` of the alignment codeword of a port, whose fixed pattern the spec does not give (R358; log entry 175). -/
opaque alignment (i : Nat) : BitVec 10

/-- A tie between requesters that the spec leaves to the hardware (log entry 14). -/
opaque tie (counter : Nat) : Bool

/-- The log-probability of a GREEDY token, which R288 does not compute: a function of the logits of the kept candidates, in rank
order, and of the position (log entry 60). -/
opaque greedyLogProb (logits : List Nat) (t : Nat) : Word32

/-- What an injection needs and the spec does not place anywhere: 0 the BASE of the embedding table in DATA, 1 the bytes
of a row, 2 and 3 the group and die that receive the rows, 4 and 5 those that receive the descriptor (log entry 61). -/
opaque injection (field : Nat) : Nat

/-- Which dword of configuration space, from 64 on, the PCI Express Capability begins at, modulo 32 (log entry 80). -/
opaque pcieCap : Nat

end Sys2Proof.Config
end

