-- ==== Sys2Proof/Machine/Flags.lean ====
section
/-!
DEFINITION. Float formats, rounding and the five IEEE flags (02 R42 to R44, chapter 06 R169 to R184, R633), and the
block quantizer (02 R33). Every value is held exactly, as an integer times a power of two, and is rounded once.
-/

namespace Sys2Proof.Machine

/-- The element formats of R128. -/
inductive Fmt where
  | fp32 | bf16 | fp16 | e4m3 | e5m2 | int32 | int16 | int8
  deriving DecidableEq, Repr

/-- The format of a code of R128; codes 8 to 14 are reserved. -/
def Fmt.ofCode : Nat → Option Fmt
  | 0 => some .fp32 | 1 => some .bf16 | 2 => some .fp16 | 3 => some .e4m3 | 4 => some .e5m2
  | 5 => some .int32 | 6 => some .int16 | 7 => some .int8 | _ => none

/-- Element width in bytes (R103). -/
def Fmt.bytes : Fmt → Nat
  | .fp32 | .int32 => 4
  | .bf16 | .fp16 | .int16 => 2
  | .e4m3 | .e5m2 | .int8 => 1

/-- Element width in bits. -/
def Fmt.width (f : Fmt) : Nat := 8 * f.bytes

/-- Elements of this format in one 256-byte register (R103). -/
def Fmt.count (f : Fmt) : Nat := 256 / f.bytes

/-- Whether the format is a float (R42). -/
def Fmt.isFloat : Fmt → Bool
  | .fp32 | .bf16 | .fp16 | .e4m3 | .e5m2 => true
  | .int32 | .int16 | .int8 => false

/-- Exponent bits of a float format (R42). -/
def Fmt.ebits : Fmt → Nat
  | .fp32 | .bf16 => 8 | .fp16 | .e5m2 => 5 | .e4m3 => 4 | _ => 0

/-- Mantissa bits of a float format (R42). -/
def Fmt.mbits : Fmt → Nat
  | .fp32 => 23 | .bf16 => 7 | .fp16 => 10 | .e5m2 => 2 | .e4m3 => 3 | _ => 0

/-- Exponent bias (R42). -/
def Fmt.bias (f : Fmt) : Nat := 2 ^ (f.ebits - 1) - 1

/-- Exponent of the smallest normal value (R42). -/
def Fmt.emin (f : Fmt) : Int := 1 - (f.bias : Int)

/-- Exponent of the unit in the last place of the subnormal grid. -/
def Fmt.quantum (f : Fmt) : Int := f.emin - f.mbits

/-- The largest finite code, sign clear (R42). -/
def Fmt.maxCode : Fmt → Nat
  | .fp32 => 0x7F7FFFFF | .bf16 => 0x7F7F | .fp16 => 0x7BFF | .e5m2 => 0x7B | .e4m3 => 0x7E
  | .int32 => 0x7FFFFFFF | .int16 => 0x7FFF | .int8 => 0x7F

/-- The canonical NaN (R43). -/
def Fmt.nan : Fmt → Nat
  | .fp32 => 0x7FC00000 | .bf16 => 0x7FC0 | .fp16 => 0x7E00 | .e5m2 => 0x7E | .e4m3 => 0x7F | _ => 0

/-- The code of an infinity, sign clear; E4M3 has none (R42). -/
def Fmt.inf : Fmt → Nat
  | .fp32 => 0x7F800000 | .bf16 => 0x7F80 | .fp16 => 0x7C00 | .e5m2 => 0x7C | f => f.nan

/-- The sign bit set or clear. -/
def Fmt.signed (f : Fmt) (neg : Bool) (mag : Nat) : Nat := if neg then mag + 2 ^ (f.width - 1) else mag

/-- The five flags of R174. -/
structure FFlags where
  nv : Bool := false
  dz : Bool := false
  of : Bool := false
  uf : Bool := false
  nx : Bool := false
  deriving DecidableEq, Repr

/-- Flags accumulate by OR (R187). -/
def FFlags.or (a b : FFlags) : FFlags :=
  ⟨a.nv || b.nv, a.dz || b.dz, a.of || b.of, a.uf || b.uf, a.nx || b.nx⟩

/-- Bits [4:0] of CORE_FFLAGS (R189). -/
def FFlags.toNat (a : FFlags) : Nat := 16 * b2n a.nv + 8 * b2n a.dz + 4 * b2n a.of + 2 * b2n a.uf + b2n a.nx

def FFlags.none : FFlags := {}
def FFlags.invalid : FFlags := { nv := true }
def FFlags.divZero : FFlags := { dz := true }
def FFlags.inexact : FFlags := { nx := true }
def FFlags.overflow : FFlags := { of := true, nx := true }
def FFlags.underflow : FFlags := { uf := true, nx := true }

/-- Rounding mode, flush bit and saturate bit of R44. -/
structure FMode where
  rm : Nat := 0
  fl : Bool := false
  sat : Bool := false
  deriving DecidableEq, Repr

/-- Round to nearest, ties to even, flush clear: the mode of attention (R186) and of the gate (R115). -/
def FMode.rne : FMode := {}

/-- The value of a float code: `fin neg m e` is (−1)^neg × m × 2^e. -/
inductive FVal where
  | nan
  | inf (neg : Bool)
  | fin (neg : Bool) (m : Nat) (e : Int)
  deriving DecidableEq, Repr

/-- The value of a float code, a subnormal read as zero when the flush bit is set (R42, R172). -/
def FVal.decode (f : Fmt) (fl : Bool) (code : Nat) : FVal :=
  let neg := bit code (f.width - 1)
  let ex := (code >>> f.mbits) % 2 ^ f.ebits
  let man := code % 2 ^ f.mbits
  let ones := 2 ^ f.ebits - 1
  if f = .e4m3 then
    if ex = ones ∧ man = 7 then .nan
    else if ex = 0 then .fin neg (if fl then 0 else man) f.quantum
    else .fin neg (man + 2 ^ f.mbits) (f.quantum + ((ex - 1 : Nat) : Int))
  else if ex = ones then (if man = 0 then .inf neg else .nan)
  else if ex = 0 then .fin neg (if fl then 0 else man) f.quantum
  else .fin neg (man + 2 ^ f.mbits) (f.quantum + ((ex - 1 : Nat) : Int))

/-- The sign of a value. -/
def FVal.neg : FVal → Bool
  | .nan => false
  | .inf n => n
  | .fin n _ _ => n

/-- Whether a value is NaN. -/
def FVal.isNan : FVal → Bool
  | .nan => true
  | _ => false

/-- Number of bits of a non-zero magnitude. -/
def bitLen (m : Nat) : Nat := if m = 0 then 0 else Nat.log2 m + 1

/-- `m / 2^sh` rounded to an integer by mode `rm` for a value of sign `neg`, and whether anything was lost. -/
def roundShift (rm : Nat) (neg : Bool) (m sh : Nat) : Nat × Bool :=
  let q := m >>> sh
  let r := m % 2 ^ sh
  if r = 0 then (q, false)
  else
    let up := match rm with
      | 0 => decide (2 ^ sh < 2 * r) || (decide (2 * r = 2 ^ sh) && decide (q % 2 = 1))
      | 1 => false
      | 2 => neg
      | _ => !neg
    (if up then q + 1 else q, true)

/-- The same for `m × 2^d` with a shift of either sign. -/
def roundScale (rm : Nat) (neg : Bool) (m : Nat) (d : Int) : Nat × Bool :=
  if 0 ≤ d then (m <<< d.toNat, false) else roundShift rm neg m (-d).toNat

/-- What an overflowing result is written as (R170, R178). -/
def overflowCode (f : Fmt) (md : FMode) (neg : Bool) : Nat :=
  if md.sat && (f = .e4m3 || f = .e5m2) then f.signed neg f.maxCode
  else
    let toInf := match md.rm with
      | 0 => true
      | 1 => false
      | 2 => neg
      | _ => !neg
    if toInf then (if f = .e4m3 then f.nan else f.signed neg f.inf) else f.signed neg f.maxCode

/-- Round the exact value (−1)^neg × m × 2^e into format `f` (R44, R170, R171). A zero keeps the sign given. -/
def roundTo (f : Fmt) (md : FMode) (neg : Bool) (m : Nat) (e : Int) : Nat × FFlags :=
  if m = 0 then (f.signed neg 0, .none)
  else
    let p := f.mbits + 1
    let drop := bitLen m - p
    let (q, lost) := roundShift md.rm neg m drop
    let e1 : Int := e + drop
    -- the value rounded with an unbounded exponent is q × 2^e1
    let top : Int := e1 + (bitLen q : Int) - 1
    if top < f.emin then
      -- tiny after rounding (R171)
      if md.fl then (f.signed neg 0, .underflow)
      else
        let (s, lostSub) := roundScale md.rm neg m (e - f.quantum)
        (f.signed neg s, if lostSub then .underflow else .none)
    else
      -- align q to a p-bit significand: q has at most p bits, or is 2^p
      let sig := if bitLen q ≤ p then q <<< (p - bitLen q) else q >>> 1
      let code := (top + (f.bias : Int)).toNat * 2 ^ f.mbits + (sig - 2 ^ f.mbits)
      if f.maxCode < code then (overflowCode f md neg, .overflow)
      else (f.signed neg code, if lost then .inexact else .none)

/-- The sum of two values, exactly, as a value; an exact zero takes its sign from R173, an infinity minus an infinity
is invalid (R175). -/
def FVal.add (rm : Nat) : FVal → FVal → FVal × FFlags
  | .nan, _ => (.nan, .none)
  | _, .nan => (.nan, .none)
  | .inf a, .inf b => if a = b then (.inf a, .none) else (.nan, .invalid)
  | .inf a, .fin _ _ _ => (.inf a, .none)
  | .fin _ _ _, .inf b => (.inf b, .none)
  | .fin na ma ea, .fin nb mb eb =>
    let e := min ea eb
    let a : Int := (ma <<< (ea - e).toNat : Nat)
    let b : Int := (mb <<< (eb - e).toNat : Nat)
    let s := (if na then -a else a) + (if nb then -b else b)
    if s = 0 then (.fin (if na = nb then na else decide (rm = 2)) 0 e, .none)
    else (.fin (decide (s < 0)) s.natAbs e, .none)

/-- The exact product of two values; zero times infinity is invalid (R175). -/
def FVal.mul : FVal → FVal → FVal × FFlags
  | .nan, _ => (.nan, .none)
  | _, .nan => (.nan, .none)
  | .inf a, .inf b => (.inf (a != b), .none)
  | .inf a, .fin b m _ => if m = 0 then (.nan, .invalid) else (.inf (a != b), .none)
  | .fin a m _, .inf b => if m = 0 then (.nan, .invalid) else (.inf (a != b), .none)
  | .fin a ma ea, .fin b mb eb => (.fin (a != b) (ma * mb) (ea + eb), .none)

/-- The opposite value. -/
def FVal.negate : FVal → FVal
  | .nan => .nan
  | .inf a => .inf (!a)
  | .fin a m e => .fin (!a) m e

/-- Write a value in format `f`, rounding once (R43, R170, R171). -/
def FVal.encode (f : Fmt) (md : FMode) : FVal → Nat × FFlags
  | .nan => (f.nan, .none)
  | .inf n =>
    if f = .e4m3 then (if md.sat then f.signed n f.maxCode else f.nan, .invalid)
    else (f.signed n f.inf, .none)
  | .fin n m e => roundTo f md n m e

/-- Join the flags of an exact step and of the rounding after it. -/
def roundOp (f : Fmt) (md : FMode) (r : FVal × FFlags) : Nat × FFlags :=
  let w := r.1.encode f md
  (w.1, r.2.or w.2)

/-- Float addition (R175). -/
def fAdd (f : Fmt) (md : FMode) (a b : FVal) : Nat × FFlags := roundOp f md (a.add md.rm b)
/-- Float subtraction (R175). -/
def fSub (f : Fmt) (md : FMode) (a b : FVal) : Nat × FFlags := roundOp f md (a.add md.rm b.negate)
/-- Float multiplication (R175). -/
def fMul (f : Fmt) (md : FMode) (a b : FVal) : Nat × FFlags := roundOp f md (a.mul b)
/-- Fused multiply-add with one rounding (R175): zero times infinity is invalid whatever the addend. -/
def fFma (f : Fmt) (md : FMode) (a b c : FVal) : Nat × FFlags :=
  let p := a.mul b
  let s := p.1.add md.rm c
  roundOp f md (s.1, p.2.or s.2)

/-- Correctly rounded FP32 division (R183). -/
def fDiv (md : FMode) (a b : FVal) : Nat × FFlags :=
  match a, b with
  | .nan, _ => (Fmt.nan .fp32, .none)
  | _, .nan => (Fmt.nan .fp32, .none)
  | .inf _, .inf _ => (Fmt.nan .fp32, .invalid)
  | .inf x, .fin y _ _ => (Fmt.signed .fp32 (x != y) (Fmt.inf .fp32), .none)
  | .fin x _ _, .inf y => (Fmt.signed .fp32 (x != y) 0, .none)
  | .fin x ma ea, .fin y mb eb =>
    if mb = 0 then
      if ma = 0 then (Fmt.nan .fp32, .invalid)
      else (Fmt.signed .fp32 (x != y) (Fmt.inf .fp32), .divZero)
    else if ma = 0 then (Fmt.signed .fp32 (x != y) 0, .none)
    else
      -- 64 extra bits: the quotient keeps at least 40, with the remainder jammed into its lowest bit
      let q := (ma <<< 64) / mb
      let jam := if (ma <<< 64) % mb = 0 then 0 else 1
      roundTo .fp32 md (x != y) (2 * q + jam) (ea - eb - 65)

/-- The integer square root by bits, `fuel` bits of result. -/
def isqrtGo : Nat → Nat → Nat → Nat
  | 0, _, r => r
  | k + 1, n, r => let c := r + 2 ^ k; if c * c ≤ n then isqrtGo k n c else isqrtGo k n r

/-- The integer square root of a number below 2^256. -/
def isqrt (n : Nat) : Nat := isqrtGo 128 n 0

/-- Correctly rounded FP32 square root (R183). -/
def fSqrt (md : FMode) : FVal → Nat × FFlags
  | .nan => (Fmt.nan .fp32, .none)
  | .inf n => if n then (Fmt.nan .fp32, .invalid) else (Fmt.inf .fp32, .none)
  | .fin n m e =>
    if m = 0 then (Fmt.signed .fp32 n 0, .none)
    else if n then (Fmt.nan .fp32, .invalid)
    else
      let e' := if e % 2 = 0 then e else e - 1
      let m' := (if e % 2 = 0 then m else 2 * m) <<< 80
      let q := isqrt m'
      let jam := if q * q = m' then 0 else 1
      roundTo .fp32 md false (2 * q + jam) (e' / 2 - 41)

/-- Order of two values that are not NaN, −0 below +0 when `zeros` (R176): a key that compares as the values do. -/
def FVal.lt (zeros : Bool) : FVal → FVal → Bool
  | .nan, _ => false
  | _, .nan => false
  | .inf a, .inf b => a && !b
  | .inf a, .fin _ _ _ => a
  | .fin _ _ _, .inf b => !b
  | .fin na ma ea, .fin nb mb eb =>
    let e := min ea eb
    let a : Int := (ma <<< (ea - e).toNat : Nat)
    let b : Int := (mb <<< (eb - e).toNat : Nat)
    let x := if na then -a else a
    let y := if nb then -b else b
    decide (x < y) || (zeros && decide (x = y) && decide (x = 0) && na && !nb)

/-- Equality of two values that are not NaN; −0 equals +0 (R135). -/
def FVal.eq (a b : FVal) : Bool := !a.isNan && !b.isNan && !a.lt false b && !b.lt false a

/-- The smaller or larger of two operands; NaN when either is (R176). The written value is the flushed input. -/
def fMinMax (f : Fmt) (md : FMode) (isMax : Bool) (a b : Nat) : Nat :=
  let va := FVal.decode f md.fl a
  let vb := FVal.decode f md.fl b
  if va.isNan || vb.isNan then f.nan
  else
    let pickB := if isMax then va.lt true vb else vb.lt true va
    ((if pickB then vb else va).encode f {}).1

/-- A float compare by condition code of R135, with NV for an ordered compare that meets a NaN (R176). -/
def fCompare (cc : Nat) (a b : FVal) : Bool × FFlags :=
  let nan := a.isNan || b.isNan
  match cc with
  | 0 => (a.eq b, .none)
  | 1 => (!a.eq b, .none)
  | 2 => (a.lt false b, if nan then .invalid else .none)
  | _ => (!nan && !a.lt false b, if nan then .invalid else .none)

/-- An integer compare by condition code of R135 on `w`-bit codes. -/
def iCompare (w cc a b : Nat) : Bool :=
  match cc with
  | 0 => decide (a % 2 ^ w = b % 2 ^ w)
  | 1 => decide (a % 2 ^ w ≠ b % 2 ^ w)
  | 2 => decide (signed w a < signed w b)
  | 3 => decide (signed w b ≤ signed w a)
  | 4 => decide (a % 2 ^ w < b % 2 ^ w)
  | _ => decide (b % 2 ^ w ≤ a % 2 ^ w)

/-- The range of an integer destination (R180): INT8 is symmetric. -/
def Fmt.intRange : Fmt → Int × Int
  | .int8 => (-127, 127)
  | .int16 => (-32768, 32767)
  | _ => (-2147483648, 2147483647)

/-- Saturate an integer into a destination (R180, R633); NV when it lay outside. -/
def satInt (f : Fmt) (v : Int) : Nat × Bool :=
  let (lo, hi) := f.intRange
  if v < lo then (unsigned f.width lo, true)
  else if hi < v then (unsigned f.width hi, true)
  else (unsigned f.width v, false)

/-- Convert one element from `src` to `dst` (R177 to R181, R633). -/
def fConvert (dst src : Fmt) (md : FMode) (code : Nat) : Nat × FFlags :=
  if src.isFloat then
    let v := FVal.decode src md.fl code
    if dst.isFloat then v.encode dst md
    else
      match v with
      | .nan => (0, .invalid)
      | .inf n => ((satInt dst (if n then -(2 ^ 40 : Nat) else (2 ^ 40 : Nat))).1, .invalid)
      | .fin n m e =>
        let (q, lost) := roundScale md.rm n m e
        let r := satInt dst (if n then -(q : Int) else q)
        (r.1, if r.2 then .invalid else if lost then .inexact else .none)
  else
    let v := Machine.signed src.width code
    if dst.isFloat then roundTo dst md (decide (v < 0)) v.natAbs 0
    else
      let r := satInt dst v
      (r.1, if r.2 then .invalid else .none)

/-- One sum word under its header, to FP32 (R41, R182). -/
def sumToFp32 (md : FMode) (poison : Bool) (ev : Nat) (sw : Nat) : Nat × FFlags :=
  if poison then (Fmt.nan .fp32, .none)
  else
    let v := Machine.signed 48 sw
    if v = 0 then (0, .none) else roundTo .fp32 md (decide (v < 0)) v.natAbs ((ev : Int) - 512)

/-- Align an exact integer `c × 2^s` to a partial, clamped for headroom `g` (R38): the partial and CLAMP. -/
def alignPartial (c : Int) (s : Int) (g : Nat) : Int × Bool :=
  let (q, _) := roundScale 0 (decide (c < 0)) c.natAbs s
  let lim := 2 ^ (47 - g) - 1
  let m := if lim < q then lim else q
  (if c < 0 then -(m : Int) else m, decide (lim < q))

/-- One FP32 value, read under the flush bit (R172), as a partial (R40): the partial, POISON, CLAMP. -/
def fp32ToPartial (fl : Bool) (code : Nat) (ev g : Nat) : Int × Bool × Bool :=
  match FVal.decode .fp32 fl code with
  | .fin n m e =>
    let r := alignPartial (if n then -(m : Int) else m) (e - ((ev : Int) - 512)) g
    (r.1, false, r.2)
  | _ => (0, true, false)

/-- What one block conversion gives (R33). -/
structure Block where
  e : Nat
  q : List Int
  poison : Bool := false
  expLow : Bool := false
  expHigh : Bool := false
  deriving DecidableEq, Repr

/-- Magnitude of a finite value as `m × 2^-149`, so that magnitudes of one block compare as integers. -/
def FVal.scaled149 : FVal → Nat
  | .fin _ m e => m <<< (e + 149).toNat
  | _ => 0

/-- The block conversion of R33, on FP32 codes: `k` and `qmax` are 6 and 127, or 2 and 7 for KV4. -/
def quantBlock (k qmax : Nat) (us : List Nat) : Block :=
  let vs := us.map (FVal.decode .fp32 false)
  if vs.any (fun v => match v with | .fin _ _ _ => false | _ => true) then
    { e := 0xFF, q := us.map (fun _ => 0), poison := true }
  else
    let m := vs.foldl (fun a v => max a v.scaled149) 0
    if m = 0 then { e := 0, q := us.map (fun _ => 0) }
    else
      -- the largest magnitude is m × 2^-149
      let t0 : Int := (Nat.log2 m : Int) - 149 - k
      -- m / 2^t0 ≥ qmax + 0.5, compared exactly
      let up := decide (((2 * qmax + 1 : Nat) : Int) * ((2 ^ (t0 + 149).toNat : Nat) : Int) ≤ 2 * (m : Int) * ((2 ^ (-(t0 + 149)).toNat : Nat) : Int))
      let t1 := if up then t0 + 1 else t0
      let low := decide (t1 < -127)
      let high := decide (127 < t1)
      let t := if low then -127 else if high then 127 else t1
      let one (v : FVal) : Int :=
        match v with
        | .fin n mm e =>
          let (a, _) := roundScale 0 n mm (e - t)
          let c := min a qmax
          if n then -(c : Int) else c
        | _ => 0
      { e := (t + 127).toNat, q := vs.map one, expLow := low, expHigh := high }

end Sys2Proof.Machine
end

