-- ==== Sys2Proof/Machine/Tab.lean ====
section
/-!
DEFINITION. Sparse tables in one canonical form: the keys strictly rise and no entry holds what an
unlisted key reads as. Every array of the machine (engines, cores, register file, memory bytes) is such a table,
so that equal contents are equal data.
-/

namespace Sys2Proof.Machine

/-- A sparse table: the listed keys with their values, keys strictly rising. -/
abbrev Tab (α : Type) := List (Nat × α)

/-- The value at key `k`; `d` is what an unlisted key reads as. -/
def Tab.get {α : Type} (d : α) : Tab α → Nat → α
  | [], _ => d
  | (j, v) :: t, k => if j = k then v else Tab.get d t k

/-- Remove key `k`. -/
def Tab.erase {α : Type} : Tab α → Nat → Tab α
  | [], _ => []
  | (j, v) :: t, k => if j = k then Tab.erase t k else (j, v) :: Tab.erase t k

/-- Put `v` at key `k`, in its place in the order. -/
def Tab.insert {α : Type} : Tab α → Nat → α → Tab α
  | [], k, v => [(k, v)]
  | (j, w) :: t, k, v =>
    if k < j then (k, v) :: (j, w) :: t
    else if k = j then (k, v) :: t
    else (j, w) :: Tab.insert t k v

/-- Write `v` at key `k`; writing what an unlisted key reads as removes the entry. -/
def Tab.set {α : Type} [DecidableEq α] (d : α) (t : Tab α) (k : Nat) (v : α) : Tab α :=
  if v = d then Tab.erase t k else Tab.insert t k v

/-- Update the value at key `k`. -/
def Tab.upd {α : Type} [DecidableEq α] (d : α) (t : Tab α) (k : Nat) (f : α → α) : Tab α :=
  Tab.set d t k (f (Tab.get d t k))

/-- The keys rise strictly, each above `lo`. -/
def Tab.rising {α : Type} : Nat → Tab α → Bool
  | _, [] => true
  | lo, (k, _) :: t => decide (lo ≤ k) && Tab.rising (k + 1) t

/-- The canonical form: keys strictly rise and no entry holds its default. -/
def Tab.wf {α : Type} [DecidableEq α] (d : Nat → α) (t : Tab α) : Bool :=
  Tab.rising 0 t && t.all (fun p => decide (p.2 ≠ d p.1))

/-- Map every listed value, dropping those that become what an unlisted key reads as. -/
def Tab.mapAll {α : Type} [DecidableEq α] (d : α) (f : Nat → α → α) : Tab α → Tab α
  | [] => []
  | (k, v) :: t => if f k v = d then Tab.mapAll d f t else (k, f k v) :: Tab.mapAll d f t

/-- Keep only the listed keys that `p` allows. -/
def Tab.keep {α : Type} (p : Nat → Bool) (t : Tab α) : Tab α := t.filter (fun e => p e.1)

/-- Two tables as one, in at most `n` steps; where both list a key, the second counts. -/
def Tab.merge {α : Type} : Nat → Tab α → Tab α → Tab α
  | 0, t, _ => t
  | _ + 1, [], u => u
  | _ + 1, t, [] => t
  | n + 1, (j, v) :: t, (k, w) :: u =>
    if j < k then (j, v) :: Tab.merge n t ((k, w) :: u)
    else if k < j then (k, w) :: Tab.merge n ((j, v) :: t) u
    else (k, w) :: Tab.merge n t u

end Sys2Proof.Machine
end

