-- ==== Sys2Proof/Machine/Parts.lean ====
section
/-!
DEFINITION. The state of the package fabric, the die links, the inter-package ports and the memory dies (chapters 08
and 11), as plain data.
-/

namespace Sys2Proof.Machine

/-- A fabric message: its header fields and its data (R344). -/
structure Msg where
  type : Nat := 0
  poison : Bool := false
  /-- View P (R9). -/
  priv : Bool := false
  vl : Nat := 0
  status : Nat := 0
  gen : Nat := 0
  tag : Nat := 0
  hops : Nat := 0
  dpkg : Nat := 0
  ddie : Nat := 0
  sdie : Nat := 0
  unit : Nat := 0
  spkg : Nat := 0
  ctx : Nat := 0
  len : Nat := 0
  emax : Nat := 0
  addr : Nat := 0
  group : Nat := 0
  amt : Nat := 0
  ctr : Nat := 0
  data : List Byte := []
  /-- Ended by an ABORT, or cut off by a link that went DOWN (R351, R368). -/
  aborted : Bool := false
  /-- Where it entered this die: link index 0 to 5, 8 the die's own sources, 16 + p port p. -/
  inp : Nat := 8
  /-- Which core's send it is: 1 + the source of its flits; 0 for any other (R573). -/
  src : Nat := 0
  /-- The request slot of the step that sends it, 16,384 while it is not known (R568), and whether the send has waited
  for room in the retention store (R586): neither is part of the header. -/
  slot : Nat := 16384
  held : Bool := false
  /-- A retained copy whose stored codewords hold an error: 1 correctable, 2 not, 3 not even its slot (R581). -/
  storeErr : Nat := 0
  deriving DecidableEq, Repr

/-- A message queued at an output: its stream (8: none yet) and the flits already sent (R346). -/
structure TxMsg where
  msg : Msg
  stream : Nat := 8
  sent : Nat := 0
  deriving DecidableEq, Repr

/-- An output's arbiter (R369): what waits, the VC whose turn comes next, and by VC the input in service and how many
consecutive flits it has sent. `turn` is the place from which the members of an input that several links form are visited,
keyed 64 × VC + input; `since` is the hclk time at which a VC last moved or began to wait (R367). -/
structure Tx where
  q : List TxMsg := []
  vc : Nat := 1
  inp : Tab Nat := []
  run : Tab Nat := []
  turn : Tab Nat := []
  since : Tab Nat := []
  deriving DecidableEq, Repr

/-- A fabric flit with the fields of its tag but the CRC (R339). -/
structure LFlit where
  vc : Nat
  kind : Nat
  stream : Nat
  vl : Nat := 0
  data : BitVec 512
  deriving DecidableEq, Repr

/-- A control flit of a die link (R339). -/
inductive Ctl where
  | ack (seq : Nat)
  | nak (seq : Nat)
  /-- A credit return of a VC. -/
  | credit (vc : Nat)
  | abort (stream : Nat)
  deriving DecidableEq, Repr

/-- One end of a die link: what it sends and what it receives (R339, R340, R346). -/
structure LinkEnd where
  tx : Tx := {}
  /-- Flits not yet acknowledged, oldest first, with their SEQ, at most 384. -/
  replay : List (Nat × LFlit) := []
  /-- How many of them have been sent since the last NAK. -/
  next : Nat := 0
  txSeq : Nat := 0
  rxSeq : Nat := 0
  /-- Accepted flits not yet acknowledged. -/
  unacked : Nat := 0
  /-- Control flits that wait, ahead of any other flit. -/
  ctl : List Ctl := []
  /-- The last SEQ NAKed by the partner and how often in a row. -/
  nakSeq : Nat := 0
  naks : Nat := 0
  /-- Messages whose last flit has left and is not acknowledged, with its SEQ. -/
  flying : List (Nat × TxMsg) := []
  /-- Messages being received, keyed 8 × VC + STREAM. -/
  parts : Tab Msg := []
  /-- Credits (R339, R369), counted by VC since the link came up: flits sent, how many of them the partner has returned
  the room of, and received flits whose room is free again. -/
  sent : Tab Nat := []
  back : Tab Nat := []
  freed : Tab Nat := []
  /-- The halves in use, one for each time the link has degraded, the upper one `true`: they stay until a cold reset; and
  whether the training under way halves the width for repeated NAKs (R341). -/
  halves : List Bool := []
  halve : Bool := false
  deriving DecidableEq, Repr

/-- One inter-package port (R357, R359, R362, R466 to R469). -/
structure PortEnd where
  tx : Tx := {}
  /-- Bytes of the unit stream not yet put into a flit. -/
  stream : List Byte := []
  /-- Bytes of a filler unit that run on into the next flit. -/
  carry : Nat := 0
  /-- Sequenced flits not yet acknowledged, oldest first, at most 64: SEQ, bytes 2 to 3 and the 248 stream bytes. -/
  replay : List (Nat × Nat × List Byte) := []
  /-- How many of them have been sent since the last NAK or training. -/
  next : Nat := 0
  /-- What the port has put on its line since a flit last arrived, oldest first. -/
  line : List (BitVec 2048) := []
  /-- The active lanes at the last training, which only EN raises again (R360). -/
  width : Nat := 4
  txSeq : Nat := 0
  rxSeq : Nat := 0
  /-- The SEQ that the flits sent carry as ACK: the last accepted one, or the last released under encryption. -/
  acked : Nat := 127
  /-- The ACK of the last flit sent. -/
  ackSent : Nat := 127
  /-- Messages whose last byte has left, with the SEQ of its flit. -/
  flying : List (Nat × TxMsg) := []
  /-- Received stream bytes that do not yet make a unit. -/
  rest : List Byte := []
  /-- Messages being received, keyed 32 × VL + 8 × VC + STREAM. -/
  parts : Tab Msg := []
  /-- The next flit sent carries NAK. -/
  nakDue : Bool := false
  /-- NAKs sent, and NAKs received, in a row. -/
  naks : Nat := 0
  naksRx : Nat := 0
  /-- Units sent whose credit the peer has not returned, keyed 4 × VL + VC. -/
  used : Tab Nat := []
  /-- Units received whose credit this port has not returned, with the same key. -/
  owed : Tab Nat := []
  /-- Control flits sent since the last ACK: answers of R493 and MAC flits. -/
  ctl : List (BitVec 2048) := []
  /-- Corrected symbols by lane since hclk time `symHc`, at most 1 ms ago (R360). -/
  sym : Tab Nat := []
  symHc : Nat := 0
  /-- Nonces of the last training, sent and received (R466), and the peer's package and port. -/
  nonceTx : BitVec 128 := 0
  nonceRx : BitVec 128 := 0
  peer : Nat := 0
  peerPort : Nat := 0
  /-- Encryption (R467 to R469), in force since the last training: the window being sent, its slot, the nonces in force
  when it began and its ciphertext; its MAC flit, once sent, with its last SEQ; the same for the window received. -/
  sec : Bool := false
  /-- KSTEP has been written and its key change has not happened yet (log entry 44). -/
  keyArmed : Bool := false
  txWin : Nat := 0
  txSlot : Nat := 0
  txNonces : BitVec 256 := 0
  txBytes : List Byte := []
  macs : List (Nat × BitVec 2048) := []
  rxWin : Nat := 0
  rxNonces : BitVec 256 := 0
  rxBytes : List Byte := []
  deriving DecidableEq, Repr

/-- What becomes of the answer of an outstanding request. -/
inductive Use where
  /-- Nothing waits for it. -/
  | quiet
  /-- Its answer is what the last access returned. -/
  | resp
  /-- An MMIO access of `who` to a global address. -/
  | mmio (who : Who) (addr : Nat)
  /-- Register command `id` of pair `q` of function `fn`. -/
  | regCmd (fn q id : Nat)
  /-- One message of a MEM_WRITE or MEM_READ. -/
  | move (fn q id : Nat)
  /-- A TLP of function `fn` through an aperture: its tag and address. -/
  | tlp (fn tag addr : Nat)
  /-- A record of the golden copy of set `set` from memory die `md` (R391). -/
  | copy (md set : Nat)
  /-- A pair of trace records of compute die `cd`, `n` of them filled (R616). -/
  | sink (cd n : Nat)
  /-- A command of the BMC (R601). -/
  | bmc
  deriving DecidableEq, Repr

/-- An outstanding request (R364 to R366). -/
structure Req where
  unit : Nat
  tag : Nat
  gen : Nat
  read : Bool
  remote : Bool
  /-- hclk time at which it was sent. -/
  at_ : Nat
  use : Use
  /-- The bytes that a read asks for. -/
  len : Nat := 0
  deriving DecidableEq, Repr

/-- A vector leaving a die edge (R351): what its MCV will carry. -/
structure EdgeVec where
  rdie : Nat := 0
  rgroup : Nat := 0
  emax : Nat := 0
  len : Nat := 0
  data : List Byte := []
  src : Nat := 0
  opened : Bool := false
  deriving DecidableEq, Repr

/-- An entry of a die's replay log (R569), in order: a landing of a retained message, a credit flit sent, or a message
of its own sent. -/
inductive LogEntry where
  | landing (spkg sdie group slot : Nat) (m : Msg)
  | credit (route amt : Nat)
  | sent (slot : Nat) (m : Msg)
  deriving DecidableEq, Repr

/-- A die's part of the package fabric. -/
structure FabDie where
  /-- Whole messages that have arrived or were made here and are not yet handled, oldest first. -/
  inbox : List Msg := []
  reqs : List Req := []
  /-- Requests that wait for a free tag, with their units and uses, oldest first (R366). -/
  waits : List (Nat × Use × Msg) := []
  /-- Tags in quarantine: unit, tag, and the hclk time of the timeout (R366). -/
  quar : List (Nat × Nat × Nat) := []
  /-- The next generation of a tag, keyed 4,096 × unit + tag (R366). -/
  gens : Tab Nat := []
  edge : Tab EdgeVec := []
  /-- Packages whose traffic uses the alternate port of this link die (R362). -/
  onAlt : List Nat := []
  /-- Retained copies by request slot (R568) and the replay log (R569). -/
  retained : List (Nat × Msg) := []
  log : List LogEntry := []
  /-- The command that this die is sending to a memory die on a group: its slot and the bytes still to come, keyed
  1,024 × (die − 32) + group (R568). -/
  outCmd : Tab (Nat × Nat) := []
  deriving DecidableEq, Repr

/-- The sender of messages into a command window (R239): an MCV is known by its group, a WR by its unit. -/
structure Sender where
  spkg : Nat
  sdie : Nat
  mcv : Bool
  id : Nat
  deriving DecidableEq, Repr

/-- A command that a memory die has taken (R239). -/
structure MdCmd where
  sender : Sender
  bytes : List Byte
  deriving DecidableEq, Repr

/-- A memory die (R239, R243). -/
structure MdSt where
  /-- Commands under assembly. -/
  asm : List MdCmd := []
  /-- Commands taken and not yet performed, oldest first. -/
  cmds : List MdCmd := []
  /-- Allocated page slots: 1 + the request slot, keyed 2^22 × pool + slot, pool 0 KV8, 1 KV4. -/
  pages : Tab Nat := []
  /-- The next patrol burst of each stack (R231). -/
  scrub0 : Nat := 0
  scrub1 : Nat := 0
  deriving DecidableEq, Repr

end Sys2Proof.Machine
end

