-- ==== Sys2Proof/Machine/Platform.lean ====
section
/-!
DEFINITION. The state of residency, clocks, power, housekeeping, reliability, reset, pins, security and trace (chapters
10, 12 and 14 to 20), as plain data.
-/

namespace Sys2Proof.Machine

/-- The quantization-health window on KD0 (R321): counts keyed 4 × layer + event (bit of MON_QHLF), the rounds gone by,
and the thresholds in force (R324: a new value applies from the next window). -/
structure Health where
  win : Tab Nat := []
  rounds : Nat := 0
  thr : Nat := 1000
  deriving DecidableEq, Repr

/-- A record on its way into an engine through a loader window (R385). -/
structure Loader where
  md : Nat
  cd : Nat
  k : Nat
  p : Nat
  /-- The logical engine. -/
  l : Nat
  /-- 0 the fill of a switch, 1 a refill, 2 the refill after a die reset, 3 a write that came in through the logical window, 4
  through the physical one. -/
  why : Nat
  /-- Weight code and the packets of 64 bytes, 136 of a record. -/
  code : Nat
  packets : List (BitVec 512)
  /-- Number of the first packet: rows from 0, scale chunks from 128. -/
  base : Nat := 0
  /-- Packets accepted so far; whether the next one's command is under way. -/
  next : Nat := 0
  sent : Bool := false
  /-- It waits for the end of a housekeeping round since this one, after a refusal for temperature. -/
  held : Option Nat := none
  /-- Physical engines that failed this record in this fill. -/
  tried : List Nat := []
  /-- The write that is answered when its commands have ended. -/
  reply : Option Msg := none
  deriving DecidableEq, Repr

/-- The running switch (R397): hclk time of STOP. -/
structure Switch where
  startHc : Nat := 0
  /-- Steps 2 to 4 have been done, and the fill runs. -/
  applied : Bool := false
  /-- The last switch has FAILED, and no GO has been accepted since (R399). -/
  failed : Bool := false
  deriving DecidableEq, Repr

/-- Sync of the waggle counter across the swarm (R493 to R499), on KD0. -/
structure Sync where
  seq : Nat := 0
  /-- Outstanding requests: link die, port, sequence number, t1 in units of 1.25 ns. -/
  reqs : List (Nat × Nat × Nat × Int) := []
  /-- Values of V at the last usable response on UPPORT, and on either port. -/
  lastUp : Nat := 0
  lastAny : Nat := 0
  /-- Value of V at the last request. -/
  lastReq : Nat := 0
  /-- Consecutive exchanges within 100 ns. -/
  good : Nat := 0
  /-- hclk time of bring-up. -/
  bringup : Nat := 0
  /-- hclk time of the last edge of PKG_SYNC. -/
  edge : Option Nat := none
  deriving DecidableEq, Repr

/-- A recovery in progress (R571). -/
structure Recovery where
  cause : Nat
  /-- hclk time of detection. -/
  since : Nat
  /-- The faulted engines to repair: core, logical engine, spare chosen. -/
  repair : List (Nat × Nat × Option Nat) := []
  /-- Replay has landed its inputs again. -/
  landed : Bool := false
  deriving DecidableEq, Repr

/-- What a reliability engine keeps (R571 to R581). -/
structure Ras where
  rec_ : Option Recovery := none
  /-- hclk times of recoveries within the last 1 ms, of the last class-C recovery. -/
  times : List Nat := []
  lastC : Option Nat := none
  /-- Retained copies that replay will make again, in order (R571). -/
  expect : List Msg := []
  /-- Grants to suppress, by route; credit counters whose first CSET since the restart is still to come, keyed
  32 × core + counter (R573). -/
  grants : Tab Nat := []
  csets : Tab Bool := []
  /-- Faulted engines to refill in the background: core, logical engine, physical engine. -/
  later : List (Nat × Nat × Nat) := []
  /-- Sends of a compute die that have left it and are not yet credited, by the counter that paid for them, keyed
  32 × core + counter (R573). -/
  owed : Tab Nat := []
  deriving DecidableEq, Repr

/-- A queued refill of a memory die (R587). -/
structure Refill where
  cd : Nat
  k : Nat
  l : Nat
  p : Nat
  deriving DecidableEq, Repr

/-- A running copy of a memory die (R391): the next record, the end, the target, writes not yet answered. -/
structure CopyJob where
  next : Nat
  stop : Nat
  sset : Nat
  dset : Nat
  dpkg : Nat
  out : Nat := 0
  deriving DecidableEq, Repr

/-- What a memory die keeps of its golden sets (R387, R391, R401, R402). -/
structure GoldSt where
  refills : List Refill := []
  copy : Option CopyJob := none
  /-- Records found lost in both copies: set and side index. -/
  lost : List (Nat × Nat) := []
  /-- Queued repairs: set and side index. -/
  repairs : List (Nat × Nat) := []
  /-- The set whose clear runs (R392). -/
  clearing : Option Nat := none
  /-- The side is being rehashed. -/
  rehash : Bool := false
  deriving DecidableEq, Repr

/-- The thermal and power state of a die beside its registers (R514, R515, R519, R520, R524). -/
structure Thermal where
  /-- Entry times of the warning, level-1 and level-2 thresholds while active. -/
  warn : Option Nat := none
  lvl1 : Option Nat := none
  lvl2 : Option Nat := none
  /-- hclk time since which every sample of level 2 read at least 100 °C, and of the change to divisor 8. -/
  hot : Option Nat := none
  div8 : Option Nat := none
  /-- Core that receives the first extra pass of R514. -/
  start : Nat := 0
  /-- Cycles are skipped in this loop step for power (R515). -/
  skip : Bool := false
  /-- Engine passes and test slots started since the last loop step (R514). -/
  passes : Nat := 0
  /-- More than 2 sensors were invalid once: the die behaves as at 100 °C until a cold reset (R518). -/
  failed : Bool := false
  /-- Tripped, and held in reset after the next power-up (R524). -/
  tripped : Bool := false
  /-- Its clocks are gated by its clock monitor (R487). -/
  gated : Bool := false
  deriving DecidableEq, Repr

/-- One channel's round so far (R542): sum, conversions, any OVR. -/
structure HkAcc where
  sum : Int := 0
  n : Nat := 0
  ovr : Bool := false
  deriving DecidableEq, Repr

/-- The converters of a control die (R536 to R546). -/
structure Hk where
  /-- Next slot of each converter. -/
  slot0 : Nat := 0
  slot1 : Nat := 0
  /-- HK_XCFG of the round, input i at bits 32 i, as the exclusive OR with its reset value. -/
  cfg : Nat := 0
  acc : Tab HkAcc := []
  /-- Ground and reference sums: 2 × converter + (1 for reference). -/
  conv : Tab HkAcc := []
  /-- Up readings of this round, inputs that meet the open rule in it (a mask), and those that did not in the round
  before. -/
  up : Tab Int := []
  met : Nat := 0
  unmet : Nat := 0
  /-- The hclk time of a waiting urgent request. -/
  urgent : Option Nat := none
  /-- Accepted O and F of each converter that take effect at the next round. -/
  nextOf : Option (List Nat) := none
  deriving DecidableEq, Repr

/-- Calibration of a die (R548 to R551): it waits for the next round; the last run's results. -/
structure CalSt where
  fresh : Bool := false
  last : List Int := []
  /-- Rails whose TRIM moved in this round, and items with an accepted value, as masks of items. -/
  moved : Nat := 0
  valid : Nat := 0
  deriving DecidableEq, Repr

/-- A sideband pin beside its PIN_SBCFG (R602 to R604). -/
structure Pin where
  /-- The level driven, while its function is an output. -/
  out : Bool := false
  /-- The hclk time of its next toggle, and how long the low phase of the period under way will be. -/
  due : Nat := 0
  low : Nat := 0
  /-- The input is ignored until this hclk time (R603). -/
  deaf : Nat := 0
  /-- Rising edges seen, and the hclk time of the last. -/
  edges : Nat := 0
  edgeHc : Nat := 0
  deriving DecidableEq, Repr

/-- Power, reset and pins of the package (R591 to R604). -/
structure Plat where
  /-- 12 V present, PWROK asserted and acted on, RST_N asserted, and since when. -/
  vin : Bool := false
  pwrok : Bool := false
  rstLow : Option Nat := none
  /-- PERST inputs asserted: bit 0 A, bit 1 B; ports whose firmware is ready. -/
  perst : Nat := 0
  ready : Nat := 0
  /-- The external throttle input and the time until which it acts; THERMTRIP_N; stage 1 off. -/
  throttle : Bool := false
  throttleFrom : Nat := 0
  throttleUntil : Nat := 0
  thermtrip : Bool := false
  /-- hclk times of the loop steps of the last 100 ms above 6,500 W (R511). -/
  overs : List Nat := []
  /-- The SPI flash, every byte as the exclusive OR with 0xFF, what an erased byte reads as. -/
  flash : Tab Byte := []
  /-- Engines retired and not yet in the record: bit number (R595). -/
  retire : List Nat := []
  hk0 : Hk := {}
  hk1 : Hk := {}
  cal : Tab CalSt := []
  /-- The copy being saved and its record (R554). -/
  saving : Option (Nat × List Byte) := none
  /-- Why the warm restart that is due comes: 2 PWR_RESET, 3 a class-E fault (R608). -/
  warmWhy : Nat := 3
  /-- hclk time of the last reset of KD0 (R307). -/
  bootHc : Nat := 0
  /-- A core is out of spares, and SRV_CTL.EN stays 0 until a switch (R576). -/
  noSpare : Bool := false
  /-- PWR_PKGCAP.EN at the last round (R517). -/
  capOn : Bool := false
  pins : Tab Pin := []
  /-- In-band interrupts sent to the BMC, one on each assertion of ALERT_N (R601). -/
  ibi : Nat := 0
  /-- The last answer held for the BMC's block read (R601). -/
  bmc : List Byte := []
  /-- Missing heartbeats of each control die in a row, and which control die is lost: 1 + its number. -/
  missed0 : Nat := 0
  missed1 : Nat := 0
  lostKd : Nat := 0
  deriving DecidableEq, Repr

/-- An SPDM session (R463). -/
structure Session where
  id : Nat
  /-- FINISH has completed. -/
  open_ : Bool := false
  deriving DecidableEq, Repr

/-- The SPDM responder of a port (R463): 0 nothing, 1 version, 2 capabilities, 3 algorithms. -/
structure Spdm where
  phase : Nat := 0
  sessions : List Session := []
  /-- The next session number. -/
  next : Nat := 1
  deriving DecidableEq, Repr

/-- The fuses that security reads (R459 to R462, R471): blank ones here (log entry 22). -/
structure Fuses where
  /-- The fused security version number (R462). -/
  svn : Nat := 0
  ownerKey : List Byte := []
  rootKey0 : List Byte := []
  rootKey1 : List Byte := []
  revoke0 : Bool := false
  dbgKey : List Byte := []
  serial : Nat := 0
  deriving DecidableEq, Repr

/-- Fuses, attestation and debug (R459 to R473). A blank fuse reads as the empty list (log entry 22). -/
structure Sec where
  fuses : Fuses := {}
  spdmA : Spdm := {}
  spdmB : Spdm := {}
  /-- Digest of the running code image and of the accepted installation record; of the step-program image in effect. -/
  image : List Byte := []
  record : List Byte := []
  program : List Byte := []
  /-- LNK_PCFG of the ports as the record gives it, keyed 16 × (die − 36) + port: reloaded after a warm restart (R590). -/
  portCfg : Tab Nat := []
  /-- The accepted record requires encryption (R470). -/
  mustEncrypt : Bool := false
  /-- The zeroing of R472 is under way. -/
  unlocking : Bool := false
  /-- Which debug nonce is in force: a new one at every GO and every reset (R471). -/
  nonce : Nat := 0
  /-- The signature that JTAG has written (R474). -/
  sig : Tab Word64 := []
  /-- PCIe IDE streams in the insecure state, keyed 8 × port + stream (R465). -/
  ideBad : Nat := 0
  /-- The firmware release number (R464). -/
  release : Nat := 0
  deriving DecidableEq, Repr

/-- The trace collector of a die (R616, R617): a record that waits for its pair, and since when; the next core to serve. -/
structure Collector where
  half : Option (BitVec 256 × Nat) := none
  turn : Nat := 0
  deriving DecidableEq, Repr

end Sys2Proof.Machine
end

