-- ==== Sys2Proof/Machine/Service.lean ====
section
/-!
DEFINITION. The state of the serving engine, the forager and the host ports (chapters 09, 13 and 14), as plain data.
-/

namespace Sys2Proof.Machine

/-- The live fields of one monitor (R626), and the samples that wait (R624): bin and value. -/
structure Monitor where
  count : Nat := 0
  sum : Int := 0
  lo : Int := 0x7FFFFFFF
  hi : Int := -0x80000000
  bins : Tab Nat := []
  wait : List (Nat × Int) := []
  /-- The cycle of the last sample, and the unit it came from: core k is k + 1; 1,024 before the first one. -/
  cyc : Nat := 0
  unit : Nat := 1024
  deriving DecidableEq, Repr

/-- An event that an event ring has staged (R620): events lost before it, its waggle bits and DELTA of word 0, CODE and DATA. -/
structure Staged where
  gap : Nat := 0
  stamp : Nat := 0
  code : Nat := 0
  data : Nat := 0
  deriving DecidableEq, Repr

/-- What an event ring holds beside its entries (R620): its stage, oldest first, how many of it came in the last cycle, that
cycle of the unit's clock, the last CODE that came in it (256 before the first), and events lost since the last one staged. -/
structure RingSt where
  stage : List Staged := []
  fresh : Nat := 0
  cyc : Nat := 0
  code : Nat := 256
  lost : Nat := 0
  deriving DecidableEq, Repr

/-- An injection in flight (R283): 0 prompt chunk, 1 decode step, 2 tree step; whether its last row is sampled. -/
structure Inj where
  kind : Nat
  rows : Nat
  pos : Nat
  last : Bool
  deriving DecidableEq, Repr

/-- A tree step being verified (R293): the parents and tokens of nodes 1 to N, the path so far and the node whose row is
sampled next; `done` once the loop has ended. -/
structure TreeStep where
  parents : List Nat := []
  toks : List Nat := []
  path : List Nat := [0]
  node : Nat := 0
  done : Bool := false
  deriving DecidableEq, Repr

/-- What the serving engine keeps for a request slot beside SRV_SLOT0 to SRV_SLOT3. -/
structure SlotSt where
  /-- The 64 bytes of the parameter block (R273). -/
  block : List Byte := []
  /-- The function ID that submitted it (R411), and its output ring (R424, R430). -/
  fn : Nat := 0
  ring : Nat := 0
  rsz : Nat := 5
  ive : Bool := false
  vec : Nat := 0
  /-- A CP1 request's deadline in µs, whether it is dropped when late, and whether it is late (R301). -/
  cp1 : Bool := false
  deadline : Nat := 0
  dropLate : Bool := false
  late : Bool := false
  /-- hclk times of acceptance and of the last delivery (R299). -/
  acceptHc : Nat := 0
  lastHc : Nat := 0
  /-- Records written to the output ring. -/
  recs : Nat := 0
  /-- The next prompt position to inject, and the tokens read for its chunk. -/
  prompt : Nat := 0
  chunk : Option (List Nat) := none
  /-- An end held while OPENING (R275), and its REASON. -/
  cancel : Bool := false
  cancelWhy : Nat := 0x14
  /-- Memory dies whose RQ_OPEN record is awaited, those that returned OK, and whether one failed. -/
  openWait : Nat := 0
  openOk : Nat := 0
  openBad : Bool := false
  /-- Memory dies whose RQ_RELEASE, whose COMMIT record is awaited. -/
  relWait : Nat := 0
  comWait : Nat := 0
  inj : Option Inj := none
  tree : Option TreeStep := none
  /-- The current token. -/
  cur : Nat := 0
  /-- It left DECODE when it paused. -/
  fromDecode : Bool := false
  /-- It has ended, and its end record waits for the tokens that were sampled before (R275, R276). -/
  owed : Bool := false
  /-- The hclk time of the last token of a tree step whose verification has not ended yet (R299). -/
  step : Option Nat := none
  /-- Its function has been reset: nothing more is written to its host memory (R422). -/
  mute : Bool := false
  deriving DecidableEq, Repr

/-- A token drawn and not yet committed (R288, R296): `ends` closes a tree step, `tree` says it belongs to one. -/
structure Drawn where
  slot : Nat
  tok : Nat
  pos : Nat
  z : Nat
  lp : Nat
  tree : Bool
  ends : Bool
  deriving DecidableEq, Repr

/-- What KD1 mirrors of KD0 (R272, R627): the registers that differ from their reset values, the monitors of the contexts, and
the hclk time, as they stood at the last token commit. -/
structure Mirror where
  regs : Tab Word64 := []
  shadows : Tab Monitor := []
  hc : Nat := 0
  deriving DecidableEq, Repr

/-- The serving engine and the forager on KD0 (R272). -/
structure Srv where
  slots : Tab SlotSt := []
  /-- Queued slots in order of submission (R282). -/
  queue : List Nat := []
  /-- The slot injected last (R284). -/
  last : Nat := 16383
  /-- Sampled rows in flight, in injection order: slot and row. -/
  due : List (Nat × Nat) := []
  /-- Candidate lists that have arrived, by source, oldest first (R286). -/
  lists : Tab (List (List Byte)) := []
  drawn : List Drawn := []
  /-- Completion records that have arrived: memory die and 8 bytes (R242). -/
  records : List (Nat × List Byte) := []
  mirror : Mirror := {}
  deriving DecidableEq, Repr

/-- What the block writes to a host's memory, and the interrupts it sends (R421, R430). -/
inductive HostOut where
  | write (port addr : Nat) (bs : List Byte)
  | msix (fn vec : Nat)
  /-- The answer of a TLP: function, tag, status of the completion, data. -/
  | tlp (fn tag status : Nat) (bs : List Byte)
  deriving DecidableEq, Repr

/-- A fetched command of a queue pair: its number since the pair was enabled, its bytes once they have arrived, and
whether it has started (R417, R419). -/
structure Cmd where
  id : Nat
  bytes : Option (List Byte) := none
  started : Bool := false
  /-- Its place in the order in which entries arrive (R420). -/
  seq : Nat := 0
  deriving DecidableEq, Repr

/-- A queue pair (R417 to R422). -/
structure Pair where
  tail : Nat := 0
  /-- Completion entries that the host has consumed since EN was set. -/
  consumed : Nat := 0
  /-- Commands fetched, completion entries written since EN was set. -/
  fetched : Nat := 0
  posted : Nat := 0
  /-- Outstanding commands in SQ order. -/
  cmds : List Cmd := []
  deriving DecidableEq, Repr

/-- Progress of a MEM_WRITE or MEM_READ (R427): the messages not yet performed, the one under way first, and the bytes
performed. -/
structure Move where
  fn : Nat
  q : Nat
  id : Nat
  read : Bool
  /-- Global address, host address and length of each message. -/
  todo : List (Nat × Nat × Nat)
  /-- The data of the first message, once they have arrived from the host. -/
  data : Option (List Byte) := none
  /-- The first message is on its way to another package. -/
  sent : Bool := false
  done : Nat := 0
  deriving DecidableEq, Repr

/-- Why host memory is read (R439). -/
inductive HostUse where
  | entry (fn q id : Nat)
  | prompt (slot : Nat)
  | draft (fn q id slot : Nat)
  | source (fn q id : Nat)
  deriving DecidableEq, Repr

/-- A read of host memory; its tag is 16,384 while it waits to be issued (R410). -/
structure HostRead where
  tag : Nat := 16384
  fn : Nat
  addr : Nat
  len : Nat
  at_ : Nat
  use : HostUse
  deriving DecidableEq, Repr

/-- A step-program image that is being hashed (R433): the PROG_STAGE that waits, the digest it gave, and the range of the
image staged before it, which stays refused until the new one passes. -/
structure Stage where
  fn : Nat
  q : Nat
  id : Nat
  digest : List Byte
  oldBase : Nat
  oldLen : Nat
  deriving DecidableEq, Repr

/-- The host ports. A function ID is 1,024 × port + function number (R411). -/
structure HostSt where
  /-- Keyed 64 × function ID + pair. -/
  pairs : Tab Pair := []
  reads : List HostRead := []
  /-- Timed-out host-read tags: port, tag and when (R440). -/
  quar : List (Nat × Nat × Nat) := []
  /-- What has been written to the hosts, oldest first. -/
  out : List HostOut := []
  /-- Outstanding EVENT_WAIT commands, oldest first: function ID, pair, command number. -/
  waits : List (Nat × Nat × Nat) := []
  /-- Pending events: key 8 × function ID + kind, value count and detail (R431). -/
  events : Tab (Nat × Nat) := []
  moves : List Move := []
  stage : Option Stage := none
  /-- Device Control 2 of a function (R439, log entry 80). -/
  devCtl2 : Tab Nat := []
  /-- Queue entries that have arrived (R420). -/
  arrived : Nat := 0
  /-- Unexpected Completion Status of each port's AER (R440). -/
  unexpected : Tab Bool := []
  /-- The port that won the last tie of two TAKEs (R438); A wins the first. -/
  takeWon : Nat := 1
  deriving DecidableEq, Repr

end Sys2Proof.Machine
end

