-- ==== Sys2Proof/Machine/Regs.lean ====
section
/-!
DEFINITION. The register tables of the spec: for every register family its dies, address, width, view and fields with
access codes and reset values (00 R5 to R9 and each chapter's Registers section).
-/

namespace Sys2Proof.Machine

/-- The access codes of R7; RSV bits are the bits no field names. -/
inductive Acc where
  | rw | ro | wo | w1c | w1s | rc
  deriving DecidableEq, Repr

/-- One field [hi:lo] of a register. -/
structure Fld where
  hi : Nat
  lo : Nat
  acc : Acc
  reset : Nat
  deriving DecidableEq, Repr

/-- Which dies hold a register (R10): `kd0` lies on KD0 alone, and on KD1 as its mirror where the table says so. -/
inductive Dies where
  | cd | md | ld | kd | kd0 | all | notld
  deriving DecidableEq, Repr

/-- Who may reach a register (R9): view P; view U; view U for the slot's, function's or monitor's own context; view U
on the control dies and P elsewhere (R504). -/
inductive View where
  | p | u | slot | fn | ctxmon | kdU
  deriving DecidableEq, Repr

/-- Where a family lies: offset = base + s1 × i + s2 × (j / n3) + s3 × (j % n3), with i < n1 and j < n2 × n3. -/
structure Shape where
  dies : Dies
  base : Nat
  s1 : Nat
  n1 : Nat
  s2 : Nat
  n2 : Nat
  s3 : Nat
  n3 : Nat
  width : Nat
  view : View
  mirror : Bool
  deriving DecidableEq, Repr

/-- Every register family of the spec. -/
inductive RegFam where
  /-- CMD_IDENT (R3). -/
  | cmdIdent
  /-- ENG_CFG (R84). -/
  | engCfg
  /-- ENG_STATE (R85). -/
  | engState
  /-- ENG_FAULT (R86). -/
  | engFault
  /-- ENG_FAULT_INFO (R87). -/
  | engFaultInfo
  /-- ENG_WCMD (R88). -/
  | engWcmd
  /-- ENG_WDATA (R89); second index 16 p + i: word i of engine p. -/
  | engWdata
  /-- ENG_MAPL (R90). -/
  | engMapl
  /-- ENG_TV_CTL (R91). -/
  | engTvCtl
  /-- ENG_SCRUB_CTL (R92). -/
  | engScrubCtl
  /-- CORE_CTL (R118). -/
  | coreCtl
  /-- CORE_STATUS (R119). -/
  | coreStatus
  /-- CORE_ACT (R120). -/
  | coreAct
  /-- CORE_SOFT (R121). -/
  | coreSoft
  /-- CORE_BUF_ERR (R122). -/
  | coreBufErr
  /-- CLB_BUF_ERR (R122). -/
  | clbBufErr
  /-- CORE_FMODE (R165). -/
  | coreFmode
  /-- CORE_EXC (R166). -/
  | coreExc
  /-- CORE_WDOG (R167). -/
  | coreWdog
  /-- CORE_FFLAGS (R189). -/
  | coreFflags
  /-- CORE_QH (R318). -/
  | coreQh
  /-- CORE_ACNT (R168). -/
  | coreAcnt
  /-- CORE_CCNT (R168). -/
  | coreCcnt
  /-- NOC_RGT (R203); second index 2 T + w: word w of tag T. -/
  | nocRgt
  /-- NOC_MGT (R199). -/
  | nocMgt
  /-- NOC_CRT (R202). -/
  | nocCrt
  /-- NOC_ARBW (R221); reset by R212. -/
  | nocArbw
  /-- NOC_CTL (R222). -/
  | nocCtl
  /-- NOC_STAT (R223). -/
  | nocStat
  /-- NOC_ERR (R224). -/
  | nocErr
  /-- NOC_ERRINFO (R225). -/
  | nocErrinfo
  /-- NOC_DISCARD (R226). -/
  | nocDiscard
  /-- MDA_FFLAGS (R190). -/
  | mdaFflags
  /-- MDA_AUCNT (R261). -/
  | mdaAucnt
  /-- MDA_CTL (R262). -/
  | mdaCtl
  /-- MDA_RGN (R263). -/
  | mdaRgn
  /-- MDA_POOL (R264); index 0 KV8, 1 KV4. -/
  | mdaPool
  /-- MDA_RSV (R264); index 0 KV8, 1 KV4. -/
  | mdaRsv
  /-- MDA_ECC (R265). -/
  | mdaEcc
  /-- MDA_SCRUB (R266). -/
  | mdaScrub
  /-- MDA_ERR (R267). -/
  | mdaErr
  /-- MDA_ERRINFO (R268). -/
  | mdaErrinfo
  /-- MDA_GOLD (R269). -/
  | mdaGold
  /-- MDA_LTAB (R270). -/
  | mdaLtab
  /-- MDA_RQT (R271). -/
  | mdaRqt
  /-- MDA_QHL (R319). -/
  | mdaQhl
  /-- SRV_CTL (R303). -/
  | srvCtl
  /-- SRV_CFG (R304). -/
  | srvCfg
  /-- SRV_COSTA (R305). -/
  | srvCosta
  /-- SRV_COSTB (R305). -/
  | srvCostb
  /-- SRV_ADM (R306). -/
  | srvAdm
  /-- SRV_TIME (R307). -/
  | srvTime
  /-- SMP_CFG (R308). -/
  | smpCfg
  /-- SRV_SLOT0 (R309). -/
  | srvSlot0
  /-- SRV_SLOT1 (R309). -/
  | srvSlot1
  /-- SRV_SLOT2 (R309). -/
  | srvSlot2
  /-- SRV_SLOT3 (R309). -/
  | srvSlot3
  /-- MON_QHLA (R323). -/
  | monQhla
  /-- MON_QHLB (R323). -/
  | monQhlb
  /-- MON_QHLF (R323). -/
  | monQhlf
  /-- MON_QH_THR (R324). -/
  | monQhThr
  /-- MON_QH_CFG (R325). -/
  | monQhCfg
  /-- MON_QH_STAT (R326). -/
  | monQhStat
  /-- PFAB_CTL (R372). -/
  | pfabCtl
  /-- PFAB_PKGID (R373). -/
  | pfabPkgid
  /-- PFAB_TMO (R374). -/
  | pfabTmo
  /-- PFAB_ERR (R375). -/
  | pfabErr
  /-- PFAB_ERRINFO (R376). -/
  | pfabErrinfo
  /-- PFAB_LNK (R377). -/
  | pfabLnk
  /-- PFAB_RT (R378). -/
  | pfabRt
  /-- PFAB_ARBW (R378). -/
  | pfabArbw
  /-- PFAB_PSEL (R378). -/
  | pfabPsel
  /-- LNK_PSTAT (R379). -/
  | lnkPstat
  /-- LNK_PCFG (R379). -/
  | lnkPcfg
  /-- LNK_PCNT (R379). -/
  | lnkPcnt
  /-- LNK_SEC (R470). -/
  | lnkSec
  /-- LNK_PKGRT (R380). -/
  | lnkPkgrt
  /-- LNK_ARBW (R381). -/
  | lnkArbw
  /-- LNK_GMAP (R381). -/
  | lnkGmap
  /-- WGT_HDR (R403). -/
  | wgtHdr
  /-- WGT_DIG (R403). -/
  | wgtDig
  /-- WGT_SEAL (R404). -/
  | wgtSeal
  /-- WGT_SWCTL (R405). -/
  | wgtSwctl
  /-- WGT_SWSTEP (R405). -/
  | wgtSwstep
  /-- WGT_SWSTAT (R406). -/
  | wgtSwstat
  /-- WGT_PMAP (R407). -/
  | wgtPmap
  /-- WGT_MDCMD (R408). -/
  | wgtMdcmd
  /-- WGT_LSTAT (R409). -/
  | wgtLstat
  /-- CMD_VFCTX (R441); index v - 1. -/
  | cmdVfctx
  /-- CMD_HTMO (R442). -/
  | cmdHtmo
  /-- CMD_STAGE (R443). -/
  | cmdStage
  /-- CMD_SDIG (R443). -/
  | cmdSdig
  /-- CMD_SQB (R444). -/
  | cmdSqb
  /-- CMD_CQB (R444). -/
  | cmdCqb
  /-- CMD_QCFG (R445). -/
  | cmdQcfg
  /-- CMD_QSTAT (R446). -/
  | cmdQstat
  /-- CMD_SQTDB (R444). -/
  | cmdSqtdb
  /-- CMD_CQHDB (R444). -/
  | cmdCqhdb
  /-- CMD_ACKDB (R447). -/
  | cmdAckdb
  /-- CMD_AERR (R448). -/
  | cmdAerr
  /-- CMD_AERRA (R448). -/
  | cmdAerra
  /-- CMD_APER (R449). -/
  | cmdAper
  /-- SEM (R450). -/
  | sem
  /-- SEC_QUOTAA (R458). -/
  | secQuotaa
  /-- SEC_QUOTAB (R458). -/
  | secQuotab
  /-- SEC_DBGCTL (R474). -/
  | secDbgctl
  /-- SEC_DBGNONCE (R474). -/
  | secDbgnonce
  /-- SEC_DBGSIG (R474). -/
  | secDbgsig
  /-- SEC_BOOT (R475). -/
  | secBoot
  /-- SEC_SVN (R476). -/
  | secSvn
  /-- SEC_ISO (R477). -/
  | secIso
  /-- CLK_CFG (R501). -/
  | clkCfg
  /-- CLK_STAT (R502). -/
  | clkStat
  /-- CLK_ERR (R503). -/
  | clkErr
  /-- WAG_NOW (R504). -/
  | wagNow
  /-- WAG_CAP (R505). -/
  | wagCap
  /-- WAG_CAPV (R505). -/
  | wagCapv
  /-- WAG_CAPP (R505). -/
  | wagCapp
  /-- WAG_STAT (R506). -/
  | wagStat
  /-- WAG_ERR (R507). -/
  | wagErr
  /-- WAG_CFG (R508). -/
  | wagCfg
  /-- WAG_EXT (R509). -/
  | wagExt
  /-- PWR_LIM (R526); LIMIT resets to the die limit of R17. -/
  | pwrLim
  /-- PWR_STAT (R527); ALLOW resets to 8,192 on a CD. -/
  | pwrStat
  /-- PWR_PKGCAP (R528). -/
  | pwrPkgcap
  /-- PWR_PKGSTAT (R529). -/
  | pwrPkgstat
  /-- PWR_ERR (R530). -/
  | pwrErr
  /-- THM_STAT (R531). -/
  | thmStat
  /-- THM_SENS (R532). -/
  | thmSens
  /-- THM_CFG (R533). -/
  | thmCfg
  /-- THM_EVT (R534). -/
  | thmEvt
  /-- THM_TRIP (R535). -/
  | thmTrip
  /-- PWR_BOOT (R608). -/
  | pwrBoot
  /-- PWR_RESET (R609). -/
  | pwrReset
  /-- HK_XCFG (R557). -/
  | hkXcfg
  /-- HK_URG (R559). -/
  | hkUrg
  /-- HK_STAT (R560). -/
  | hkStat
  /-- HK_ERR (R561). -/
  | hkErr
  /-- HK_CH (R558). -/
  | hkCh
  /-- HK_DIEA (R562). -/
  | hkDiea
  /-- HK_DIEB (R562). -/
  | hkDieb
  /-- HK_HBM (R562). -/
  | hkHbm
  /-- CAL_CTL (R563). -/
  | calCtl
  /-- CAL_DIE (R564). -/
  | calDie
  /-- CAL_TRIM (R565). -/
  | calTrim
  /-- CAL_ACC (R565). -/
  | calAcc
  /-- CAL_ADC (R565). -/
  | calAdc
  /-- RAS_CTL (R583). -/
  | rasCtl
  /-- RAS_STAT (R584). -/
  | rasStat
  /-- RAS_STORE (R586). -/
  | rasStore
  /-- RAS_REFILL (R587). -/
  | rasRefill
  /-- RAS_ALERT (R588). -/
  | rasAlert
  /-- RAS_ALERTC (R588). -/
  | rasAlertc
  /-- PIN_SBCFG (R605); FUNC of SB7 resets to 6. -/
  | pinSbcfg
  /-- PIN_SBIN (R606). -/
  | pinSbin
  /-- PIN_TACH (R607). -/
  | pinTach
  /-- DBG_TCFG (R629). -/
  | dbgTcfg
  /-- DBG_TSTART (R629). -/
  | dbgTstart
  /-- DBG_TSTOP (R629). -/
  | dbgTstop
  /-- DBG_TSINK (R629). -/
  | dbgTsink
  /-- DBG_TSIZE (R629). -/
  | dbgTsize
  /-- DBG_TSTAT (R629). -/
  | dbgTstat
  /-- DBG_TWPTR (R629). -/
  | dbgTwptr
  /-- DBG_RFREEZE (R630). -/
  | dbgRfreeze
  /-- DBG_RSTATU (R630); unit u. -/
  | dbgRstatu
  /-- DBG_TCTL (R629). -/
  | dbgTctl
  /-- DBG_TDROP (R629). -/
  | dbgTdrop
  /-- DBG_RSTATC (R630). -/
  | dbgRstatc
  /-- MON_CFG (R631). -/
  | monCfg
  /-- MON_LBASE (R631). -/
  | monLbase
  /-- MON_CTL (R631). -/
  | monCtl
  /-- MON_MINMAX (R631). -/
  | monMinmax
  /-- MON_COUNT (R631). -/
  | monCount
  /-- MON_SUM (R631). -/
  | monSum
  /-- MON_MISSED (R631). -/
  | monMissed
  /-- MON_BIN (R631). -/
  | monBin
  /-- MON_CTXCFG (R631). -/
  | monCtxcfg
  /-- MONC_CTL (R631). -/
  | moncCtl
  /-- MONC_MINMAX (R631). -/
  | moncMinmax
  /-- MONC_COUNT (R631). -/
  | moncCount
  /-- MONC_SUM (R631). -/
  | moncSum
  /-- MONC_MISSED (R631). -/
  | moncMissed
  /-- MONC_BIN (R631). -/
  | moncBin
  /-- DBG_RINGC (R618); second index 2 i + w. -/
  | dbgRingc
  /-- DBG_RINGU (R618); unit u, second index 2 i + w. -/
  | dbgRingu
  deriving DecidableEq, Repr

/-- Families in the order of the spec, part 0. -/
def RegFam.part0 : List RegFam :=
  [.cmdIdent, .engCfg, .engState, .engFault, .engFaultInfo, .engWcmd, .engWdata, .engMapl,
   .engTvCtl, .engScrubCtl, .coreCtl, .coreStatus, .coreAct, .coreSoft, .coreBufErr, .clbBufErr,
   .coreFmode, .coreExc, .coreWdog, .coreFflags, .coreQh, .coreAcnt, .coreCcnt, .nocRgt,
   .nocMgt, .nocCrt, .nocArbw, .nocCtl, .nocStat, .nocErr, .nocErrinfo, .nocDiscard,
   .mdaFflags, .mdaAucnt, .mdaCtl, .mdaRgn, .mdaPool, .mdaRsv, .mdaEcc, .mdaScrub]

/-- Families in the order of the spec, part 1. -/
def RegFam.part1 : List RegFam :=
  [.mdaErr, .mdaErrinfo, .mdaGold, .mdaLtab, .mdaRqt, .mdaQhl, .srvCtl, .srvCfg,
   .srvCosta, .srvCostb, .srvAdm, .srvTime, .smpCfg, .srvSlot0, .srvSlot1, .srvSlot2,
   .srvSlot3, .monQhla, .monQhlb, .monQhlf, .monQhThr, .monQhCfg, .monQhStat, .pfabCtl,
   .pfabPkgid, .pfabTmo, .pfabErr, .pfabErrinfo, .pfabLnk, .pfabRt, .pfabArbw, .pfabPsel,
   .lnkPstat, .lnkPcfg, .lnkPcnt, .lnkSec, .lnkPkgrt, .lnkArbw, .lnkGmap, .wgtHdr]

/-- Families in the order of the spec, part 2. -/
def RegFam.part2 : List RegFam :=
  [.wgtDig, .wgtSeal, .wgtSwctl, .wgtSwstep, .wgtSwstat, .wgtPmap, .wgtMdcmd, .wgtLstat,
   .cmdVfctx, .cmdHtmo, .cmdStage, .cmdSdig, .cmdSqb, .cmdCqb, .cmdQcfg, .cmdQstat,
   .cmdSqtdb, .cmdCqhdb, .cmdAckdb, .cmdAerr, .cmdAerra, .cmdAper, .sem, .secQuotaa,
   .secQuotab, .secDbgctl, .secDbgnonce, .secDbgsig, .secBoot, .secSvn, .secIso, .clkCfg,
   .clkStat, .clkErr, .wagNow, .wagCap, .wagCapv, .wagCapp, .wagStat, .wagErr]

/-- Families in the order of the spec, part 3. -/
def RegFam.part3 : List RegFam :=
  [.wagCfg, .wagExt, .pwrLim, .pwrStat, .pwrPkgcap, .pwrPkgstat, .pwrErr, .thmStat,
   .thmSens, .thmCfg, .thmEvt, .thmTrip, .pwrBoot, .pwrReset, .hkXcfg, .hkUrg,
   .hkStat, .hkErr, .hkCh, .hkDiea, .hkDieb, .hkHbm, .calCtl, .calDie,
   .calTrim, .calAcc, .calAdc, .rasCtl, .rasStat, .rasStore, .rasRefill, .rasAlert,
   .rasAlertc, .pinSbcfg, .pinSbin, .pinTach, .dbgTcfg, .dbgTstart, .dbgTstop, .dbgTsink]

/-- Families in the order of the spec, part 4. -/
def RegFam.part4 : List RegFam :=
  [.dbgTsize, .dbgTstat, .dbgTwptr, .dbgRfreeze, .dbgRstatu, .dbgTctl, .dbgTdrop, .dbgRstatc,
   .monCfg, .monLbase, .monCtl, .monMinmax, .monCount, .monSum, .monMissed, .monBin,
   .monCtxcfg, .moncCtl, .moncMinmax, .moncCount, .moncSum, .moncMissed, .moncBin, .dbgRingc,
   .dbgRingu]

/-- Every family, in the order of the spec. -/
def RegFam.all : List RegFam :=
  part0 ++ part1 ++ part2 ++ part3 ++ part4

/-- Where each family lies. -/
def RegFam.shape : RegFam → Shape
  | .cmdIdent => ⟨.kd, 0x3F0000000000, 0x0, 1, 0x0, 1, 0, 1, 32, .u, false⟩
  | .engCfg => ⟨.cd, 0x3F0010000000, 0x20000, 512, 0x1000, 17, 0, 1, 32, .p, false⟩
  | .engState => ⟨.cd, 0x3F0010000008, 0x20000, 512, 0x1000, 17, 0, 1, 32, .p, false⟩
  | .engFault => ⟨.cd, 0x3F0010000010, 0x20000, 512, 0x1000, 17, 0, 1, 32, .p, false⟩
  | .engFaultInfo => ⟨.cd, 0x3F0010000018, 0x20000, 512, 0x1000, 17, 0, 1, 32, .p, false⟩
  | .engWcmd => ⟨.cd, 0x3F0010000020, 0x20000, 512, 0x1000, 17, 0, 1, 32, .p, false⟩
  | .engWdata => ⟨.cd, 0x3F0010000040, 0x20000, 512, 0x1000, 17, 4, 16, 32, .p, false⟩
  | .engMapl => ⟨.cd, 0x3F0010011000, 0x20000, 512, 0x8, 16, 0, 1, 32, .p, false⟩
  | .engTvCtl => ⟨.cd, 0x3F0010011080, 0x20000, 512, 0x0, 1, 0, 1, 32, .p, false⟩
  | .engScrubCtl => ⟨.cd, 0x3F0010011088, 0x20000, 512, 0x0, 1, 0, 1, 32, .p, false⟩
  | .coreCtl => ⟨.cd, 0x3F0010012000, 0x20000, 512, 0x0, 1, 0, 1, 32, .p, false⟩
  | .coreStatus => ⟨.cd, 0x3F0010012008, 0x20000, 512, 0x0, 1, 0, 1, 32, .p, false⟩
  | .coreAct => ⟨.cd, 0x3F0010012010, 0x20000, 512, 0x0, 1, 0, 1, 32, .p, false⟩
  | .coreSoft => ⟨.cd, 0x3F0010012018, 0x20000, 512, 0x0, 1, 0, 1, 32, .p, false⟩
  | .coreBufErr => ⟨.cd, 0x3F0010012020, 0x20000, 512, 0x0, 1, 0, 1, 64, .p, false⟩
  | .clbBufErr => ⟨.cd, 0x3F0014000020, 0x1000, 64, 0x0, 1, 0, 1, 64, .p, false⟩
  | .coreFmode => ⟨.cd, 0x3F0010012028, 0x20000, 512, 0x0, 1, 0, 1, 32, .p, false⟩
  | .coreExc => ⟨.cd, 0x3F0010012030, 0x20000, 512, 0x0, 1, 0, 1, 32, .p, false⟩
  | .coreWdog => ⟨.cd, 0x3F0010012038, 0x20000, 512, 0x0, 1, 0, 1, 32, .p, false⟩
  | .coreFflags => ⟨.cd, 0x3F0010012040, 0x20000, 512, 0x0, 1, 0, 1, 32, .p, false⟩
  | .coreQh => ⟨.cd, 0x3F0010012048, 0x20000, 512, 0x0, 1, 0, 1, 64, .p, false⟩
  | .coreAcnt => ⟨.cd, 0x3F0010012100, 0x20000, 512, 0x8, 32, 0, 1, 32, .p, false⟩
  | .coreCcnt => ⟨.cd, 0x3F0010012200, 0x20000, 512, 0x8, 32, 0, 1, 32, .p, false⟩
  | .nocRgt => ⟨.cd, 0x3F0018000000, 0x10000, 64, 0x8, 2048, 0, 1, 64, .p, false⟩
  | .nocMgt => ⟨.cd, 0x3F0018004000, 0x10000, 64, 0x8, 1024, 0, 1, 64, .p, false⟩
  | .nocCrt => ⟨.cd, 0x3F0018006000, 0x10000, 64, 0x8, 256, 0, 1, 64, .p, false⟩
  | .nocArbw => ⟨.cd, 0x3F0014000100, 0x1000, 64, 0x8, 6, 0, 1, 64, .p, false⟩
  | .nocCtl => ⟨.cd, 0x3F0014000130, 0x1000, 64, 0x0, 1, 0, 1, 32, .p, false⟩
  | .nocStat => ⟨.cd, 0x3F0014000138, 0x1000, 64, 0x0, 1, 0, 1, 32, .p, false⟩
  | .nocErr => ⟨.cd, 0x3F0014000140, 0x1000, 64, 0x0, 1, 0, 1, 32, .p, false⟩
  | .nocErrinfo => ⟨.cd, 0x3F0014000148, 0x1000, 64, 0x0, 1, 0, 1, 64, .p, false⟩
  | .nocDiscard => ⟨.cd, 0x3F0014000150, 0x1000, 64, 0x0, 1, 0, 1, 32, .p, false⟩
  | .mdaFflags => ⟨.md, 0x3F0040000040, 0x100, 16, 0x0, 1, 0, 1, 32, .p, false⟩
  | .mdaAucnt => ⟨.md, 0x3F0040000048, 0x100, 16, 0x0, 1, 0, 1, 32, .p, false⟩
  | .mdaCtl => ⟨.md, 0x3F0041000000, 0x0, 1, 0x0, 1, 0, 1, 32, .p, false⟩
  | .mdaRgn => ⟨.md, 0x3F0041000010, 0x8, 5, 0x0, 1, 0, 1, 64, .p, false⟩
  | .mdaPool => ⟨.md, 0x3F0041000040, 0x8, 2, 0x0, 1, 0, 1, 64, .p, false⟩
  | .mdaRsv => ⟨.md, 0x3F0041000050, 0x8, 2, 0x0, 1, 0, 1, 64, .p, false⟩
  | .mdaEcc => ⟨.md, 0x3F0041000060, 0x0, 1, 0x0, 1, 0, 1, 64, .p, false⟩
  | .mdaScrub => ⟨.md, 0x3F0041000068, 0x0, 1, 0x0, 1, 0, 1, 32, .p, false⟩
  | .mdaErr => ⟨.md, 0x3F0041000070, 0x0, 1, 0x0, 1, 0, 1, 32, .p, false⟩
  | .mdaErrinfo => ⟨.md, 0x3F0041000078, 0x0, 1, 0x0, 1, 0, 1, 64, .p, false⟩
  | .mdaGold => ⟨.md, 0x3F0041000080, 0x0, 1, 0x0, 1, 0, 1, 32, .p, false⟩
  | .mdaLtab => ⟨.md, 0x3F0042000000, 0x80, 4096, 0x8, 16, 0, 1, 64, .p, false⟩
  | .mdaRqt => ⟨.md, 0x3F0043000000, 0x20, 16384, 0x8, 4, 0, 1, 64, .p, false⟩
  | .mdaQhl => ⟨.md, 0x3F0045000000, 0x8, 4096, 0x0, 1, 0, 1, 64, .p, false⟩
  | .srvCtl => ⟨.kd0, 0x3F0050000000, 0x0, 1, 0x0, 1, 0, 1, 32, .p, true⟩
  | .srvCfg => ⟨.kd0, 0x3F0050000008, 0x0, 1, 0x0, 1, 0, 1, 64, .p, true⟩
  | .srvCosta => ⟨.kd0, 0x3F0050000010, 0x0, 1, 0x0, 1, 0, 1, 64, .p, true⟩
  | .srvCostb => ⟨.kd0, 0x3F0050000018, 0x0, 1, 0x0, 1, 0, 1, 64, .p, true⟩
  | .srvAdm => ⟨.kd0, 0x3F0050000020, 0x0, 1, 0x0, 1, 0, 1, 64, .p, true⟩
  | .srvTime => ⟨.kd0, 0x3F0050000028, 0x0, 1, 0x0, 1, 0, 1, 64, .u, true⟩
  | .smpCfg => ⟨.kd0, 0x3F0052000000, 0x0, 1, 0x0, 1, 0, 1, 32, .p, true⟩
  | .srvSlot0 => ⟨.kd0, 0x3F0051000000, 0x20, 16384, 0x0, 1, 0, 1, 64, .slot, true⟩
  | .srvSlot1 => ⟨.kd0, 0x3F0051000008, 0x20, 16384, 0x0, 1, 0, 1, 64, .slot, true⟩
  | .srvSlot2 => ⟨.kd0, 0x3F0051000010, 0x20, 16384, 0x0, 1, 0, 1, 64, .slot, true⟩
  | .srvSlot3 => ⟨.kd0, 0x3F0051000018, 0x20, 16384, 0x0, 1, 0, 1, 64, .slot, true⟩
  | .monQhla => ⟨.kd0, 0x3F0060000000, 0x20, 4096, 0x0, 1, 0, 1, 64, .p, true⟩
  | .monQhlb => ⟨.kd0, 0x3F0060000008, 0x20, 4096, 0x0, 1, 0, 1, 64, .p, true⟩
  | .monQhlf => ⟨.kd0, 0x3F0060000010, 0x20, 4096, 0x0, 1, 0, 1, 64, .p, true⟩
  | .monQhThr => ⟨.kd0, 0x3F0060020000, 0x0, 1, 0x0, 1, 0, 1, 64, .p, true⟩
  | .monQhCfg => ⟨.kd0, 0x3F0060020008, 0x0, 1, 0x0, 1, 0, 1, 32, .p, true⟩
  | .monQhStat => ⟨.kd0, 0x3F0060020010, 0x0, 1, 0x0, 1, 0, 1, 32, .p, true⟩
  | .pfabCtl => ⟨.all, 0x3F0008000000, 0x0, 1, 0x0, 1, 0, 1, 32, .p, false⟩
  | .pfabPkgid => ⟨.all, 0x3F0008000008, 0x0, 1, 0x0, 1, 0, 1, 32, .p, false⟩
  | .pfabTmo => ⟨.all, 0x3F0008000010, 0x0, 1, 0x0, 1, 0, 1, 64, .p, false⟩
  | .pfabErr => ⟨.all, 0x3F0008000020, 0x0, 1, 0x0, 1, 0, 1, 32, .p, false⟩
  | .pfabErrinfo => ⟨.all, 0x3F0008000028, 0x0, 1, 0x0, 1, 0, 1, 64, .p, false⟩
  | .pfabLnk => ⟨.all, 0x3F0008000040, 0x8, 6, 0x0, 1, 0, 1, 32, .p, false⟩
  | .pfabRt => ⟨.all, 0x3F0008000100, 0x4, 64, 0x0, 1, 0, 1, 32, .p, false⟩
  | .pfabArbw => ⟨.all, 0x3F0008000200, 0x40, 6, 0x4, 9, 0, 1, 32, .p, false⟩
  | .pfabPsel => ⟨.all, 0x3F0008000600, 0x4, 128, 0x0, 1, 0, 1, 32, .p, false⟩
  | .lnkPstat => ⟨.ld, 0x3F0070000000, 0x40, 16, 0x0, 1, 0, 1, 32, .p, false⟩
  | .lnkPcfg => ⟨.ld, 0x3F0070000008, 0x40, 16, 0x0, 1, 0, 1, 32, .p, false⟩
  | .lnkPcnt => ⟨.ld, 0x3F0070000010, 0x40, 16, 0x0, 1, 0, 1, 64, .p, false⟩
  | .lnkSec => ⟨.ld, 0x3F0070000018, 0x40, 16, 0x0, 1, 0, 1, 64, .p, false⟩
  | .lnkPkgrt => ⟨.ld, 0x3F0070001000, 0x4, 4096, 0x0, 1, 0, 1, 32, .p, false⟩
  | .lnkArbw => ⟨.ld, 0x3F0070006000, 0x80, 16, 0x4, 17, 0, 1, 32, .p, false⟩
  | .lnkGmap => ⟨.ld, 0x3F0070008000, 0x8, 1024, 0x0, 1, 0, 1, 64, .p, false⟩
  | .wgtHdr => ⟨.kd0, 0x3F0068000000, 0x100, 2, 0x8, 32, 0, 1, 64, .p, true⟩
  | .wgtDig => ⟨.kd0, 0x3F0068000200, 0x40, 2, 0x8, 6, 0, 1, 64, .p, true⟩
  | .wgtSeal => ⟨.kd0, 0x3F0068000300, 0x0, 1, 0x0, 1, 0, 1, 32, .p, true⟩
  | .wgtSwctl => ⟨.kd0, 0x3F0068000308, 0x0, 1, 0x0, 1, 0, 1, 32, .p, true⟩
  | .wgtSwstep => ⟨.kd0, 0x3F0068000310, 0x0, 1, 0x0, 1, 0, 1, 64, .p, true⟩
  | .wgtSwstat => ⟨.kd0, 0x3F0068000318, 0x0, 1, 0x0, 1, 0, 1, 32, .p, true⟩
  | .wgtPmap => ⟨.kd0, 0x3F0068010000, 0x4, 16384, 0x0, 1, 0, 1, 32, .p, true⟩
  | .wgtMdcmd => ⟨.md, 0x3F0047000000, 0x0, 1, 0x0, 1, 0, 1, 64, .p, false⟩
  | .wgtLstat => ⟨.md, 0x3F0047000008, 0x0, 1, 0x0, 1, 0, 1, 64, .p, false⟩
  | .cmdVfctx => ⟨.kd, 0x3F0000010004, 0x4, 512, 0x0, 1, 0, 1, 32, .p, false⟩
  | .cmdHtmo => ⟨.kd, 0x3F0000000100, 0x0, 1, 0x0, 1, 0, 1, 32, .p, false⟩
  | .cmdStage => ⟨.kd0, 0x3F0000000200, 0x0, 1, 0x0, 1, 0, 1, 64, .p, true⟩
  | .cmdSdig => ⟨.kd0, 0x3F0000000210, 0x8, 6, 0x0, 1, 0, 1, 64, .p, true⟩
  | .cmdSqb => ⟨.kd, 0x3F0000101000, 0x10000, 513, 0x40, 64, 0, 1, 64, .fn, false⟩
  | .cmdCqb => ⟨.kd, 0x3F0000101008, 0x10000, 513, 0x40, 64, 0, 1, 64, .fn, false⟩
  | .cmdQcfg => ⟨.kd, 0x3F0000101010, 0x10000, 513, 0x40, 64, 0, 1, 32, .fn, false⟩
  | .cmdQstat => ⟨.kd, 0x3F0000101018, 0x10000, 513, 0x40, 64, 0, 1, 32, .fn, false⟩
  | .cmdSqtdb => ⟨.kd, 0x3F0000101020, 0x10000, 513, 0x40, 64, 0, 1, 32, .fn, false⟩
  | .cmdCqhdb => ⟨.kd, 0x3F0000101028, 0x10000, 513, 0x40, 64, 0, 1, 32, .fn, false⟩
  | .cmdAckdb => ⟨.kd, 0x3F0000108000, 0x10000, 513, 0x0, 1, 0, 1, 64, .fn, false⟩
  | .cmdAerr => ⟨.kd, 0x3F0000109000, 0x10000, 513, 0x0, 1, 0, 1, 64, .fn, false⟩
  | .cmdAerra => ⟨.kd, 0x3F0000109008, 0x10000, 513, 0x0, 1, 0, 1, 64, .fn, false⟩
  | .cmdAper => ⟨.kd, 0x3F000010A000, 0x8, 16, 0x0, 1, 0, 1, 64, .p, false⟩
  | .sem => ⟨.kd0, 0x3F0004000000, 0x8, 256, 0x0, 1, 0, 1, 32, .p, true⟩
  | .secQuotaa => ⟨.kd0, 0x3F0090010000, 0x10, 1024, 0x0, 1, 0, 1, 64, .p, true⟩
  | .secQuotab => ⟨.kd0, 0x3F0090010008, 0x10, 1024, 0x0, 1, 0, 1, 64, .p, true⟩
  | .secDbgctl => ⟨.kd0, 0x3F0090000200, 0x0, 1, 0x0, 1, 0, 1, 32, .p, false⟩
  | .secDbgnonce => ⟨.kd0, 0x3F0090000210, 0x8, 4, 0x0, 1, 0, 1, 64, .p, false⟩
  | .secDbgsig => ⟨.kd0, 0x3F0090000240, 0x8, 12, 0x0, 1, 0, 1, 64, .p, false⟩
  | .secBoot => ⟨.kd, 0x3F0090000000, 0x0, 1, 0x0, 1, 0, 1, 32, .p, false⟩
  | .secSvn => ⟨.kd0, 0x3F0090000008, 0x0, 1, 0x0, 1, 0, 1, 32, .p, false⟩
  | .secIso => ⟨.kd0, 0x3F0090000100, 0x0, 1, 0x0, 1, 0, 1, 64, .p, true⟩
  | .clkCfg => ⟨.all, 0x3F00A0000000, 0x0, 1, 0x0, 1, 0, 1, 32, .p, false⟩
  | .clkStat => ⟨.all, 0x3F00A0000008, 0x0, 1, 0x0, 1, 0, 1, 32, .p, false⟩
  | .clkErr => ⟨.all, 0x3F00A0000010, 0x0, 1, 0x0, 1, 0, 1, 32, .p, false⟩
  | .wagNow => ⟨.all, 0x3F00A0000100, 0x0, 1, 0x0, 1, 0, 1, 64, .kdU, false⟩
  | .wagCap => ⟨.all, 0x3F00A0000108, 0x0, 1, 0x0, 1, 0, 1, 32, .p, false⟩
  | .wagCapv => ⟨.all, 0x3F00A0000110, 0x0, 1, 0x0, 1, 0, 1, 64, .p, false⟩
  | .wagCapp => ⟨.all, 0x3F00A0000118, 0x0, 1, 0x0, 1, 0, 1, 32, .p, false⟩
  | .wagStat => ⟨.all, 0x3F00A0000120, 0x0, 1, 0x0, 1, 0, 1, 32, .p, false⟩
  | .wagErr => ⟨.all, 0x3F00A0000128, 0x0, 1, 0x0, 1, 0, 1, 32, .p, false⟩
  | .wagCfg => ⟨.kd0, 0x3F00A0000140, 0x0, 1, 0x0, 1, 0, 1, 32, .p, false⟩
  | .wagExt => ⟨.kd0, 0x3F00A0000148, 0x0, 1, 0x0, 1, 0, 1, 32, .p, false⟩
  | .pwrLim => ⟨.all, 0x3F00B0000000, 0x0, 1, 0x0, 1, 0, 1, 32, .p, false⟩
  | .pwrStat => ⟨.all, 0x3F00B0000008, 0x0, 1, 0x0, 1, 0, 1, 64, .p, false⟩
  | .pwrPkgcap => ⟨.kd0, 0x3F00B0000100, 0x0, 1, 0x0, 1, 0, 1, 32, .p, true⟩
  | .pwrPkgstat => ⟨.kd0, 0x3F00B0000108, 0x0, 1, 0x0, 1, 0, 1, 64, .p, true⟩
  | .pwrErr => ⟨.kd0, 0x3F00B0000110, 0x0, 1, 0x0, 1, 0, 1, 32, .p, true⟩
  | .thmStat => ⟨.all, 0x3F00B0000040, 0x0, 1, 0x0, 1, 0, 1, 32, .p, false⟩
  | .thmSens => ⟨.all, 0x3F00B0000080, 0x4, 8, 0x0, 1, 0, 1, 32, .p, false⟩
  | .thmCfg => ⟨.all, 0x3F00B0000050, 0x0, 1, 0x0, 1, 0, 1, 32, .p, false⟩
  | .thmEvt => ⟨.all, 0x3F00B0000058, 0x0, 1, 0x0, 1, 0, 1, 32, .p, false⟩
  | .thmTrip => ⟨.kd0, 0x3F00B0000118, 0x0, 1, 0x0, 1, 0, 1, 64, .p, true⟩
  | .pwrBoot => ⟨.kd0, 0x3F00B0000120, 0x0, 1, 0x0, 1, 0, 1, 64, .p, true⟩
  | .pwrReset => ⟨.kd0, 0x3F00B0000128, 0x0, 1, 0x0, 1, 0, 1, 32, .p, true⟩
  | .hkXcfg => ⟨.kd, 0x3F00C0000000, 0x4, 8, 0x0, 1, 0, 1, 32, .p, false⟩
  | .hkUrg => ⟨.kd, 0x3F00C0000040, 0x0, 1, 0x0, 1, 0, 1, 32, .p, false⟩
  | .hkStat => ⟨.kd, 0x3F00C0000048, 0x0, 1, 0x0, 1, 0, 1, 64, .p, false⟩
  | .hkErr => ⟨.kd, 0x3F00C0000050, 0x0, 1, 0x0, 1, 0, 1, 64, .p, false⟩
  | .hkCh => ⟨.kd, 0x3F00C0000100, 0x8, 32, 0x0, 1, 0, 1, 64, .p, false⟩
  | .hkDiea => ⟨.kd0, 0x3F00C0001000, 0x10, 40, 0x0, 1, 0, 1, 64, .p, false⟩
  | .hkDieb => ⟨.kd0, 0x3F00C0001008, 0x10, 40, 0x0, 1, 0, 1, 64, .p, false⟩
  | .hkHbm => ⟨.kd0, 0x3F00C0001400, 0x4, 8, 0x0, 1, 0, 1, 32, .p, false⟩
  | .calCtl => ⟨.kd0, 0x3F00C0002000, 0x0, 1, 0x0, 1, 0, 1, 32, .p, true⟩
  | .calDie => ⟨.kd0, 0x3F00C0002100, 0x8, 40, 0x0, 1, 0, 1, 64, .p, true⟩
  | .calTrim => ⟨.all, 0x3F00C8000000, 0x0, 1, 0x0, 1, 0, 1, 32, .p, false⟩
  | .calAcc => ⟨.all, 0x3F00C8000008, 0x0, 1, 0x0, 1, 0, 1, 32, .p, false⟩
  | .calAdc => ⟨.kd, 0x3F00C8000010, 0x0, 1, 0x0, 1, 0, 1, 64, .p, false⟩
  | .rasCtl => ⟨.notld, 0x3F00D0000000, 0x0, 1, 0x0, 1, 0, 1, 32, .p, false⟩
  | .rasStat => ⟨.notld, 0x3F00D0000008, 0x0, 1, 0x0, 1, 0, 1, 64, .p, false⟩
  | .rasStore => ⟨.notld, 0x3F00D0000010, 0x0, 1, 0x0, 1, 0, 1, 64, .p, false⟩
  | .rasRefill => ⟨.md, 0x3F00D0000020, 0x0, 1, 0x0, 1, 0, 1, 64, .p, false⟩
  | .rasAlert => ⟨.kd0, 0x3F00D0000100, 0x0, 1, 0x0, 1, 0, 1, 64, .p, true⟩
  | .rasAlertc => ⟨.kd0, 0x3F00D0000108, 0x0, 1, 0x0, 1, 0, 1, 32, .p, true⟩
  | .pinSbcfg => ⟨.kd, 0x3F00E0000000, 0x10, 8, 0x0, 1, 0, 1, 32, .p, false⟩
  | .pinSbin => ⟨.kd, 0x3F00E0000080, 0x0, 1, 0x0, 1, 0, 1, 32, .p, false⟩
  | .pinTach => ⟨.kd, 0x3F00E0000100, 0x4, 8, 0x0, 1, 0, 1, 32, .p, false⟩
  | .dbgTcfg => ⟨.cd, 0x3F00F0000000, 0x0, 1, 0x0, 1, 0, 1, 32, .p, false⟩
  | .dbgTstart => ⟨.cd, 0x3F00F0000008, 0x0, 1, 0x0, 1, 0, 1, 64, .p, false⟩
  | .dbgTstop => ⟨.cd, 0x3F00F0000010, 0x0, 1, 0x0, 1, 0, 1, 64, .p, false⟩
  | .dbgTsink => ⟨.cd, 0x3F00F0000018, 0x0, 1, 0x0, 1, 0, 1, 64, .p, false⟩
  | .dbgTsize => ⟨.cd, 0x3F00F0000020, 0x0, 1, 0x0, 1, 0, 1, 32, .p, false⟩
  | .dbgTstat => ⟨.cd, 0x3F00F0000028, 0x0, 1, 0x0, 1, 0, 1, 32, .p, false⟩
  | .dbgTwptr => ⟨.cd, 0x3F00F0000030, 0x0, 1, 0x0, 1, 0, 1, 64, .p, false⟩
  | .dbgRfreeze => ⟨.all, 0x3F00F0000040, 0x0, 1, 0x0, 1, 0, 1, 64, .p, false⟩
  | .dbgRstatu => ⟨.all, 0x3F00F0000800, 0x8, 71, 0x0, 1, 0, 1, 32, .p, false⟩
  | .dbgTctl => ⟨.cd, 0x3F0010012300, 0x20000, 512, 0x0, 1, 0, 1, 32, .p, false⟩
  | .dbgTdrop => ⟨.cd, 0x3F0010012308, 0x20000, 512, 0x0, 1, 0, 1, 64, .p, false⟩
  | .dbgRstatc => ⟨.cd, 0x3F0010012310, 0x20000, 512, 0x0, 1, 0, 1, 32, .p, false⟩
  | .monCfg => ⟨.notld, 0x3F00F8000000, 0x400, 16, 0x0, 1, 0, 1, 64, .p, false⟩
  | .monLbase => ⟨.notld, 0x3F00F8000008, 0x400, 16, 0x0, 1, 0, 1, 32, .p, false⟩
  | .monCtl => ⟨.notld, 0x3F00F8000010, 0x400, 16, 0x0, 1, 0, 1, 32, .p, false⟩
  | .monMinmax => ⟨.notld, 0x3F00F8000018, 0x400, 16, 0x0, 1, 0, 1, 64, .p, false⟩
  | .monCount => ⟨.notld, 0x3F00F8000020, 0x400, 16, 0x0, 1, 0, 1, 64, .p, false⟩
  | .monSum => ⟨.notld, 0x3F00F8000028, 0x400, 16, 0x0, 1, 0, 1, 64, .p, false⟩
  | .monMissed => ⟨.notld, 0x3F00F8000030, 0x400, 16, 0x0, 1, 0, 1, 64, .p, false⟩
  | .monBin => ⟨.notld, 0x3F00F8000100, 0x400, 16, 0x4, 64, 0, 1, 32, .p, false⟩
  | .monCtxcfg => ⟨.kd0, 0x3F00F8008000, 0x0, 1, 0x0, 1, 0, 1, 32, .p, true⟩
  | .moncCtl => ⟨.kd0, 0x3F00F8010010, 0x200, 2048, 0x0, 1, 0, 1, 32, .ctxmon, true⟩
  | .moncMinmax => ⟨.kd0, 0x3F00F8010018, 0x200, 2048, 0x0, 1, 0, 1, 64, .ctxmon, true⟩
  | .moncCount => ⟨.kd0, 0x3F00F8010020, 0x200, 2048, 0x0, 1, 0, 1, 64, .ctxmon, true⟩
  | .moncSum => ⟨.kd0, 0x3F00F8010028, 0x200, 2048, 0x0, 1, 0, 1, 64, .ctxmon, true⟩
  | .moncMissed => ⟨.kd0, 0x3F00F8010030, 0x200, 2048, 0x0, 1, 0, 1, 64, .ctxmon, true⟩
  | .moncBin => ⟨.kd0, 0x3F00F8010100, 0x200, 2048, 0x4, 64, 0, 1, 32, .ctxmon, true⟩
  | .dbgRingc => ⟨.cd, 0x3F0010012800, 0x20000, 512, 0x8, 128, 0, 1, 64, .p, false⟩
  | .dbgRingu => ⟨.all, 0x3F00F0001000, 0x400, 71, 0x8, 128, 0, 1, 64, .p, false⟩

/-- The fields of each family, from the most significant down. -/
def RegFam.flds : RegFam → List Fld
  | .cmdIdent => [⟨31, 16, .ro, 0x4E40⟩, ⟨15, 12, .ro, 1⟩, ⟨11, 8, .ro, 1⟩, ⟨7, 4, .ro, 1⟩]
  | .engCfg => [⟨31, 31, .w1s, 0⟩, ⟨2, 0, .rw, 0⟩]
  | .engState => [⟨31, 31, .ro, 0⟩, ⟨30, 30, .ro, 0⟩, ⟨17, 16, .ro, 0⟩, ⟨11, 8, .ro, 0⟩, ⟨7, 7, .ro, 0⟩, ⟨1, 0, .ro, 0⟩]
  | .engFault => [⟨5, 0, .w1c, 0⟩]
  | .engFaultInfo => [⟨31, 31, .ro, 0⟩, ⟨30, 28, .ro, 0⟩, ⟨22, 16, .ro, 0⟩, ⟨8, 0, .ro, 0⟩]
  | .engWcmd => [⟨31, 31, .ro, 0⟩, ⟨30, 28, .ro, 0⟩, ⟨9, 9, .wo, 0⟩, ⟨8, 8, .rw, 0⟩, ⟨6, 0, .rw, 0⟩]
  | .engWdata => [⟨31, 0, .wo, 0⟩]
  | .engMapl => [⟨31, 31, .rw, 0⟩, ⟨4, 0, .rw, 0⟩]
  | .engTvCtl => [⟨31, 31, .w1s, 0⟩, ⟨6, 0, .rw, 10⟩]
  | .engScrubCtl => [⟨3, 0, .rw, 6⟩]
  | .coreCtl => [⟨31, 31, .w1s, 0⟩, ⟨30, 30, .w1s, 0⟩]
  | .coreStatus => [⟨31, 29, .ro, 0⟩, ⟨11, 0, .ro, 0⟩]
  | .coreAct => [⟨20, 16, .ro, 16⟩, ⟨12, 8, .ro, 0⟩, ⟨0, 0, .ro, 1⟩]
  | .coreSoft => [⟨15, 0, .rw, 256⟩]
  | .coreBufErr => [⟨63, 63, .w1c, 0⟩, ⟨62, 62, .w1c, 0⟩, ⟨47, 32, .rc, 0⟩, ⟨19, 3, .ro, 0⟩]
  | .clbBufErr => [⟨63, 63, .w1c, 0⟩, ⟨62, 62, .w1c, 0⟩, ⟨47, 32, .rc, 0⟩, ⟨19, 3, .ro, 0⟩]
  | .coreFmode => [⟨2, 2, .rw, 0⟩, ⟨1, 0, .rw, 0⟩]
  | .coreExc => [⟨31, 31, .ro, 0⟩, ⟨28, 24, .ro, 0⟩, ⟨15, 0, .w1c, 0⟩]
  | .coreWdog => [⟨15, 0, .rw, 1000⟩]
  | .coreFflags => [⟨31, 31, .ro, 0⟩, ⟨27, 16, .ro, 0⟩, ⟨4, 0, .w1c, 0⟩]
  | .coreQh => [⟨63, 48, .rc, 0⟩, ⟨47, 32, .rc, 0⟩, ⟨31, 16, .rc, 0⟩, ⟨15, 0, .rc, 0⟩]
  | .coreAcnt => [⟨31, 24, .ro, 0⟩, ⟨15, 0, .ro, 0⟩]
  | .coreCcnt => [⟨7, 0, .ro, 0⟩]
  | .nocRgt => [⟨63, 0, .rw, 0⟩]
  | .nocMgt => [⟨63, 2, .rw, 0⟩]
  | .nocCrt => [⟨63, 63, .rw, 0⟩, ⟨25, 16, .rw, 0⟩, ⟨4, 0, .rw, 0⟩]
  | .nocArbw => [⟨59, 0, .rw, 0⟩]
  | .nocCtl => [⟨31, 31, .w1s, 0⟩]
  | .nocStat => [⟨31, 31, .ro, 1⟩, ⟨23, 16, .ro, 0⟩, ⟨15, 0, .rc, 0⟩]
  | .nocErr => [⟨10, 1, .w1c, 0⟩]
  | .nocErrinfo => [⟨63, 63, .ro, 0⟩, ⟨62, 59, .ro, 0⟩, ⟨58, 56, .ro, 0⟩, ⟨55, 53, .ro, 0⟩, ⟨52, 51, .ro, 0⟩, ⟨50, 41, .ro, 0⟩, ⟨40, 38, .ro, 0⟩]
  | .nocDiscard => [⟨31, 31, .w1s, 0⟩, ⟨9, 0, .rw, 0⟩]
  | .mdaFflags => [⟨4, 0, .w1c, 0⟩]
  | .mdaAucnt => [⟨31, 16, .rc, 0⟩, ⟨15, 0, .rc, 0⟩]
  | .mdaCtl => [⟨31, 31, .w1s, 0⟩]
  | .mdaRgn => [⟨63, 60, .rw, 0⟩, ⟨59, 59, .rw, 0⟩, ⟨49, 30, .rw, 0⟩, ⟨29, 0, .rw, 0⟩]
  | .mdaPool => [⟨53, 32, .ro, 0⟩, ⟨21, 0, .ro, 0⟩]
  | .mdaRsv => [⟨21, 0, .ro, 0⟩]
  | .mdaEcc => [⟨63, 63, .w1c, 0⟩, ⟨62, 62, .w1c, 0⟩, ⟨55, 40, .rc, 0⟩, ⟨39, 0, .ro, 0⟩]
  | .mdaScrub => [⟨3, 0, .rw, 6⟩]
  | .mdaErr => [⟨14, 0, .w1c, 0⟩]
  | .mdaErrinfo => [⟨63, 63, .ro, 0⟩, ⟨62, 59, .ro, 0⟩, ⟨55, 48, .ro, 0⟩, ⟨47, 34, .ro, 0⟩, ⟨33, 22, .ro, 0⟩, ⟨21, 16, .ro, 0⟩]
  | .mdaGold => [⟨31, 16, .rc, 0⟩, ⟨2, 2, .ro, 0⟩, ⟨1, 1, .ro, 0⟩, ⟨0, 0, .ro, 0⟩]
  | .mdaLtab => [⟨63, 0, .rw, 0⟩]
  | .mdaRqt => [⟨63, 0, .ro, 0⟩]
  | .mdaQhl => [⟨63, 48, .rc, 0⟩, ⟨47, 32, .rc, 0⟩, ⟨31, 16, .rc, 0⟩, ⟨15, 0, .rc, 0⟩]
  | .srvCtl => [⟨31, 31, .rw, 0⟩]
  | .srvCfg => [⟨63, 48, .rw, 0⟩, ⟨47, 32, .rw, 64⟩, ⟨23, 16, .rw, 4⟩, ⟨5, 0, .rw, 63⟩]
  | .srvCosta => [⟨63, 32, .rw, 0⟩, ⟨31, 0, .rw, 0⟩]
  | .srvCostb => [⟨63, 32, .rw, 0⟩, ⟨31, 0, .rw, 0⟩]
  | .srvAdm => [⟨63, 48, .rc, 0⟩, ⟨47, 32, .rc, 0⟩, ⟨31, 16, .rc, 0⟩, ⟨15, 0, .rc, 0⟩]
  | .srvTime => [⟨63, 0, .ro, 0⟩]
  | .smpCfg => [⟨31, 28, .rw, 1⟩, ⟨17, 0, .rw, 0⟩]
  | .srvSlot0 => [⟨63, 61, .ro, 0⟩, ⟨60, 51, .ro, 0⟩, ⟨50, 43, .ro, 0⟩, ⟨23, 0, .ro, 0⟩]
  | .srvSlot1 => [⟨47, 24, .ro, 0⟩, ⟨23, 0, .ro, 0⟩]
  | .srvSlot2 => [⟨63, 32, .ro, 0xFFFFFFFF⟩, ⟨31, 0, .ro, 0⟩]
  | .srvSlot3 => [⟨63, 32, .ro, 0⟩, ⟨31, 31, .w1s, 0⟩, ⟨12, 0, .wo, 0⟩]
  | .monQhla => [⟨63, 32, .ro, 0⟩, ⟨31, 0, .ro, 0⟩]
  | .monQhlb => [⟨63, 32, .ro, 0⟩, ⟨31, 0, .ro, 0⟩]
  | .monQhlf => [⟨3, 0, .w1c, 0⟩]
  | .monQhThr => [⟨63, 48, .rw, 0⟩, ⟨47, 32, .rw, 0⟩, ⟨31, 16, .rw, 0⟩, ⟨15, 0, .rw, 1000⟩]
  | .monQhCfg => [⟨31, 31, .rw, 1⟩, ⟨30, 30, .w1s, 0⟩, ⟨15, 0, .rw, 1000⟩]
  | .monQhStat => [⟨31, 31, .w1c, 0⟩, ⟨15, 0, .rc, 0⟩]
  | .pfabCtl => [⟨31, 31, .w1s, 0⟩]
  | .pfabPkgid => [⟨11, 0, .rw, 0⟩]
  | .pfabTmo => [⟨63, 48, .rw, 1000⟩, ⟨47, 32, .rw, 20000⟩, ⟨31, 16, .rw, 2000⟩, ⟨15, 0, .rw, 1000⟩]
  | .pfabErr => [⟨12, 0, .w1c, 0⟩]
  | .pfabErrinfo => [⟨63, 63, .ro, 0⟩, ⟨62, 59, .ro, 0⟩, ⟨58, 56, .ro, 0⟩, ⟨55, 44, .ro, 0⟩, ⟨43, 38, .ro, 0⟩, ⟨37, 34, .ro, 0⟩, ⟨33, 22, .ro, 0⟩, ⟨21, 18, .ro, 0⟩, ⟨17, 15, .ro, 0⟩]
  | .pfabLnk => [⟨31, 29, .ro, 0⟩, ⟨28, 26, .ro, 0⟩, ⟨15, 0, .rc, 0⟩]
  | .pfabRt => [⟨31, 31, .rw, 0⟩, ⟨2, 0, .rw, 0⟩]
  | .pfabArbw => [⟨9, 0, .rw, 1⟩]
  | .pfabPsel => [⟨31, 0, .rw, 0⟩]
  | .lnkPstat => [⟨31, 29, .ro, 0⟩, ⟨28, 26, .ro, 0⟩]
  | .lnkPcfg => [⟨31, 31, .rw, 0⟩, ⟨30, 30, .rw, 0⟩, ⟨27, 16, .rw, 2048⟩, ⟨15, 12, .rw, 0⟩, ⟨11, 0, .rw, 0⟩]
  | .lnkPcnt => [⟨63, 48, .rc, 0⟩, ⟨47, 32, .rc, 0⟩, ⟨31, 0, .rc, 0⟩]
  | .lnkSec => [⟨63, 63, .rw, 0⟩, ⟨62, 61, .rw, 3⟩, ⟨60, 60, .ro, 0⟩, ⟨59, 59, .w1c, 0⟩, ⟨55, 0, .rw, 0⟩]
  | .lnkPkgrt => [⟨31, 31, .rw, 0⟩, ⟨30, 30, .rw, 0⟩, ⟨11, 8, .rw, 0⟩, ⟨3, 0, .rw, 0⟩]
  | .lnkArbw => [⟨9, 0, .rw, 1⟩]
  | .lnkGmap => [⟨63, 63, .rw, 0⟩, ⟨62, 59, .rw, 0⟩, ⟨58, 47, .rw, 0⟩, ⟨46, 41, .rw, 0⟩, ⟨40, 31, .rw, 0⟩]
  | .wgtHdr => [⟨63, 0, .rw, 0⟩]
  | .wgtDig => [⟨63, 0, .ro, 0⟩]
  | .wgtSeal => [⟨31, 31, .w1s, 0⟩, ⟨30, 30, .ro, 0⟩, ⟨29, 29, .rw, 0⟩, ⟨27, 24, .ro, 0⟩]
  | .wgtSwctl => [⟨31, 31, .w1s, 0⟩, ⟨30, 30, .w1s, 0⟩, ⟨29, 29, .w1s, 0⟩, ⟨28, 28, .rw, 0⟩, ⟨27, 27, .rw, 0⟩, ⟨15, 0, .rw, 1024⟩]
  | .wgtSwstep => [⟨63, 0, .rw, 0⟩]
  | .wgtSwstat => [⟨31, 29, .ro, 0⟩, ⟨27, 24, .ro, 0⟩, ⟨20, 20, .ro, 0⟩, ⟨15, 0, .ro, 0⟩]
  | .wgtPmap => [⟨31, 31, .ro, 0⟩, ⟨11, 0, .ro, 0⟩]
  | .wgtMdcmd => [⟨63, 63, .w1s, 0⟩, ⟨62, 62, .ro, 0⟩, ⟨61, 61, .w1c, 0⟩, ⟨60, 60, .rw, 0⟩, ⟨59, 59, .rw, 0⟩, ⟨58, 58, .rw, 0⟩, ⟨57, 46, .rw, 0⟩, ⟨45, 29, .rw, 0⟩, ⟨28, 11, .rw, 0⟩]
  | .wgtLstat => [⟨63, 48, .rc, 0⟩, ⟨47, 32, .rc, 0⟩, ⟨31, 28, .ro, 0⟩, ⟨27, 27, .ro, 0⟩, ⟨26, 17, .rc, 0⟩, ⟨16, 0, .ro, 0⟩]
  | .cmdVfctx => [⟨31, 31, .rw, 0⟩, ⟨9, 0, .rw, 0⟩]
  | .cmdHtmo => [⟨31, 16, .rw, 1000⟩, ⟨15, 0, .rc, 0⟩]
  | .cmdStage => [⟨63, 62, .ro, 0⟩, ⟨61, 30, .ro, 0⟩, ⟨29, 0, .ro, 0⟩]
  | .cmdSdig => [⟨63, 0, .ro, 0⟩]
  | .cmdSqb => [⟨63, 12, .rw, 0⟩]
  | .cmdCqb => [⟨63, 12, .rw, 0⟩]
  | .cmdQcfg => [⟨31, 31, .rw, 0⟩, ⟨30, 30, .rw, 0⟩, ⟨29, 28, .ro, 0⟩, ⟨27, 16, .rw, 0⟩, ⟨15, 15, .rw, 0⟩, ⟨7, 4, .rw, 4⟩, ⟨3, 0, .rw, 4⟩]
  | .cmdQstat => [⟨27, 16, .ro, 0⟩, ⟨11, 0, .ro, 0⟩]
  | .cmdSqtdb => [⟨11, 0, .wo, 0⟩]
  | .cmdCqhdb => [⟨11, 0, .wo, 0⟩]
  | .cmdAckdb => [⟨44, 32, .wo, 0⟩, ⟨13, 0, .wo, 0⟩]
  | .cmdAerr => [⟨63, 63, .w1c, 0⟩, ⟨62, 62, .ro, 0⟩, ⟨61, 58, .ro, 0⟩, ⟨47, 32, .rc, 0⟩]
  | .cmdAerra => [⟨63, 0, .ro, 0⟩]
  | .cmdAper => [⟨63, 26, .rw, 0⟩, ⟨0, 0, .rw, 0⟩]
  | .sem => [⟨31, 31, .ro, 0⟩, ⟨30, 30, .w1s, 0⟩, ⟨29, 29, .w1s, 0⟩, ⟨28, 28, .w1s, 0⟩, ⟨10, 0, .ro, 0⟩]
  | .secQuotaa => [⟨63, 63, .rw, 0⟩, ⟨62, 48, .rw, 0⟩, ⟨46, 32, .rw, 0⟩, ⟨14, 0, .ro, 0⟩]
  | .secQuotab => [⟨53, 32, .rw, 0⟩, ⟨21, 0, .rw, 0⟩]
  | .secDbgctl => [⟨31, 31, .w1s, 0⟩, ⟨30, 30, .ro, 0⟩, ⟨29, 28, .ro, 0⟩, ⟨27, 24, .ro, 0⟩]
  | .secDbgnonce => [⟨63, 0, .ro, 0⟩]
  | .secDbgsig => [⟨63, 0, .wo, 0⟩]
  | .secBoot => [⟨31, 30, .ro, 0⟩, ⟨29, 29, .ro, 0⟩, ⟨28, 28, .ro, 0⟩, ⟨22, 16, .ro, 0⟩, ⟨14, 8, .ro, 0⟩, ⟨7, 4, .ro, 0⟩, ⟨3, 0, .ro, 0⟩]
  | .secSvn => [⟨31, 31, .w1s, 0⟩, ⟨30, 28, .ro, 0⟩]
  | .secIso => [⟨63, 63, .w1c, 0⟩, ⟨62, 62, .ro, 0⟩, ⟨61, 52, .ro, 0⟩, ⟨51, 41, .ro, 0⟩, ⟨40, 31, .ro, 0⟩, ⟨30, 16, .rc, 0⟩, ⟨15, 0, .rc, 0⟩]
  | .clkCfg => [⟨31, 31, .rw, 0⟩, ⟨30, 28, .rw, 5⟩]
  | .clkStat => [⟨31, 31, .ro, 0⟩, ⟨30, 30, .ro, 0⟩, ⟨27, 24, .ro, 2⟩, ⟨23, 23, .ro, 0⟩, ⟨15, 0, .rc, 0⟩]
  | .clkErr => [⟨3, 0, .w1c, 0⟩]
  | .wagNow => [⟨63, 0, .ro, 0⟩]
  | .wagCap => [⟨31, 31, .w1s, 0⟩]
  | .wagCapv => [⟨63, 0, .ro, 0⟩]
  | .wagCapp => [⟨6, 0, .ro, 0⟩]
  | .wagStat => [⟨31, 29, .ro, 0⟩, ⟨28, 28, .ro, 0⟩, ⟨27, 24, .ro, 0⟩, ⟨23, 16, .ro, 0⟩, ⟨15, 0, .ro, 0⟩]
  | .wagErr => [⟨3, 0, .w1c, 0⟩]
  | .wagCfg => [⟨31, 30, .rw, 1⟩, ⟨29, 29, .rw, 0⟩, ⟨28, 24, .rw, 0⟩, ⟨20, 16, .rw, 0⟩, ⟨3, 0, .rw, 0⟩]
  | .wagExt => [⟨31, 31, .rw, 0⟩, ⟨23, 0, .rw, 1000000⟩]
  | .pwrLim => [⟨31, 24, .rw, 6⟩, ⟨23, 12, .rw, 512⟩, ⟨11, 0, .rw, 0⟩]
  | .pwrStat => [⟨63, 63, .ro, 0⟩, ⟨47, 32, .ro, 0⟩, ⟨31, 16, .rc, 0⟩, ⟨15, 0, .ro, 0⟩]
  | .pwrPkgcap => [⟨31, 31, .rw, 0⟩, ⟨12, 0, .rw, 6500⟩]
  | .pwrPkgstat => [⟨63, 48, .ro, 0⟩, ⟨47, 32, .rc, 0⟩, ⟨31, 16, .ro, 0⟩]
  | .pwrErr => [⟨3, 0, .w1c, 0⟩]
  | .thmStat => [⟨31, 30, .ro, 0⟩, ⟨29, 29, .ro, 0⟩, ⟨28, 28, .ro, 0⟩, ⟨27, 27, .ro, 0⟩, ⟨26, 26, .ro, 0⟩, ⟨15, 0, .ro, 0⟩]
  | .thmSens => [⟨31, 31, .ro, 0⟩, ⟨15, 0, .ro, 0⟩]
  | .thmCfg => [⟨31, 31, .rw, 1⟩, ⟨2, 0, .rw, 2⟩]
  | .thmEvt => [⟨3, 0, .w1c, 0⟩]
  | .thmTrip => [⟨63, 63, .ro, 0⟩, ⟨39, 0, .ro, 0⟩]
  | .pwrBoot => [⟨63, 61, .ro, 0⟩, ⟨60, 60, .w1c, 0⟩, ⟨59, 56, .ro, 0⟩, ⟨39, 0, .ro, 0⟩]
  | .pwrReset => [⟨31, 31, .w1s, 0⟩]
  | .hkXcfg => [⟨31, 31, .rw, 1⟩, ⟨30, 30, .rw, 1⟩, ⟨29, 29, .rw, 0⟩]
  | .hkUrg => [⟨31, 31, .w1s, 0⟩, ⟨30, 30, .ro, 0⟩, ⟨29, 29, .ro, 0⟩, ⟨28, 28, .ro, 0⟩, ⟨20, 16, .rw, 0⟩, ⟨15, 0, .ro, 0⟩]
  | .hkStat => [⟨63, 32, .ro, 0⟩, ⟨31, 16, .rc, 0⟩, ⟨15, 0, .rc, 0⟩]
  | .hkErr => [⟨63, 32, .w1c, 0⟩, ⟨23, 16, .w1c, 0⟩]
  | .hkCh => [⟨63, 63, .ro, 0⟩, ⟨62, 62, .ro, 0⟩, ⟨61, 61, .ro, 0⟩, ⟨55, 48, .ro, 0⟩, ⟨47, 32, .ro, 0⟩, ⟨31, 16, .ro, 0⟩, ⟨15, 0, .ro, 0⟩]
  | .hkDiea => [⟨63, 63, .ro, 0⟩, ⟨47, 32, .ro, 0⟩, ⟨15, 0, .ro, 0⟩]
  | .hkDieb => [⟨47, 32, .ro, 0⟩, ⟨31, 16, .ro, 0⟩, ⟨15, 0, .ro, 0⟩]
  | .hkHbm => [⟨31, 31, .ro, 0⟩, ⟨15, 0, .ro, 0⟩]
  | .calCtl => [⟨31, 31, .w1s, 0⟩, ⟨30, 30, .rw, 0⟩, ⟨29, 29, .w1s, 0⟩, ⟨28, 28, .w1s, 0⟩, ⟨27, 27, .ro, 0⟩, ⟨26, 24, .ro, 0⟩, ⟨23, 23, .ro, 0⟩, ⟨5, 0, .rw, 0⟩]
  | .calDie => [⟨63, 63, .ro, 0⟩, ⟨62, 62, .ro, 0⟩, ⟨61, 61, .w1c, 0⟩, ⟨60, 60, .w1c, 0⟩, ⟨59, 59, .ro, 0⟩, ⟨58, 56, .ro, 0⟩, ⟨55, 53, .ro, 0⟩, ⟨15, 0, .ro, 0⟩]
  | .calTrim => [⟨23, 16, .ro, 0x80⟩, ⟨15, 8, .ro, 0x80⟩, ⟨7, 0, .ro, 0x80⟩]
  | .calAcc => [⟨23, 16, .ro, 0x80⟩, ⟨15, 8, .ro, 0x80⟩, ⟨7, 0, .ro, 0x80⟩]
  | .calAdc => [⟨63, 48, .ro, 0x8000⟩, ⟨47, 32, .ro, 0⟩, ⟨31, 16, .ro, 0x8000⟩, ⟨15, 0, .ro, 0⟩]
  | .rasCtl => [⟨31, 31, .rw, 1⟩, ⟨30, 30, .w1s, 0⟩, ⟨3, 0, .rw, 4⟩]
  | .rasStat => [⟨63, 61, .ro, 0⟩, ⟨60, 56, .ro, 0⟩, ⟨47, 32, .rc, 0⟩, ⟨31, 16, .ro, 0⟩, ⟨15, 0, .ro, 0⟩]
  | .rasStore => [⟨63, 63, .w1c, 0⟩, ⟨48, 32, .ro, 0⟩, ⟨31, 16, .rc, 0⟩, ⟨15, 0, .rc, 0⟩]
  | .rasRefill => [⟨63, 63, .wo, 0⟩, ⟨55, 50, .wo, 0⟩, ⟨49, 41, .wo, 0⟩, ⟨40, 37, .wo, 0⟩, ⟨36, 32, .wo, 0⟩]
  | .rasAlert => [⟨39, 0, .ro, 0⟩]
  | .rasAlertc => [⟨12, 12, .w1c, 0⟩, ⟨11, 11, .ro, 0⟩, ⟨10, 0, .w1c, 0⟩]
  | .pinSbcfg => [⟨31, 28, .rw, 0⟩, ⟨27, 27, .rw, 1⟩, ⟨26, 26, .rw, 0⟩, ⟨25, 25, .rw, 0⟩, ⟨24, 23, .rw, 1⟩, ⟨22, 22, .rw, 1⟩, ⟨15, 0, .rw, 0⟩]
  | .pinSbin => [⟨7, 0, .ro, 0xFF⟩]
  | .pinTach => [⟨31, 31, .ro, 0⟩, ⟨23, 0, .ro, 0⟩]
  | .dbgTcfg => [⟨31, 30, .rw, 0⟩, ⟨29, 29, .rw, 1⟩, ⟨20, 16, .rw, 10⟩, ⟨7, 0, .ro, 0⟩]
  | .dbgTstart => [⟨63, 0, .rw, 0⟩]
  | .dbgTstop => [⟨63, 0, .rw, 0xFFFFFFFFFFFFFFFF⟩]
  | .dbgTsink => [⟨63, 6, .rw, 0⟩]
  | .dbgTsize => [⟨15, 0, .rw, 1⟩]
  | .dbgTstat => [⟨31, 31, .ro, 0⟩, ⟨30, 30, .w1c, 0⟩, ⟨29, 29, .w1c, 0⟩]
  | .dbgTwptr => [⟨63, 0, .rc, 0⟩]
  | .dbgRfreeze => [⟨63, 0, .rw, 0xFFFFFFFFFFFFFFFF⟩]
  | .dbgRstatu => [⟨31, 31, .ro, 0⟩, ⟨30, 30, .rw, 1⟩, ⟨29, 29, .w1s, 0⟩, ⟨28, 28, .w1s, 0⟩, ⟨27, 16, .rc, 0⟩, ⟨15, 0, .ro, 0⟩]
  | .dbgTctl => [⟨31, 31, .rw, 0⟩]
  | .dbgTdrop => [⟨63, 0, .rc, 0⟩]
  | .dbgRstatc => [⟨31, 31, .ro, 0⟩, ⟨30, 30, .rw, 1⟩, ⟨29, 29, .w1s, 0⟩, ⟨28, 28, .w1s, 0⟩, ⟨27, 16, .rc, 0⟩, ⟨15, 0, .ro, 0⟩]
  | .monCfg => [⟨63, 63, .rw, 0⟩, ⟨62, 62, .rw, 0⟩, ⟨61, 56, .rw, 0⟩, ⟨55, 51, .rw, 0⟩, ⟨50, 50, .rw, 1⟩, ⟨49, 40, .rw, 0⟩, ⟨39, 39, .rw, 1⟩, ⟨38, 27, .rw, 0⟩]
  | .monLbase => [⟨31, 0, .rw, 0⟩]
  | .monCtl => [⟨31, 31, .w1s, 0⟩, ⟨30, 30, .w1s, 0⟩]
  | .monMinmax => [⟨63, 32, .ro, 0x80000000⟩, ⟨31, 0, .ro, 0x7FFFFFFF⟩]
  | .monCount => [⟨63, 0, .ro, 0⟩]
  | .monSum => [⟨63, 0, .ro, 0⟩]
  | .monMissed => [⟨63, 0, .rc, 0⟩]
  | .monBin => [⟨31, 0, .ro, 0⟩]
  | .monCtxcfg => [⟨31, 31, .rw, 1⟩, ⟨4, 0, .rw, 4⟩]
  | .moncCtl => [⟨31, 31, .w1s, 0⟩, ⟨30, 30, .w1s, 0⟩]
  | .moncMinmax => [⟨63, 32, .ro, 0x80000000⟩, ⟨31, 0, .ro, 0x7FFFFFFF⟩]
  | .moncCount => [⟨63, 0, .ro, 0⟩]
  | .moncSum => [⟨63, 0, .ro, 0⟩]
  | .moncMissed => [⟨63, 0, .rc, 0⟩]
  | .moncBin => [⟨31, 0, .ro, 0⟩]
  | .dbgRingc => [⟨63, 0, .ro, 0⟩]
  | .dbgRingu => [⟨63, 0, .ro, 0⟩]

/-- The register of a family with its two indices. -/
structure Reg where
  fam : RegFam
  i : Nat := 0
  j : Nat := 0
  deriving DecidableEq, Repr

/-- The die-local offset of a register. -/
def Reg.off (r : Reg) : Nat :=
  let h := r.fam.shape
  h.base + h.s1 * r.i + h.s2 * (r.j / h.n3) + h.s3 * (r.j % h.n3)

/-- Whether the indices name a register of the family. -/
def Reg.inRange (r : Reg) : Bool :=
  let h := r.fam.shape
  decide (r.i < h.n1) && decide (r.j < h.n2 * h.n3)

/-- Whether a die holds registers of these dies (R10): 0 to 31 CD, 32 to 35 MD, 36 and 37 LD, 38 and 39 KD. -/
def Dies.has (d : Dies) (die : Nat) : Bool :=
  match d with
  | .cd => decide (die < 32)
  | .md => decide (32 ≤ die) && decide (die < 36)
  | .ld => decide (die = 36) || decide (die = 37)
  | .kd => decide (die = 38) || decide (die = 39)
  | .kd0 => decide (die = 38)
  | .all => decide (die < 40)
  | .notld => decide (die < 36) || decide (die = 38) || decide (die = 39)

/-- The register of family `f` at die-local offset `off`, if one lies there. -/
def RegFam.at? (f : RegFam) (off : Nat) : Option Reg :=
  let h := f.shape
  if off < h.base then none
  else
    let d := off - h.base
    let i := if h.n1 = 1 then 0 else d / h.s1
    let d1 := if h.n1 = 1 then d else d % h.s1
    let j2 := if h.n2 = 1 then 0 else d1 / h.s2
    let d2 := if h.n2 = 1 then d1 else d1 % h.s2
    let j3 := if h.n3 = 1 then 0 else d2 / h.s3
    let d3 := if h.n3 = 1 then d2 else d2 % h.s3
    let r : Reg := ⟨f, i, j2 * h.n3 + j3⟩
    if d3 = 0 ∧ i < h.n1 ∧ j2 < h.n2 ∧ j3 < h.n3 then some r else none

/-- The register at a die and offset (R5); a mirrored register of KD0 answers on KD1 too (R272). -/
def regAt (die off : Nat) : Option Reg :=
  RegFam.all.findSome? (fun f =>
    if f.shape.dies.has die || (f.shape.mirror && decide (die = 39)) then f.at? off else none)

/-- The die that holds the register an access on `die` reaches: KD0 for a mirror on KD1 (R272). -/
def Reg.home (r : Reg) (die : Nat) : Nat := if r.fam.shape.mirror then 38 else die

/-- The source units of R212 whose dimension-ordered route passes from input `i` to output `o` of the router of
cluster `c`: inputs 0 N, 1 E, 2 S, 3 W, 4 EDGE, 5 LOCAL; outputs 0 N, 1 E, 2 S, 3 W, 4 EDGE, 5 LAND. A core counts as
one unit, a die port as eight. -/
def arbWeight (c o i : Nat) : Nat :=
  let x := c % 8
  let y := c / 8
  -- die ports sit at (3, 0), (7, 3), (3, 7) and (0, 3)
  let ports : List (Nat × Nat) := [(3, 0), (7, 3), (3, 7), (0, 3)]
  let cnt (p : Nat × Nat → Bool) : Nat := 8 * (ports.filter p).length
  let north := 64 * y + cnt (fun q => decide (q.2 < y))
  let south := 64 * (7 - y) + cnt (fun q => decide (y < q.2))
  let east := 8 * (7 - x) + cnt (fun q => decide (q.2 = y) && decide (x < q.1))
  let west := 8 * x + cnt (fun q => decide (q.2 = y) && decide (q.1 < x))
  let own := cnt (fun q => decide (q = (x, y)))
  let here := match i with
    | 0 => north | 1 => east | 2 => south | 3 => west | 4 => own | _ => 8
  match o with
  | 0 => if y = 0 ∨ i = 0 then 0 else here
  | 1 => if x = 7 ∨ i = 0 ∨ i = 1 ∨ i = 2 then 0 else here
  | 2 => if y = 7 ∨ i = 2 then 0 else here
  | 3 => if x = 0 ∨ i = 0 ∨ i = 2 ∨ i = 3 then 0 else here
  | 4 => if own = 0 ∨ i = 4 then 0 else here
  | _ => here

/-- The reset value of a register of `die` (each register's table; R17 and R526 for LIMIT, R527 for ALLOW, R212 for
NOC_ARBW, R605 for SB7). -/
def Reg.reset (r : Reg) (die : Nat) : Nat :=
  let base := r.fam.flds.foldl (fun a f => a + (f.reset <<< f.lo)) 0
  match r.fam with
  | .pwrLim => base + (if die < 32 then 150 else if die < 36 then 110 else if die < 38 then 95 else 40)
  | .pwrStat => if die < 32 then base + (8192 <<< 32) else base
  | .nocArbw => pack 10 ((List.range 6).map (fun b =>
      arbWeight r.i r.j (match b with | 0 => 0 | 1 => 1 | 2 => 2 | 3 => 3 | 4 => 4 | _ => 5)))
  | .calTrim | .calAcc => if die < 32 then base else base - (0x80 <<< 8)
  | .clkStat => if die = 36 ∨ die = 37 then base - (2 <<< 24) else base
  | .pinSbcfg => if die = 38 ∧ r.i = 7 then base + (6 <<< 28) else base
  | _ => base

/-- What a read returns of a stored value: WO fields and reserved bits read zero (R7). -/
def RegFam.readMask (f : RegFam) : Nat :=
  f.flds.foldl (fun a x => if x.acc = .wo then a else a ||| maskOf x.hi x.lo) 0

/-- The stored value after a write of `w`, by access codes (R7). -/
def RegFam.written (f : RegFam) (old w : Nat) : Nat :=
  f.flds.foldl (fun a x =>
    let o := bits a x.hi x.lo
    let n := bits w x.hi x.lo
    match x.acc with
    | .rw | .wo => setBits a x.hi x.lo n
    | .w1c => setBits a x.hi x.lo (o - (o &&& n))
    | .w1s => setBits a x.hi x.lo (o ||| n)
    | .ro | .rc => a) old

/-- The stored value after a read: RC fields clear (R7). -/
def RegFam.readCleared (f : RegFam) (old : Nat) : Nat :=
  f.flds.foldl (fun a x => if x.acc = .rc then setBits a x.hi x.lo 0 else a) old

/-- Whether a read of the family clears anything. -/
def RegFam.hasRc (f : RegFam) : Bool := f.flds.any (fun x => decide (x.acc = .rc))

end Sys2Proof.Machine
end

