-- ==== Sys2Proof/Machine/Units.lean ====
section
/-!
DEFINITION. The state of one engine, one core, one router (chapters 03 to 07), as plain data. A value that the spec
numbers as bits is a bit vector; counts, indices and times are naturals.
-/

namespace Sys2Proof.Machine

/-- Engine states (R68). -/
inductive EngState where
  | idle | active | faulted | retired
  deriving DecidableEq, Repr

/-- The code of ENG_STATE.STATE (R68). -/
def EngState.code : EngState → Nat
  | .idle => 0 | .active => 1 | .faulted => 2 | .retired => 3

/-- One loaded pass that has not converted yet (R57, R65). -/
structure Pass where
  /-- The enabled cycle of the load. -/
  at_ : Nat
  /-- The 128 elements of the bank. -/
  elems : BitVec 1024
  /-- The block's exponent byte. -/
  e : Nat
  ev : Nat
  g : Nat
  pq : Nat
  /-- Index of the ELD. -/
  pc : Nat
  /-- Issue number of the ELD. -/
  seq : Nat
  deriving DecidableEq, Repr

/-- A test pass that has started (R79): the cycle of slot 1, when it started on hclk, and which check comes next. -/
structure TestRun where
  at_ : Nat
  startHc : Nat
  slot2 : Bool
  /-- It runs for ENG_TV_CTL.FORCE (R91). -/
  force : Bool := false
  deriving DecidableEq, Repr

/-- What a fault found in an engine in its cycle: what another detector of the same cycle still checks (R83). -/
structure FaultCycle where
  at_ : Nat
  /-- The passes that the fault withheld. -/
  passes : List Pass
  test : Option TestRun
  loaded : Bool
  /-- ENG_FAULT_INFO was loaded in this cycle. -/
  first : Bool
  deriving DecidableEq, Repr

/-- A running write command and the cycle of its GO (R74). -/
structure WCmd where
  at_ : Nat
  chunk : Bool
  index : Nat
  data : BitVec 512
  deriving DecidableEq, Repr

/-- One physical engine (R52 to R56, R68 to R83). -/
structure Engine where
  /-- The comb: row i, bit col. Cold reset leaves it undefined (R590): here zero (log entry 20). -/
  comb : Tab CombRow := []
  /-- The scale file: byte j is the BS8 of output j (R54). -/
  scale : BitVec 4096 := 0
  /-- Even parity of each scale byte (R74). -/
  scalePar : BitVec 512 := 0
  /-- The signature of each column, 14 bits (R56). -/
  sig : BitVec 7168 := 0
  sigPar : BitVec 512 := 0
  /-- Row parity: row i, segment s (R55). -/
  rowPar : BitVec 1024 := 0
  state : EngState := .idle
  loaded : Bool := false
  tested : Bool := false
  /-- The record of rows (bits 0 to 127) and chunks (bits 128 to 135) written (R76). -/
  written : BitVec 136 := 0
  /-- Passes in flight, oldest first, at most two. -/
  passes : List Pass := []
  /-- The cycle of the last load or test slot, for the 8 cc spacing of R58. -/
  lastLoad : Option Nat := none
  test : Option TestRun := none
  /-- ENG_TV_CTL.FORCE waits for a test pass of this engine (R91). -/
  forced : Bool := false
  /-- hclk time of the start of the last passed test (R81). -/
  lastPassHc : Nat := 0
  /-- hclk time of the start of the last test pass of any outcome (R81's period). -/
  lastTestHc : Nat := 0
  cmd : Option WCmd := none
  /-- The cycle in which the write port was last used, by a command or a scrub read (R77). -/
  portAt : Nat := 0
  /-- The next scrub row, and the cycle in which it falls due (R82). -/
  scrubRow : Nat := 0
  scrubDue : Nat := 0
  /-- The map entry that named it was cleared while passes were in flight (R69). -/
  leaving : Bool := false
  /-- The cycle of its last fault (R83). -/
  fault : Option FaultCycle := none
  /-- hclk time of its last fault (R575). -/
  lastFaultHc : Option Nat := none
  /-- It faulted a second time within 1 h (R575). -/
  again : Bool := false
  /-- Disabled by fuse (R69). -/
  fused : Bool := false
  deriving DecidableEq, Repr

/-- One partial-queue entry (R97). -/
structure PQ where
  used : Bool := false
  ev : Nat := 0
  g : Nat := 0
  poison : Bool := false
  clamp : Bool := false
  /-- Contributions it holds, one per pass and per VPART. -/
  count : Nat := 0
  /-- The 512 sum words, word j at bits 48 j. -/
  words : BitVec 24576 := 0
  deriving DecidableEq, Repr

/-- An issued engine load that has not started (R96, R139). -/
structure Load where
  seq : Nat
  /-- The logical engine. -/
  l : Nat
  el : Nat
  ex : Nat
  ev : Nat
  g : Nat
  pq : Nat
  pc : Nat
  /-- The cycle from which it has been the oldest (monitor HELD_CC, R623). -/
  at_ : Nat
  deriving DecidableEq, Repr

/-- A mesh flit (R195 to R197): `srcs` and `src` remember which cores' sends it holds (R158). `fab` carries one 64-byte flit
of the package fabric: a response or a request, to a cluster of the die or, with `ext`, to a die port. -/
inductive Flit where
  | red (tag chunk fi : Nat) (poison clamp : Bool) (ev g count : Nat) (payload : BitVec 1024) (bad : Bool)
      (srcs : List Nat)
  | mc (group off len emax : Nat) (payload : BitVec 1024) (bad : Bool) (src : Nat)
  | cr (group ctr amt : Nat)
  | fab (response bad ext : Bool) (dcl dport : Nat) (payload : BitVec 512)
  deriving DecidableEq, Repr

/-- What the send port has still to send, in program order (R149, R198). -/
inductive Job where
  /-- A SEND of a partial-queue entry: issue number, entry, tag, words, index of the SEND. -/
  | pq (seq entry tag words pc : Nat)
  /-- Flits already formed: SUB of R614, group or route, and the flits. -/
  | flits (sub aux : Nat) (fs : List Flit)
  deriving DecidableEq, Repr

/-- What a core is doing: not fetching, stopped by an exception, or running its program (R108 derives the reported
state from this). -/
inductive Run where
  | stopped | exception | active
  deriving DecidableEq, Repr

/-- One core (R97 to R101, R123). -/
structure Core where
  s : Tab Word32 := []
  v : Tab VReg := []
  p : Tab PReg := []
  /-- Arrival counters, landing headers and credit counters. -/
  a : Tab (BitVec 16) := []
  h : Tab Byte := []
  c : Tab Byte := []
  pq : Tab PQ := []
  pc : BitVec 12 := 0
  run : Run := .stopped
  /-- A STOP or HALT waits for issued work (R137). -/
  stopping : Bool := false
  /-- Number of instructions issued: orders loads, sends and passes. -/
  seq : Nat := 0
  loads : List Load := []
  jobs : List Job := []
  /-- Partial-queue entries and issue numbers of passes that a fault has withheld (R83). -/
  withheld : List (Nat × Nat) := []
  /-- The load permit of R100. -/
  lim : Nat := 0
  gated : Bool := true
  /-- The cycle at whose end it gated; it wakes in a later one. -/
  gateT : Option Nat := none
  rampT : Nat := 0
  busyT : Nat := 0
  /-- Cycles in which loads and test slots started, within the last window and the planned slots 2 (R101), ascending. -/
  started : List Nat := []
  /-- CAP as the governor set it (R120). -/
  cap : Nat := 16
  /-- Since the last issue: from when the core is WAITING or HELD, and the hclk cycles of its earlier such stretches (R164). -/
  waitHc : Option Nat := none
  waitAcc : Nat := 0
  /-- Vector registers and partial-queue entries whose parity is wrong (R113). -/
  vBad : List Nat := []
  pqBad : List Nat := []
  /-- The cycle in which the wait of the next instruction began. -/
  waitFrom : Option Nat := none
  /-- CUR of R613. -/
  curLayer : Nat := 0xFFF
  curOp : Nat := 0xFF
  /-- The core's trace queue, at most 8 records (R616). -/
  trace : List (BitVec 256) := []
  afterLoss : Bool := false
  deriving DecidableEq, Repr

/-- The part of a combining slot for one flit index (R207). -/
structure Part where
  /-- Inputs that have delivered: bits 0 to 7 local cores, 8 N, 9 E, 10 S, 11 W. -/
  mask : Nat := 0
  sum : BitVec 1024 := 0
  poison : Bool := false
  clamp : Bool := false
  bad : Bool := false
  mismatch : Bool := false
  ev : Nat := 0
  g : Nat := 0
  count : Nat := 0
  srcs : List Nat := []
  deriving DecidableEq, Repr

/-- A combining slot: the instance that holds it and its tag, its three parts, and the carries out of words 21 and 42
(R206, R207). -/
structure Slot where
  inst : Option Nat := none
  tag : Nat := 0
  p0 : Part := {}
  p1 : Part := {}
  p2 : Part := {}
  c0 : Nat := 0
  c1 : Nat := 0
  deriving DecidableEq, Repr

/-- The arbiter of one output (R211): the channel whose turn is next and, by channel, the input it visits (0 N, 1 E, 2 S, 3 W,
4 EDGE, 5 LOCAL), the flits sent in this visit and the local core served next. -/
structure OutArb where
  turn : Nat := 0
  at_ : Tab Nat := []
  sent : Tab Nat := []
  core : Tab Nat := []
  deriving DecidableEq, Repr

/-- The vector that an input is landing: flits that have come in order, and whether one was BAD (R201). -/
structure VecIn where
  got : Nat := 0
  bad : Bool := false
  deriving DecidableEq, Repr

/-- One router (R191 to R213). -/
structure Router where
  /-- Input queues, keyed 4 × port + channel (0 RED, 1 MC, 2 FQ, 3 FP): ports 0 N, 1 E, 2 S, 3 W, 4 EDGE, 5 + q local core q. -/
  q : Tab (List Flit) := []
  /-- By queue: 0 while its head flit has not been looked at, else 64 + the outputs that have taken it (R200). -/
  seen : Tab Nat := []
  /-- Instance counters keyed 16 × tag + input (R206). -/
  inst : Tab Nat := []
  slots : Tab Slot := []
  /-- The vector now landing, keyed 1,024 × port + group (R201). -/
  vec : Tab VecIn := []
  /-- A flit of the instance now landing on a tag was BAD (R209). -/
  badInst : Tab Bool := []
  /-- The arbiters, by output: 0 N, 1 E, 2 S, 3 W, 4 EDGE, 5 LAND (R211). -/
  arb : Tab OutArb := []
  /-- Flits at the EDGE module that the input buffer has no room for yet (R193). -/
  edgeIn : List Flit := []
  /-- Multicast flits that left at EDGE, with RDIE and RGROUP (R200). -/
  edge : List (Nat × Nat × Flit) := []
  deriving DecidableEq, Repr

end Sys2Proof.Machine
end

