-- ==== Sys2Proof/Machine/State.lean ====
section
/-!
DEFINITION. The state of the package, as plain data, its stops, and the state after reset.
-/

namespace Sys2Proof.Machine

/-- Why a step stops with a fault. -/
inductive Fault where
  /-- Raised by a command whose operand names a die, core, engine, router, port, queue or slot that the package does
  not have (R10, R16, R94): no such event can arise, so the block stops. Safe. -/
  | noSuchUnit
  deriving DecidableEq, Repr

/-- Why a command is refused. -/
inductive Refusal where
  /-- The command has no meaning in this model yet. Safe: nothing can be proved of what it would do. -/
  | notModelled (mnemonic : String)
  deriving DecidableEq, Repr

/-- What one die holds beside its units: its time, its waggle copy (R489), its faults not yet recovered. -/
structure DieSt where
  /-- Enabled core-clock cycles so far. -/
  cc : Nat := 0
  wagValid : Bool := false
  wagV : Word64 := 0
  /-- hclk time and core cycle at which the current step began. -/
  stepHc : Nat := 0
  stepCc : Nat := 0
  /-- Scheduled shortened (−1) and lengthened (+1) steps, by step number (R490). -/
  adj : List (Nat × Int) := []
  /-- Adjustments sent by KD0 that have not arrived yet (R490). -/
  adjIn : List (Nat × Int) := []
  /-- Start value sent by KD0: value and the hclk time of its boundary (R490). -/
  wagStart : Option (Nat × Nat) := none
  /-- Causes (R585) of faults that the reliability engine has not taken yet. -/
  faults : List Nat := []
  /-- hclk time of the last refusal for temperature not yet followed by an acceptance (R525). -/
  tempRefused : Option Nat := none
  heat : Thermal := {}
  /-- Inside the trace window (R612). -/
  inWindow : Bool := false
  ras : Ras := {}
  deriving DecidableEq, Repr

/-- What the last register or memory access returned: a status code of R350 and its data. -/
structure Resp where
  status : Nat := 0
  data : List Byte := []
  deriving DecidableEq, Repr

/-- The package (chapters 01 to 20). -/
structure State where
  /-- The commands that wait, first in first out. -/
  pending : List Instr := []
  /-- Time in housekeeping cycles of 10 ns (R478), which are also the reference cycles of R479. -/
  hc : Nat := 0
  /-- Number of free values drawn (log entries 11, 12 and 14). -/
  draws : Nat := 0
  /-- Registers, keyed die × 2^46 + offset: the exclusive OR of each register's value with its reset value. -/
  csr : Tab Word64 := []
  /-- Every addressed memory of the package (buffers, program stores, HBM), keyed die × 2^46 + offset. -/
  mem : Tab Byte := []
  /-- Stored codewords that hold an error: 1 correctable, 2 not; keyed (die × 2^46 + offset) / 8. -/
  memErr : Tab Nat := []
  engines : Tab Engine := []
  cores : Tab Core := []
  routers : Tab Router := []
  dies : Tab DieSt := []
  fabs : Tab FabDie := []
  /-- Die-link ends, keyed 8 × die + link index (R353). -/
  links : Tab LinkEnd := []
  /-- Ports, keyed 16 × (die − 36) + port. -/
  ports : Tab PortEnd := []
  /-- K_swarm by key slot, as SET_LINK_KEY loaded it into every link die (R466). -/
  linkKeys : Tab (List Byte) := []
  /-- Memory dies, keyed die − 32. -/
  mds : Tab MdSt := []
  /-- Live monitors keyed 16 × die + m, and per context 4,096 + 2 c + j (R623, R627). -/
  monitors : Tab Monitor := []
  /-- Stages of the event rings, keyed 1,024 × die + core, or + 512 + unit (R620). -/
  rings : Tab RingSt := []
  srv : Srv := {}
  host : HostSt := {}
  health : Health := {}
  loaders : List Loader := []
  /-- Golden state of the memory dies, keyed die − 32. -/
  golds : Tab GoldSt := []
  /-- Sealed digests of R402, keyed 2 × set + side (0 west). -/
  sealed_ : Tab (List Byte) := []
  switch : Switch := {}
  sync : Sync := {}
  plat : Plat := {}
  sec : Sec := {}
  collectors : Tab Collector := []
  /-- Monitor shadows, with the keys of `monitors` (R626). -/
  shadows : Tab Monitor := []
  resp : Resp := {}
  /-- The hclk time at which a warm restart is due (R593, R609): at once on a class-E fault. -/
  warmDue : Option Nat := none
  deriving DecidableEq, Repr

/-- The machine right after reset: every register at its reset value, every memory empty, nothing waiting. -/
def State.reset : State := {}

/-- A step's answer. -/
abbrev Out := Host.Outcome State Fault Refusal

end Sys2Proof.Machine
end

