-- ==== Sys2Proof/Machine/Ops.lean ====
section
/-!
DEFINITION. The named operations over registers, memory and units that every meaning uses: register fields, buffer
bytes, event rings (R619 to R621), monitors (R624 to R626), trace records (R614, R616), fault reports (R566, R567) and
core exceptions (R161, R162).
-/

namespace Sys2Proof.Machine

/-- The key of a byte of the package: die and die-local offset (R5). -/
def pkgAddr (die off : Nat) : Nat := die * 2 ^ 46 + off

/-! ## Registers -/

/-- The value of a register as hardware holds it. -/
def State.reg (s : State) (die : Nat) (f : RegFam) (i : Nat := 0) (j : Nat := 0) : Nat :=
  (Tab.get 0#64 s.csr (pkgAddr die (Reg.off ⟨f, i, j⟩)) ^^^ BitVec.ofNat 64 (Reg.reset ⟨f, i, j⟩ die)).toNat

/-- Load a register. -/
def State.setReg (s : State) (die : Nat) (f : RegFam) (v : Nat) (i : Nat := 0) (j : Nat := 0) : State :=
  { s with csr := Tab.set 0#64 s.csr (pkgAddr die (Reg.off ⟨f, i, j⟩))
                    (BitVec.ofNat 64 v ^^^ BitVec.ofNat 64 (Reg.reset ⟨f, i, j⟩ die)) }

/-- Field [hi:lo] of a register. -/
def State.fld (s : State) (die : Nat) (f : RegFam) (hi lo : Nat) (i : Nat := 0) (j : Nat := 0) : Nat :=
  bits (s.reg die f i j) hi lo

/-- Load field [hi:lo] of a register. -/
def State.setFld (s : State) (die : Nat) (f : RegFam) (hi lo v : Nat) (i : Nat := 0) (j : Nat := 0) : State :=
  s.setReg die f (setBits (s.reg die f i j) hi lo v) i j

/-- Add to a counter field that saturates at all ones. -/
def State.addFld (s : State) (die : Nat) (f : RegFam) (hi lo n : Nat) (i : Nat := 0) (j : Nat := 0) : State :=
  s.setFld die f hi lo (satAdd (hi + 1 - lo) (s.fld die f hi lo i j) n) i j

/-- Set bits of a register. -/
def State.orReg (s : State) (die : Nat) (f : RegFam) (m : Nat) (i : Nat := 0) (j : Nat := 0) : State :=
  s.setReg die f (s.reg die f i j ||| m) i j

/-! ## Memory -/

/-- The canonical form of memory: addresses strictly rising, no byte listed that reads as an unlisted one. -/
def Memory.wf (m : Tab Byte) : Bool := Tab.wf (fun _ => 0#8) m

/-- The byte at a package address; a byte that nothing has written reads zero (log entry 21). -/
def State.readByte (s : State) (a : Nat) : Byte := Tab.get 0#8 s.mem a

/-- The `n` bytes from a package address on. -/
def State.readAt (s : State) (a n : Nat) : List Byte := (List.range n).map (fun i => s.readByte (a + i))

/-- The `n` bytes of a die's local space from `off` on. -/
def State.readMem (s : State) (die off n : Nat) : List Byte := s.readAt (pkgAddr die off) n

/-- Write bytes into a memory table. -/
def Memory.write (m : Tab Byte) : Nat → List Byte → Tab Byte
  | _, [] => m
  | a, b :: t => Memory.write (Tab.set 0#8 m a b) (a + 1) t

/-- The codewords of 8 bytes that a write covers whole lose their stored error (R113). -/
def State.clearErr (s : State) (a n : Nat) : State :=
  { s with memErr := Tab.keep (fun w => !(decide (a ≤ 8 * w) && decide (8 * w + 8 ≤ a + n))) s.memErr }

/-- Write bytes from a package address on. -/
def State.writeAt (s : State) (a : Nat) (bs : List Byte) : State :=
  { s with mem := Memory.write s.mem a bs }.clearErr a bs.length

/-- Write bytes of a die's local space from `off` on. -/
def State.writeMem (s : State) (die off : Nat) (bs : List Byte) : State := s.writeAt (pkgAddr die off) bs

/-- The worst stored error among the codewords that `n` bytes touch, and the address of the first of that kind:
0 none, 1 correctable, 2 not. -/
def State.worstErr (s : State) (a n : Nat) : Nat × Nat :=
  s.memErr.foldl (fun r e =>
    if decide (a < 8 * e.1 + 8) && decide (8 * e.1 < a + n) && decide (r.1 < e.2) then (e.2, 8 * e.1) else r) (0, 0)

/-- How many correctable codewords `n` bytes touch. -/
def State.countCe (s : State) (a n : Nat) : Nat :=
  (s.memErr.filter (fun e => decide (a < 8 * e.1 + 8) && decide (8 * e.1 < a + n) && decide (e.2 = 1))).length

/-! ## Units -/

def State.core (s : State) (cd k : Nat) : Core := Tab.get {} s.cores (512 * cd + k)
def State.setCore (s : State) (cd k : Nat) (c : Core) : State :=
  { s with cores := Tab.set {} s.cores (512 * cd + k) c }
def State.engine (s : State) (cd k p : Nat) : Engine := Tab.get {} s.engines (17 * (512 * cd + k) + p)
def State.setEngine (s : State) (cd k p : Nat) (e : Engine) : State :=
  { s with engines := Tab.set {} s.engines (17 * (512 * cd + k) + p) e }
def State.router (s : State) (cd c : Nat) : Router := Tab.get {} s.routers (64 * cd + c)
def State.setRouter (s : State) (cd c : Nat) (r : Router) : State :=
  { s with routers := Tab.set {} s.routers (64 * cd + c) r }
def State.die (s : State) (d : Nat) : DieSt := Tab.get {} s.dies d
def State.setDie (s : State) (d : Nat) (x : DieSt) : State := { s with dies := Tab.set {} s.dies d x }

/-- The die whose waggle generator is the package's: KD0, or KD1 after its takeover (R490, R580). -/
def State.generator (s : State) : Nat := if s.plat.lostKd = 39 then 39 else 38

def State.fab (s : State) (d : Nat) : FabDie := Tab.get {} s.fabs d
def State.setFab (s : State) (d : Nat) (x : FabDie) : State := { s with fabs := Tab.set {} s.fabs d x }
def State.link (s : State) (d l : Nat) : LinkEnd := Tab.get {} s.links (8 * d + l)
def State.setLink (s : State) (d l : Nat) (x : LinkEnd) : State := { s with links := Tab.set {} s.links (8 * d + l) x }
def State.port (s : State) (d p : Nat) : PortEnd := Tab.get {} s.ports (16 * (d - 36) + p)
def State.setPort (s : State) (d p : Nat) (x : PortEnd) : State :=
  { s with ports := Tab.set {} s.ports (16 * (d - 36) + p) x }
def State.md (s : State) (d : Nat) : MdSt := Tab.get {} s.mds (d - 32)
def State.setMd (s : State) (d : Nat) (x : MdSt) : State := { s with mds := Tab.set {} s.mds (d - 32) x }

/-- The die's clock is at least at cycle `t`. -/
def State.toCc (s : State) (d t : Nat) : State :=
  s.setDie d { s.die d with cc := max (s.die d).cc t }

/-- The package's time is at least `h`. -/
def State.toHc (s : State) (h : Nat) : State := { s with hc := max s.hc h }

/-- Offset of a core's buffer (R95). -/
def coreBuf (k : Nat) : Nat := 0x10000 * k
/-- Offset of a cluster's buffer (R95). -/
def clusterBuf (c : Nat) : Nat := 0x2000000 + 0x100000 * c
/-- Offset of a core's program store (R95). -/
def progStore (k : Nat) : Nat := 0x8000000 + 0x8000 * k

/-! ## Free values -/

/-- A fresh undefined value (log entry 12). -/
def State.draw (s : State) : Word64 × State := (Config.undefinedValue s.draws, { s with draws := s.draws + 1 })

/-- A fresh random number (log entry 11). -/
def State.drawRandom (s : State) : BitVec 512 × State := (Config.random s.draws, { s with draws := s.draws + 1 })

/-- What the last access returned. -/
def State.respond (s : State) (status : Nat) (data : List Byte := []) : State :=
  { s with resp := { status := status, data := data } }

/-- A register access that a rule refuses: no effect, reads zero, an access error (R6, R448: code 0x2). -/
def State.accessError (s : State) : State := s.respond 2

/-! ## Event rings (R618 to R621) -/

/-- Whose ring: a core's, or that of a numbered unit of the die (R618). -/
inductive Ring where
  | core (k : Nat)
  | unit (u : Nat)
  deriving DecidableEq, Repr

/-- Cycles of the unit's clock since its die's waggle copy took its value: cc on a CD or MD, kc on a KD, fc on an LD
(R619). -/
def State.delta (s : State) (die : Nat) : Nat :=
  let d := s.die die
  min 0xFFFF (if die < 36 then d.cc - d.stepCc else if die < 38 then 8 * (s.hc - d.stepHc) else 12 * (s.hc - d.stepHc))

def Ring.stat (r : Ring) : RegFam × Nat :=
  match r with
  | .core k => (.dbgRstatc, k)
  | .unit u => (.dbgRstatu, u)

/-- The cycle that a unit of a die is in: cc on a CD or MD, fc on an LD, kc on a KD (R619, R620). -/
def State.unitCycle (s : State) (die : Nat) : Nat :=
  if die < 36 then (s.die die).cc else if die < 38 then 8 * s.hc else 12 * s.hc

/-- The stamp of an event of this cycle: bits 55:0 of word 0 (R619). -/
def State.stampOf (s : State) (die : Nat) : Nat := ((s.die die).wagV.toNat % 2 ^ 40) <<< 16 + s.delta die

def Ring.key (die : Nat) (r : Ring) : Nat := 1024 * die + (match r with | .core k => k | .unit u => 512 + u)
def State.ringSt (s : State) (die : Nat) (r : Ring) : RingSt := Tab.get {} s.rings (r.key die)
def State.setRing (s : State) (die : Nat) (r : Ring) (x : RingSt) : State := { s with rings := Tab.set {} s.rings (r.key die) x }

/-- A ring is frozen (R621). -/
def State.frozen (s : State) (die : Nat) (r : Ring) : Bool := decide (s.fld die r.stat.1 31 31 r.stat.2 = 1)

/-- The registers of a ring's entries. -/
def Ring.fam (r : Ring) : RegFam := match r with | .core _ => .dbgRingc | .unit _ => .dbgRingu

/-- Write one entry into a ring (R619, R620). -/
def State.ringWrite (s : State) (die : Nat) (r : Ring) (stamp code data : Nat) : State :=
  let i := r.stat.2
  let w := s.fld die r.stat.1 15 0 i
  let seq := w % 256
  let w0 := seq <<< 56 + stamp
  let w1 := seq <<< 56 + (code % 256) <<< 48 + data % 2 ^ 48
  ((s.setReg die r.fam w0 i (2 * (w % 64))).setReg die r.fam w1 i (2 * (w % 64) + 1)).setFld die r.stat.1 15 0 (w + 1) i

/-- Write a staged event, behind the GAP entry that counts what was lost before it (R620). -/
def State.ringPut (s : State) (die : Nat) (r : Ring) (e : Staged) : State :=
  let s := if e.gap = 0 then s else s.ringWrite die r e.stamp 0x3D (min e.gap 0xFFFF)
  s.ringWrite die r e.stamp e.code e.data

/-- Write everything that is staged. -/
def State.ringFlush (s : State) (die : Nat) (r : Ring) : State :=
  let x := s.ringSt die r
  (x.stage.foldl (fun s e => s.ringPut die r e) s).setRing die r { x with stage := [], fresh := 0 }

/-- Whether the writing of an entry freezes its ring: with AUTO set, an EXCEPTION or a RECOVERY of a fault cause (R621). -/
def Staged.freezes (e : Staged) : Bool :=
  decide (e.code = 0x07) || (decide (e.code = 0x16) && decide (bits e.data 7 3 ≠ 0) && decide (bits e.data 7 3 ≠ 0x0E))

/-- Freeze a ring: what is staged is written, then a FREEZE entry with its reason, then nothing more (R621). -/
def State.ringFreeze (s : State) (die : Nat) (r : Ring) (reason : Nat) : State :=
  if s.frozen die r then s
  else
    let s := s.ringFlush die r
    (s.ringWrite die r (s.stampOf die) 0x3E reason).setFld die r.stat.1 31 31 1 r.stat.2

/-- `n` cycles of a ring: one entry a cycle, a GAP entry in a cycle of its own; an entry that freezes the ring ends them
(R620, R621). -/
def State.ringPass (s : State) (die : Nat) (r : Ring) : Nat → State
  | 0 => s
  | n + 1 =>
    let x := s.ringSt die r
    match x.stage with
    | [] => s
    | e :: l =>
      if e.gap ≠ 0 then
        ((s.ringWrite die r e.stamp 0x3D (min e.gap 0xFFFF)).setRing die r { x with stage := { e with gap := 0 } :: l }).ringPass die r n
      else
        let s := (s.ringWrite die r e.stamp e.code e.data).setRing die r { x with stage := l, fresh := min x.fresh l.length }
        if e.freezes && decide (s.fld die r.stat.1 30 30 r.stat.2 = 1) then s.ringFreeze die r 2 else s.ringPass die r n

/-- Everything staged has been written by the time that software looks at a ring. -/
def State.ringSettle (s : State) (die : Nat) (r : Ring) : State := s.ringPass die r 9

/-- Stage an event among those of its cycle in ascending CODE order; the stage holds 4, and what does not fit is lost (R620). -/
def RingSt.put (x : RingSt) (e : Staged) : RingSt :=
  let old := x.stage.take (x.stage.length - x.fresh)
  let new := x.stage.drop (x.stage.length - x.fresh)
  let new := new.filter (fun y => decide (y.code ≤ e.code)) ++ [{ e with gap := x.lost }] ++ new.filter (fun y => decide (e.code < y.code))
  let all := old ++ new
  { x with
    stage := all.take 4
    fresh := min new.length (4 - old.length)
    code := e.code
    lost := match all[4]? with | some y => 1 + y.gap | none => 0 }

/-- Record an event: counted in MISSED while the ring is frozen, else staged (R620, R621). An event of the same cycle as the
last has a higher CODE, or is `join`ed to it; any other is of a later cycle (log entry 184). -/
def State.ring (s : State) (die : Nat) (r : Ring) (code data : Nat) (join : Bool := false) : State :=
  let e : Staged := { stamp := s.stampOf die, code, data }
  let now := s.unitCycle die
  let x := s.ringSt die r
  if x.cyc = now ∧ x.code < 256 ∧ (join ∨ x.code < code) ∧ !s.frozen die r then s.setRing die r (x.put e)
  else
    let s := if s.frozen die r then s else s.ringPass die r (min 9 (max 1 (now - x.cyc)))
    if s.frozen die r then s.addFld die r.stat.1 27 16 1 r.stat.2
    else s.setRing die r ({ s.ringSt die r with fresh := 0, cyc := now }.put e)

/-! ## Monitors (R623 to R627) -/

/-- The bin of a sample (R625). -/
def monBin (log : Bool) (scale : Nat) (lbase x : Int) : Nat :=
  if !log then
    let d := x - lbase
    if d < 0 then 0 else min 63 (1 + d.toNat / 2 ^ scale)
  else if x < (2 ^ scale : Nat) then 0
  else
    let n := x.toNat
    let e := Nat.log2 n
    min 63 (1 + 4 * (e - scale) + (4 * n / 2 ^ e - 4))

/-- One sample taken into a monitor; counts saturate (R626, R628). -/
def Monitor.take (m : Monitor) (b : Nat) (x : Int) : Monitor :=
  { m with
    count := satAdd 64 m.count 1
    sum := max (-9223372036854775808) (min 9223372036854775807 (m.sum + x))
    lo := min m.lo x
    hi := max m.hi x
    bins := Tab.upd 0 m.bins b (fun c => satAdd 32 c 1) }

/-- Cycle `t` of the die has come, one later at least than the last: a waiting sample is taken in each cycle since (R624). Also
whether cycle `t` itself is still free. -/
def Monitor.pass (m : Monitor) (t : Nat) : Monitor × Bool :=
  let n := max 1 (t - m.cyc)
  let ready := m.wait.take n
  ({ ready.foldl (fun m x => m.take x.1 x.2) m with wait := m.wait.drop n, cyc := max t m.cyc }, decide (m.wait.length < n))

/-- A sample arrives in cycle `t` from a unit, and whether it is missed (R624): at most one is taken per cycle, four wait.
Samples of one cycle come in ascending unit order; one from a unit that is not above the last is of a later cycle (log entry
182). -/
def Monitor.offer (m : Monitor) (t unit b : Nat) (x : Int) : Monitor × Bool :=
  if m.cyc = t ∧ m.unit < unit then
    if m.wait.length < 4 then ({ m with wait := m.wait ++ [(b, x)], unit }, false) else ({ m with unit }, true)
  else
    let (m, free) := m.pass t
    if free then ({ m.take b x with unit }, false) else ({ m with wait := m.wait ++ [(b, x)], unit }, false)

/-- A sample `x` from source `src` of a die, offered to each of its monitors; a context or layer of `none` passes only
monitors whose filter is off. `unit`: core k is k + 1, every other unit 0. -/
def State.sample (s : State) (die src : Nat) (x : Int) (layer ctx : Option Nat := none) (unit : Nat := 0) : State :=
  (List.range 16).foldl (fun s m =>
    let cfg := s.reg die .monCfg m
    let passCtx := bit cfg 50 || decide (ctx = some (bits cfg 49 40))
    let passLayer := bit cfg 39 || decide (layer = some (bits cfg 38 27))
    -- R623 applies the context filter only to the sources that name it, and likewise the layer filter
    let useCtx := decide (src = 4) || decide (8 ≤ src)
    let useLayer := decide (src ≤ 4)
    if bit cfg 63 && decide (bits cfg 61 56 = src) && (!useCtx || passCtx) && (!useLayer || passLayer) then
      let b := monBin (bit cfg 62) (bits cfg 55 51) (signed 32 (s.reg die .monLbase m)) x
      let (mon, missed) := (Tab.get {} s.monitors (16 * die + m)).offer (s.unitCycle die) unit b x
      let s := { s with monitors := Tab.set {} s.monitors (16 * die + m) mon }
      if missed then s.addFld die .monMissed 63 0 1 m else s
    else s) s

/-- Samples that wait when their die is reset are discarded (R626). -/
def Monitor.afterReset (m : Monitor) : Monitor := { m with wait := [] }

/-- A sample of a context's TTFT (`kind` 0) or TBT (`kind` 1) monitor, always in log mode (R627). -/
def State.sampleCtx (s : State) (ctx kind : Nat) (x : Int) : State :=
  let cfg := s.reg 38 .monCtxcfg
  if bit cfg 31 then
    let b := monBin true (bits cfg 4 0) 0 x
    { s with monitors := Tab.upd {} s.monitors (4096 + 2 * ctx + kind) (fun mon => mon.take b x) }
  else s

/-! ## Trace records (R611 to R616) -/

/-- Whether a core emits trace records of `kind` now (R611, R612). -/
def State.traced (s : State) (cd k kind : Nat) : Bool :=
  let mode := s.fld cd .dbgTcfg 31 30
  let on := s.fld cd .dbgTctl 31 31 k = 1 ∧ mode ≠ 0 ∧ (s.die cd).inWindow
  decide on && (match kind with
    | 1 => true
    | 5 => decide (2 ≤ mode)
    | _ => decide (mode % 2 = 1))

/-- The 32 bytes of a trace record (R614). -/
def traceRecord (v delta kind epoch cd k layer op sub pcf aux payload : Nat) : BitVec 256 :=
  BitVec.ofNat 256 (v % 2 ^ 64 + delta <<< 64 + kind <<< 80 + epoch <<< 88 + (cd * 512 + k) <<< 96 + layer <<< 112 +
    op <<< 128 + sub <<< 136 + pcf <<< 144 + aux <<< 160 + payload <<< 192)

/-- Emit a record with the given identifier pair; a full core queue of 8 drops it, counts it and marks the next
(R616). -/
def State.traceAs (s : State) (cd k kind sub pc aux payload layer op : Nat) : State :=
  if s.traced cd k kind then
    let c := s.core cd k
    if 8 ≤ c.trace.length then
      (s.setCore cd k { c with afterLoss := true }).addFld cd .dbgTdrop 63 0 1 k
    else
      let replay := s.fld cd .rasStat 63 61 = 5
      let pcf := pc % 4096 + 0x4000 * b2n (decide replay) + 0x8000 * b2n c.afterLoss
      let r := traceRecord (s.die cd).wagV.toNat (s.delta cd) kind (s.fld cd .dbgTcfg 7 0) cd k layer op sub pcf aux payload
      s.setCore cd k { c with trace := c.trace ++ [r], afterLoss := false }
  else s

/-- Emit a record with the core's CUR pair (R613). -/
def State.traceCur (s : State) (cd k kind sub pc aux payload : Nat) : State :=
  s.traceAs cd k kind sub pc aux payload (s.core cd k).curLayer (s.core cd k).curOp

/-! ## Fault reports (R566, R567) -/

/-- A class-A fault reported to a die's reliability engine; it waits there for FAULT_RECOVERY. -/
def State.faultA (s : State) (die cause : Nat) : State :=
  s.setDie die { s.die die with faults := (s.die die).faults ++ [cause] }

/-- ALERT_N is asserted: some cause stands in RAS_ALERT or RAS_ALERTC (R588). -/
def State.alerted (s : State) : Bool := decide (s.reg 38 .rasAlert ≠ 0) || decide (s.reg 38 .rasAlertc &&& 0x17FF ≠ 0)

/-- Set bits of RAS_ALERT or RAS_ALERTC; an assertion of ALERT_N sends the BMC one in-band interrupt (R588, R601). -/
def State.raiseAlert (s : State) (f : RegFam) (m : Nat) : State :=
  let t := s.orReg 38 f m
  { t with plat := { t.plat with ibi := t.plat.ibi + b2n (!s.alerted && t.alerted) } }

/-- Record causes in RAS_ALERTC, and so assert ALERT_N (R588). -/
def State.alert (s : State) (b : Nat) : State := s.raiseAlert .rasAlertc (2 ^ b)

/-- A warm restart falls due at once, as a fault's (R593, R609). -/
def State.restartNow (s : State) : State :=
  { s with
    warmDue := some (match s.warmDue with | some d => min d s.hc | none => s.hc)
    plat := { s.plat with warmWhy := 3 } }

/-- A class-E fault of a die: FAILED with its cause, ALERT_N, and a warm restart at once (R566, R567, R593). -/
def State.classE (s : State) (die cause : Nat) : State :=
  ((((s.setFld die .rasStat 63 61 7).setFld die .rasStat 60 56 cause).raiseAlert .rasAlert (2 ^ die)).alert 9).restartNow

/-! ## First-error records -/

/-- Set W1C error bits of a register and, if it was all zero, load the record beside it (R87, R225, R268, R376). -/
def State.firstError (s : State) (die : Nat) (f info : RegFam) (m record : Nat) (i : Nat := 0) (j : Nat := 0) : State :=
  let was := s.reg die f i j
  let s := s.orReg die f m i j
  if was = 0 then s.setReg die info record i j else s

/-! ## Core exceptions -/

/-- CORE_EXC after exceptions of one cycle: their bits, and, for the first of a stretch in which the core does not yet
stand in EXCEPTION, the lowest code as its cause (R161, R162). -/
def State.loadExc (s : State) (cd k : Nat) (codes : List Nat) : State :=
  let exc := s.reg cd .coreExc k
  let t := s.setReg cd .coreExc (exc ||| codes.foldl (fun a c => a ||| 2 ^ (c - 1)) 0) k
  if exc / 2 ^ 31 % 2 = 0 ∧ (s.core cd k).run ≠ .exception then
    (t.setFld cd .coreExc 31 31 1 k).setFld cd .coreExc 28 24 (codes.foldl min 0x1F) k
  else t

/-- A core that runs enters EXCEPTION; `pc` is the index that CORE_STATUS.PC then names (R162). A HALT that still waits for
its work does not lead out of EXCEPTION; a STOP does (R163). -/
def State.enterExc (s : State) (cd k pc : Nat) : State :=
  let c := s.core cd k
  if c.run = .active then
    s.setCore cd k { c with
      run := .exception, pc := BitVec.ofNat 12 pc, waitFrom := none,
      stopping := c.stopping && bit (s.reg cd .coreCtl k) 30 }
  else s

/-- An exception's trace record and fault report: every program exception but WAIT_TIMEOUT and BUFFER_FAULT is class E
(R566). -/
def State.reportExc (s : State) (cd k pc code : Nat) : State :=
  let s := s.traceCur cd k 6 code pc 0 0
  if code = 0x0F then s.faultA cd 4
  else if code = 0x10 then s.faultA cd 2
  else s.classE cd 0x0A

/-- Raise exceptions of one cycle in a core (R161, R162): `codes` of R161. -/
def State.raiseCore (s : State) (cd k : Nat) (codes : List Nat) (pc : Nat) : State :=
  if codes = [] then s
  else
    let s := (s.loadExc cd k codes).enterExc cd k pc
    let s := codes.zipIdx.foldl (fun s x => s.ring cd (.core k) 0x07 (pc % 4096 + x.1 <<< 16) (decide (x.2 ≠ 0))) s
    codes.foldl (fun s code => s.reportExc cd k pc code) s

end Sys2Proof.Machine
end

