-- ==== Sys2Proof/Machine/Engine.lean ====
section
/-!
DEFINITION. The compute-in-memory engine (chapter 03) and the load permit of its core (R96 to R102): loads, passes,
write commands, test passes, scrub, the logical map.
-/

namespace Sys2Proof.Machine

/-! ## What a pass computes -/

/-- Cell (row, column) of a comb. -/
def Engine.cell (e : Engine) (row col : Nat) : Nat := b2n ((Tab.get 0 e.comb row).getLsbD col)

/-- Element i of a block, signed (R29). -/
def elemAt (elems : BitVec 1024) (i : Nat) : Int := signed 8 (elem elems.toNat 8 i)

/-- Outputs of a weight code: 0 T1, 1 B1, 2 Q2, 3 W4 (R52). -/
def outputs (code : Nat) : Nat :=
  match code with | 0 => 256 | 1 => 512 | 2 => 128 | _ => 64

/-- Columns per output (R52). -/
def colsPer (code : Nat) : Nat :=
  match code with | 0 => 2 | 1 => 1 | 2 => 4 | _ => 8

/-- The largest |c| of R35. -/
def largestC (code : Nat) : Nat :=
  match code with | 0 => 16384 | 1 => 16384 | 2 => 49152 | _ => 131072

/-- The combiner of R60 on the sums `S` of an output's columns; `n` is the popcount term of B1. -/
def combine (code : Nat) (S : Nat → Int) (n : Int) (j : Nat) : Int :=
  match code with
  | 0 => S (2 * j) - S (2 * j + 1)
  | 1 => 2 * S j - n
  | 2 => (S (4 * j) - S (4 * j + 2)) + 2 * (S (4 * j + 1) - S (4 * j + 3))
  | _ => (S (8 * j) - S (8 * j + 4)) + 2 * (S (8 * j + 1) - S (8 * j + 5)) +
      4 * (S (8 * j + 2) - S (8 * j + 6)) + 8 * (S (8 * j + 3) - S (8 * j + 7))

/-- Σ over the 128 rows of cell × x_i in one column. -/
def Engine.colSum (e : Engine) (x : Nat → Int) (col : Nat) : Int :=
  sumInt ((List.range 128).map (fun i => if e.cell i col = 1 then x i else 0))

/-- Σ x_i over the 128 rows. -/
def rowSum (x : Nat → Int) : Int := sumInt ((List.range 128).map x)

/-- The column integer c_j of R35 (with R27 for B1). -/
def Engine.outputC (e : Engine) (code : Nat) (x : Nat → Int) (j : Nat) : Int :=
  combine code (e.colSum x) (rowSum x) j

/-- Bit k of element i as the row driver presents it in plane k (R57). -/
def planeBit (elems : BitVec 1024) (k i : Nat) : Int := if elems.getLsbD (8 * i + k) then 1 else 0

/-- d_k of R60: the combiner on the tree counts of plane k. -/
def Engine.planeD (e : Engine) (code : Nat) (elems : BitVec 1024) (j k : Nat) : Int :=
  combine code (e.colSum (planeBit elems k)) (rowSum (planeBit elems k)) j

/-- The accumulator after plane 7 (R61): plane 7 weighs −2^7. -/
def Engine.planeAcc (e : Engine) (code : Nat) (elems : BitVec 1024) (j : Nat) : Int :=
  sumInt ((List.range 7).map (fun k => (2 ^ k : Nat) * e.planeD code elems j k)) - 128 * e.planeD code elems j 7

/-- BS8 byte j of the scale file (R54). -/
def Engine.bs8 (e : Engine) (j : Nat) : Nat := elem e.scale.toNat 8 j

/-- The partial of output j and its CLAMP (R38, R62, R64), from the column integer c. -/
def Engine.partialOf (e : Engine) (ps : Pass) (j : Nat) (c : Int) : Int × Bool :=
  let b := e.bs8 j
  if ps.e = 0xFF ∨ b = 0 then (0, false)
  else
    let x : Int := ((b / 8 : Nat) : Int) - 18 + ((ps.e : Int) - 127)
    alignPartial (c * ((8 + b % 8 : Nat) : Int)) (x - ((ps.ev : Int) - 512)) ps.g

/-- The sum words of two entries added word by word, modulo 2^48 (R97). -/
def addWords (a : BitVec 24576) (ps : List Int) (from_ : Nat) : BitVec 24576 :=
  let lo := pack 48 ((List.range ps.length).map (fun i =>
    unsigned 48 (signed 48 (elem a.toNat 48 (from_ + i)) + ps.getD i 0)))
  BitVec.ofNat 24576 (setBits a.toNat (48 * (from_ + ps.length) - 1) (48 * from_) lo)

/-- What is written into an entry by one pass or one VPART: its EV and G, or none if its header differs (R97, R98). -/
def PQ.accept (q : PQ) (ev g : Nat) (ps : List Int) (from_ : Nat) (poison clamp : Bool) : Option PQ :=
  if q.used ∧ (q.ev ≠ ev ∨ q.g ≠ g) then none
  else some { used := true, ev := ev, g := g, poison := q.poison || poison, clamp := q.clamp || clamp,
              count := q.count + 1, words := addWords q.words ps from_ }

/-! ## Maps and permits -/

/-- ENG_MAPL entry: EN and PHYS (R90). -/
def State.mapl (s : State) (cd k l : Nat) : Bool × Nat :=
  let v := s.reg cd .engMapl k l
  (bit v 31, bits v 4 0)

/-- The logical engine whose enabled entry names a physical one, if any (R85). -/
def State.namedBy (s : State) (cd k p : Nat) : Option Nat :=
  (List.range 16).find? (fun l => (s.mapl cd k l).1 && decide ((s.mapl cd k l).2 = p))

/-- Loads and test slots started in the eight cycles up to `t` (R100). -/
def Core.startedBy (c : Core) (t : Nat) : Nat :=
  (c.started.filter (fun x => decide (x ≤ t) && decide (t < x + 8))).length

/-- A gated core with a load or test slot waiting wakes, not in the cycle at whose end it gated (R100; a test slot counts as
a load under R101, log entry 30). -/
def Core.wake (c : Core) (t : Nat) : Core :=
  if c.gated && decide (c.gateT ≠ some t) then { c with gated := false, lim := min c.cap 2, rampT := t, busyT := t } else c

/-- The permit of R100 in cycle `t`. -/
def Core.permits (c : Core) (t : Nat) : Bool := decide (c.startedBy t + 1 ≤ c.lim)

/-- A number into an ascending list. -/
def insertUp (x : Nat) : List Nat → List Nat
  | [] => [x]
  | y :: t => if x < y then x :: y :: t else y :: insertUp x t

/-- A load or the first slot of a test started in cycle `t` (R100; a test slot counts for the idle limit too, log entry 30). -/
def Core.noteStart (c : Core) (t : Nat) : Core :=
  { c with started := insertUp t (c.started.filter (fun x => decide (t < x + 16))), busyT := max c.busyT t }

/-- busy_t of R100 in cycle `t`: second test slots that have started by then count, and so do those that start before the
idle limit is reached. -/
def Core.busyUpTo (c : Core) (idle t : Nat) : Nat :=
  c.started.foldl (fun b x => if x ≤ max t (b + idle - 1) then max b x else b) c.busyT

/-- R58: a load comes at least 8 cc after the previous one of the engine. -/
def Engine.freeAt (e : Engine) (t : Nat) : Bool :=
  match e.lastLoad with
  | none => true
  | some u => decide (u + 8 ≤ t)

/-- More than 100 ms since the start of the last passed test pass (R81). -/
def Engine.overdue (e : Engine) (h : Nat) : Bool := decide (e.lastPassHc + 10000000 < h)

/-! ## Faults of an engine -/

/-- FORCE clears when no forced engine is left that has not run; an engine that faults has none to run any more (R91, log
entry 161). -/
def State.forceDone (s : State) (cd k : Nat) : State :=
  if (List.range 17).any (fun p => (s.engine cd k p).forced) then s else s.setFld cd .engTvCtl 31 31 0 k

/-- The engine as a detector of cycle `t` finds it: in the cycle of a fault, as it was before it (R83). -/
def Engine.detected (e : Engine) (t : Nat) : Engine :=
  match e.fault with
  | some f => if f.at_ = t ∧ e.state = .faulted then
      { e with passes := e.passes ++ f.passes, test := f.test, loaded := f.loaded } else e
  | none => e

/-- A fault of R83 and R86: each kind (bit of ENG_FAULT) with its row and column. In its cycle t the engine enters FAULTED,
loses LOADED and its record, and its passes that convert in t or later are withheld; a RETIRED engine stays RETIRED. A
running write command runs on to its end (R74). A fault of a FAULTED engine is another entry into FAULTED, unless it comes
in the cycle of the last one: then its bits join that one's, and ENG_FAULT_INFO keeps the lowest (log entry 160). The
fault is reported as class A. -/
def State.engineFault (s : State) (cd k p : Nat) (kinds : List (Nat × Nat × Nat)) : State :=
  match kinds with
  | [] => s
  | k0 :: rest =>
    let t := (s.die cd).cc
    let lowest := rest.foldl (fun a b => if b.1 < a.1 then b else a) k0
    let m := kinds.foldl (fun a b => a ||| 2 ^ b.1) 0
    let info := 2 ^ 31 + lowest.1 <<< 28 + lowest.2.1 <<< 16 + lowest.2.2
    let e := s.engine cd k p
    match e.fault.filter (fun f => decide (f.at_ = t) && decide (e.state = .faulted)) with
    | some f =>
      let s := s.orReg cd .engFault m k p
      if f.first ∧ lowest.1 < s.fld cd .engFaultInfo 30 28 k p then s.setReg cd .engFaultInfo info k p else s
    | none =>
      let first := decide (s.reg cd .engFault k p = 0)
      let s := s.firstError cd .engFault .engFaultInfo m info k p
      let again := match e.lastFaultHc with
        | some h => decide (s.hc < h + 360000000000)
        | none => false
      let late := e.passes.filter (fun ps => decide (t ≤ ps.at_ + 13))
      let c := s.core cd k
      let s := s.setCore cd k { c with withheld := c.withheld ++ late.map (fun ps => (ps.pq, ps.seq)) }
      let s := s.setEngine cd k p { e with
        state := if e.state = .retired then .retired else .faulted
        loaded := false, written := 0, passes := e.passes.filter (fun ps => decide (ps.at_ + 13 < t)), test := none
        forced := false, leaving := false, lastFaultHc := some s.hc, again := again
        fault := some ⟨t, late, e.test, e.loaded, first⟩ }
      (s.forceDone cd k).faultA cd 1

/-! ## Loads and passes -/

/-- A read of a core's own units in its core buffer: single-bit errors are counted, a double-bit error raises the
buffer fault (R113). -/
def State.coreRead (s : State) (cd k off n : Nat) : List Byte × State :=
  let a := pkgAddr cd (coreBuf k + off)
  let bs := s.readAt a n
  let (w, at_) := s.worstErr a n
  let s := if w = 0 then s
    else
      let r := s.reg cd .coreBufErr k
      let s := if bits r 63 62 = 0 then s.setFld cd .coreBufErr 19 3 ((at_ - pkgAddr cd (coreBuf k)) / 8) k else s
      let ce := s.countCe a n
      let s := if 0 < ce then (s.setFld cd .coreBufErr 62 62 1 k).addFld cd .coreBufErr 47 32 ce k else s
      if w = 2 then (s.setFld cd .coreBufErr 63 63 1 k).raiseCore cd k [0x10] (s.core cd k).pc.toNat else s
  (bs, s)

/-- The same for the cluster buffer: the core stopped is the one whose instruction read (R113). -/
def State.clusterRead (s : State) (cd k off n : Nat) : List Byte × State :=
  let c := k / 8
  let a := pkgAddr cd (clusterBuf c + off)
  let bs := s.readAt a n
  let (w, at_) := s.worstErr a n
  let s := if w = 0 then s
    else
      let r := s.reg cd .clbBufErr c
      let s := if bits r 63 62 = 0 then s.setFld cd .clbBufErr 19 3 ((at_ - pkgAddr cd (clusterBuf c)) / 8) c else s
      let ce := s.countCe a n
      let s := if 0 < ce then (s.setFld cd .clbBufErr 62 62 1 c).addFld cd .clbBufErr 47 32 ce c else s
      if w = 2 then (s.setFld cd .clbBufErr 63 63 1 c).raiseCore cd k [0x10] (s.core cd k).pc.toNat else s
  (bs, s)

/-- A parity error of the vector register file or the partial queue: UE with ADDR zero, and the buffer fault (R113, R122). -/
def State.parityFault (s : State) (cd k : Nat) : State :=
  let s := if bits (s.reg cd .coreBufErr k) 63 62 = 0 then s.setFld cd .coreBufErr 19 3 0 k else s
  (s.setFld cd .coreBufErr 63 63 1 k).raiseCore cd k [0x10] (s.core cd k).pc.toNat

/-- A core's units read partial-queue entry `e`, and rewrite it. -/
def State.pqRead (s : State) (cd k e : Nat) : State :=
  let c := s.core cd k
  if c.pqBad.contains e then (s.setCore cd k { c with pqBad := c.pqBad.filter (fun x => decide (x ≠ e)) }).parityFault cd k
  else s

/-- Whether a SEND issued before a load still holds the load's entry (R98, R99; log entry 31). -/
def Core.sendingBefore (c : Core) (entry seq : Nat) : Bool :=
  c.jobs.any (fun j => match j with
    | .pq sq e _ _ _ => decide (e = entry) && decide (sq < seq)
    | .flits _ _ _ => false)

/-- What holds the oldest waiting load in cycle `t`, in the order of R99: engine busy, permit, entry being sent, test
overdue, engine not ACTIVE; codes 0x8 to 0xC of R615. -/
def State.holdCause (s : State) (cd k t : Nat) (ld : Load) : Option Nat :=
  let c := (s.core cd k).wake t
  let (en, p) := s.mapl cd k ld.l
  let e := s.engine cd k p
  if en && !e.freeAt t then some 0x8
  else if !c.permits t then some 0x9
  else if c.sendingBefore ld.pq ld.seq then some 0xA
  else if en && decide (e.state = .active) && e.overdue s.hc then some 0xB
  else if en && (decide (e.state ≠ .active) || e.leaving) then some 0xC
  else none

/-- Count passes that start on a die, for its power governor (R514). -/
def State.notePasses (s : State) (cd n : Nat) : State :=
  s.setDie cd { s.die cd with heat := { (s.die cd).heat with passes := (s.die cd).heat.passes + n } }

/-- LOAD_START (R96, R99): the oldest waiting load of the core starts in cycle `t` if nothing holds it; at most two loads of
a core start in a cycle, and a test slot that starts in the cycle is one of them (log entry 162). -/
def State.loadStart (s : State) (cd k t : Nat) : State :=
  let c := s.core cd k
  match c.loads with
  | [] => s
  | ld :: rest =>
    let t := max t (s.die cd).cc
    let s := (s.toCc cd t).setCore cd k (c.wake t)
    let c := s.core cd k
    let (en, p) := s.mapl cd k ld.l
    let e := s.engine cd k p
    if (s.holdCause cd k t ld).isSome ∨ 2 ≤ (c.started.filter (· = t)).length ∨ (en ∧ 2 ≤ e.passes.length) then s
    else if !en then
      -- R140: this load and every later one of its instruction never start
      let s := s.setCore cd k { c with loads := rest.filter (fun x => decide (x.seq ≠ ld.seq)) }
      s.raiseCore cd k [0x08] ld.pc
    else
      let (els, s) := s.coreRead cd k ld.el 128
      let (ex, s) := s.coreRead cd k ld.ex 1
      let ps : Pass := { at_ := t, elems := BitVec.ofNat 1024 (ofBytes els), e := byteAt ex 0, ev := ld.ev, g := ld.g,
                         pq := ld.pq, pc := ld.pc, seq := ld.seq }
      let s := (s.setEngine cd k p { e with passes := e.passes ++ [ps], lastLoad := some t }).notePasses cd 1
      let c := s.core cd k
      let rest := match rest with | x :: r => { x with at_ := max x.at_ t } :: r | [] => []
      let s := s.setCore cd k { c.noteStart t with loads := rest }
      s.sample cd 2 ((t - ld.at_ : Nat) : Int) (some c.curLayer) none (k + 1)

/-- The first output of a pass whose |c| exceeds the bound of R35, if any (R63). -/
def Engine.overBound (e : Engine) (code : Nat) (ps : Pass) : Option Nat :=
  (List.range (outputs code)).find? (fun j => decide (largestC code < (e.outputC code (elemAt ps.elems) j).natAbs))

/-- ENGINE_PASS (R62 to R65, R97, R98): the oldest pass of an engine is checked against CBOUND in its cycle 12 and converts
in its cycle 13. A pass beyond the bound is withheld, also when its exponent byte is 0xFF (log entry 163). In the cycle of
a fault, the pass that the fault withheld in its cycle 12 is checked too (R83). -/
def State.enginePass (s : State) (cd k p : Nat) : State :=
  let e := s.engine cd k p
  let code := s.fld cd .engCfg 2 0 k p
  match e.passes with
  | [] =>
    let t := (s.die cd).cc
    match ((e.detected t).passes.find? (fun ps => decide (ps.at_ + 12 = t))).bind (fun ps => e.overBound code ps) with
    | some j => s.engineFault cd k p [(4, 0, j)]
    | none => s
  | ps :: rest =>
    let s := s.toCc cd (ps.at_ + 12)
    match e.overBound code ps with
    | some j => s.engineFault cd k p [(4, 0, j)]
    | none =>
      let s := s.toCc cd (ps.at_ + 13)
      let ps' := (List.range (outputs code)).map (fun j => e.partialOf ps j (e.outputC code (elemAt ps.elems) j))
      let s := s.setEngine cd k p { e with
        passes := rest, state := if e.leaving ∧ rest = [] then .idle else e.state, leaving := e.leaving && decide (rest ≠ []) }
      let s := s.pqRead cd k ps.pq
      let c := s.core cd k
      match (Tab.get {} c.pq ps.pq : PQ).accept ps.ev ps.g (ps'.map (·.1)) 0 (decide (ps.e = 0xFF)) (ps'.any (·.2)) with
      | some q => s.setCore cd k { c with pq := Tab.set {} c.pq ps.pq q }
      | none => s.raiseCore cd k [0x09] ps.pc

/-- CORE_GATE (R100): a core with no started load for CORE_SOFT.IDLE enabled cycles gates at the end of that cycle; a gated
core with a load waiting wakes. -/
def State.coreGate (s : State) (cd k : Nat) : State :=
  let c := s.core cd k
  let idle := s.fld cd .coreSoft 15 0 k
  if c.gated then (if c.loads = [] then s else s.setCore cd k (c.wake (s.die cd).cc))
  else if idle = 0 then s
  else
    let s := s.toCc cd (c.busyUpTo idle (s.die cd).cc + idle)
    s.setCore cd k { c with gated := true, gateT := some (s.die cd).cc, lim := 0 }

/-- LIM_RAMP (R100): a fall of CAP acts at once, a rise goes by 2 per 8 enabled cycles; a gated core with a load
waiting wakes. -/
def State.limRamp (s : State) (cd k : Nat) : State :=
  let c := s.core cd k
  if c.gated then (if c.loads = [] then s else s.setCore cd k (c.wake (s.die cd).cc))
  else if c.cap < c.lim then s.setCore cd k { c with lim := c.cap, rampT := (s.die cd).cc }
  else if c.lim < c.cap then
    let s := s.toCc cd (c.rampT + 8)
    s.setCore cd k { c with lim := min c.cap (c.lim + 2), rampT := (s.die cd).cc }
  else s

/-! ## Write commands -/

/-- Every valid sensor of a die reads inside a range, in units of 0.125 °C (R525, R532). -/
def State.sensorsWithin (s : State) (die : Nat) (lo hi : Int) : Bool :=
  (List.range 8).all (fun i =>
    let r := s.reg die .thmSens i
    !bit r 31 || (decide (lo ≤ signed 16 r) && decide (signed 16 r ≤ hi)))

/-- Whether a write command or fuse programming is permitted now (R525): 5 to 100 °C, or after a refusal 8 to 97 °C and
1 ms since the last. -/
def State.writePermitted (s : State) (die : Nat) : Bool :=
  match (s.die die).tempRefused with
  | none => s.sensorsWithin die 40 800
  | some h => s.sensorsWithin die 64 776 && decide (h + 100000 ≤ s.hc)

/-- Record the outcome of a temperature check (R525). -/
def State.noteTemp (s : State) (die : Nat) (ok : Bool) : State :=
  s.setDie die { s.die die with tempRefused := if ok then none else some s.hc }

/-- Nibble i of a packet. -/
def nibble (w i : Nat) : Nat := elem w 4 i

/-- The cells of one row from its packet (R24, R52, R73). -/
def rowCells (code : Nat) (w : Nat) : Nat :=
  match code with
  | 0 | 1 => w
  | 2 => pack 4 ((List.range 128).map (fun j =>
      let n := nibble w j
      if n / 4 % 2 = 1 then (n % 4) * 4 else n % 4))
  | _ => pack 8 ((List.range 64).map (fun j =>
      let n := nibble w j
      if n < 8 then n else (16 - n) * 16))

/-- Whether a row packet holds a code that R75 refuses. -/
def badRow (code : Nat) (w : Nat) : Bool :=
  match code with
  | 0 => (List.range 256).any (fun j => decide (elem w 2 j = 3))
  | 1 => false
  | 2 => (List.range 128).any (fun j => decide (8 ≤ nibble w j))
  | _ => decide (w / 2 ^ 256 ≠ 0)

/-- Whether a scale chunk holds a BS8 byte with F = 0 and M ≠ 0 (R28). -/
def badChunk (w : Nat) : Bool :=
  (List.range 64).any (fun j => let b := elem w 8 j; decide (b / 8 = 0) && decide (b % 8 ≠ 0))

/-- RESULT of a refusal by R75, lowest first, temperature consulted last: 1 packet or index, 2 state, 4 temperature. -/
def State.writeRefusal (s : State) (cd k p : Nat) (chunk : Bool) (index : Nat) (data : BitVec 512) : Option Nat :=
  let e := s.engine cd k p
  let w := data.toNat
  let bad := if chunk then decide (7 < index) || badChunk w else badRow (s.fld cd .engCfg 2 0 k p) w
  if bad then some 1
  else if e.state = .active ∨ e.state = .retired then some 2
  else if !s.writePermitted cd then some 4
  else none

/-- A write command starts, or is refused (R75, R76): a start clears TESTED and ends a test pass under way (log entry
106). -/
def State.startWrite (s : State) (cd k p : Nat) (chunk : Bool) (index : Nat) (data : BitVec 512) : State :=
  match s.writeRefusal cd k p chunk index data with
  | some r =>
    let s := if r = 4 then s.noteTemp cd false else s
    s.setFld cd .engWcmd 30 28 r k p
  | none =>
    let s := (s.noteTemp cd true).setFld cd .engWcmd 31 31 1 k p
    let e := s.engine cd k p
    s.setEngine cd k p { e with tested := false, test := none, cmd := some ⟨(s.die cd).cc, chunk, index, data⟩ }

/-- The packet in ENG_WDATA0 to ENG_WDATA15 (R89). -/
def State.wdata (s : State) (cd k p : Nat) : BitVec 512 :=
  BitVec.ofNat 512 (pack 32 ((List.range 16).map (fun i => s.reg cd .engWdata k (16 * p + i))))

/-- A write of ENG_WCMD with GO (R74, R75, R88): an access error while BUSY. TARGET and INDEX, of 7 bits, are stored. -/
def State.wcmdGo (s : State) (cd k p : Nat) (chunk : Bool) (index : Nat) : State :=
  if s.fld cd .engWcmd 31 31 k p = 1 then s.accessError
  else
    let index := index % 128
    let s := (s.setFld cd .engWcmd 8 8 (b2n chunk) k p).setFld cd .engWcmd 6 0 index k p
    (s.startWrite cd k p chunk index (s.wdata cd k p)).respond 0

/-- Parity of the low `n` bits. -/
def parity (n v : Nat) : Nat := popcount n v % 2

/-- The engine after one row has been written with `cells` (R55, R56, R74): row parity from the data, each column's
signature by (new − old) × (i + 1). -/
def Engine.writeRow (e : Engine) (row cells : Nat) : Engine :=
  let old := (Tab.get 0 e.comb row).toNat
  let par := pack 1 ((List.range 8).map (fun g => parity 64 (elem cells 64 g)))
  let sigs := (List.range 512).map (fun col =>
    unsigned 14 ((elem e.sig.toNat 14 col : Int) + ((b2n (bit cells col) : Int) - b2n (bit old col)) * ((row : Int) + 1)))
  { e with
    comb := Tab.set 0 e.comb row (BitVec.ofNat 512 cells)
    rowPar := BitVec.ofNat 1024 (setBits e.rowPar.toNat (8 * row + 7) (8 * row) par)
    sig := BitVec.ofNat 7168 (pack 14 sigs)
    sigPar := BitVec.ofNat 512 (pack 1 (sigs.map (parity 14)))
    written := e.written ||| BitVec.ofNat 136 (2 ^ row) }

/-- The engine after one scale chunk has been written (R73, R74). -/
def Engine.writeChunk (e : Engine) (chunk w : Nat) : Engine :=
  let par := pack 1 ((List.range 64).map (fun i => parity 8 (elem w 8 i)))
  { e with
    scale := BitVec.ofNat 4096 (setBits e.scale.toNat (512 * chunk + 511) (512 * chunk) w)
    scalePar := BitVec.ofNat 512 (setBits e.scalePar.toNat (64 * chunk + 63) (64 * chunk) par)
    written := e.written ||| BitVec.ofNat 136 (2 ^ (128 + chunk)) }

/-- LOADED becomes 1 when all rows and chunks have been written, and the scrub starts (R76, R82). -/
def Engine.noteLoaded (e : Engine) (t interval : Nat) : Engine :=
  if !e.loaded && decide (e.written = BitVec.allOnes 136) then
    { e with loaded := true, scrubRow := 0, scrubDue := t + 2 ^ (interval + 6) }
  else e

/-- The engine after a write command has written its data. -/
def State.applyWrite (s : State) (cd k p : Nat) (chunk : Bool) (index : Nat) (data : BitVec 512) : State :=
  let e := s.engine cd k p
  let e := if chunk then e.writeChunk index data.toNat else e.writeRow index (rowCells (s.fld cd .engCfg 2 0 k p) data.toNat)
  s.setEngine cd k p ({ e with portAt := (s.die cd).cc }.noteLoaded (s.die cd).cc (s.fld cd .engScrubCtl 3 0 k))

/-- A write command that failed its read-back twice (R74): the row or chunk holds an undefined value, and the engine has
neither LOADED nor its record. -/
def State.failWrite (s : State) (cd k p : Nat) (chunk : Bool) (index : Nat) (data : BitVec 512) : State :=
  let s := s.applyWrite cd k p chunk index data
  let junk := Config.undefinedRow s.draws
  let e := s.engine cd k p
  let e := if chunk then { e with scale := BitVec.ofNat 4096 (setBits e.scale.toNat (512 * index + 511) (512 * index) junk.toNat) }
    else { e with comb := Tab.set 0 e.comb index junk }
  let s := { s with draws := s.draws + 1 }.setEngine cd k p e
  let s := s.engineFault cd k p [(5, if chunk then 0 else index, if chunk then 64 * index else 0)]
  s.setEngine cd k p { s.engine cd k p with loaded := false, written := 0 }

/-- ENG_WRITE_DONE (R74): the running command ends; `mismatches` is how many of its read-backs differed: none or one
completes it, two fail it. -/
def State.engWriteDone (s : State) (cd k p mismatches : Nat) : State :=
  let e := s.engine cd k p
  match e.cmd with
  | none => s
  | some c =>
    let s := s.toCc cd (c.at_ + (if mismatches = 0 then 3 else 6))
    let s := (s.setEngine cd k p { e with cmd := none }).setFld cd .engWcmd 31 31 0 k p
    if mismatches < 2 then
      (s.applyWrite cd k p c.chunk c.index c.data).setFld cd .engWcmd 30 28 0 k p
    else
      (s.failWrite cd k p c.chunk c.index c.data).setFld cd .engWcmd 30 28 3 k p

/-! ## Test passes (R77 to R81) -/

/-- Start a test pass with slot 1 in cycle `t` and slot 2 eight cycles later (R79, R101); a forced engine's is its forced
one (R91). -/
def State.startTest (s : State) (cd k p t : Nat) : State :=
  let s := (s.toCc cd t).notePasses cd 2
  let c := (s.core cd k).wake t
  let c := c.noteStart t
  let s := s.setCore cd k { c with started := insertUp (t + 8) c.started }
  let e := s.engine cd k p
  s.setEngine cd k p { e with test := some ⟨t, s.hc, false, e.forced⟩, lastLoad := some (t + 8), lastTestHc := s.hc }

/-- Whether a test pass of the engine may start in cycle `t`: no other under way, a free slot, the permit (R101). -/
def State.canTest (s : State) (cd k p t : Nat) : Bool :=
  let e := s.engine cd k p
  decide (e.test = none) && e.freeAt t && ((s.core cd k).wake t).permits t

/-- ACCEPTANCE_TEST (R77). -/
def State.acceptanceTest (s : State) (cd k p t h : Nat) : State :=
  let s := s.toHc h
  let e := s.engine cd k p
  let t := max t (s.die cd).cc
  if (e.state = .idle ∨ e.state = .faulted) ∧ e.loaded ∧ !e.tested ∧ e.cmd = none ∧ e.portAt + 64 ≤ t ∧
      s.canTest cd k p t then s.startTest cd k p t
  else s

/-- PERIODIC_TEST (R81, R91): an ACTIVE engine, PERIOD milliseconds after its previous test pass, or one that FORCE has
marked and that could not start before. -/
def State.periodicTest (s : State) (cd k p t h : Nat) : State :=
  let s := s.toHc h
  let e := s.engine cd k p
  let t := max t (s.die cd).cc
  if e.state = .active ∧ (e.forced ∨ e.lastTestHc + 100000 * s.fld cd .engTvCtl 6 0 k ≤ s.hc) ∧ s.canTest cd k p t then
    s.startTest cd k p t
  else s

/-- TEST_OVERDUE (R81): more than 100 ms since an ACTIVE engine's last passed test pass started. -/
def State.testOverdue (s : State) (cd k p t h : Nat) : State :=
  let s := s.toHc h
  let e := s.engine cd k p
  let t := max t (s.die cd).cc
  if e.state = .active ∧ e.overdue s.hc ∧ s.canTest cd k p t then s.startTest cd k p t else s

/-- The first of at most `fuel` cycles from `t` on in which a test pass of the engine may start. -/
def State.firstTestCycle (s : State) (cd k p : Nat) : Nat → Nat → Option Nat
  | 0, _ => none
  | n + 1, t => if s.canTest cd k p t then some t else State.firstTestCycle s cd k p n (t + 1)

/-- A forced test pass starts in the first free slots from cycle `t` on (R91). -/
def State.startForced (s : State) (cd k p t : Nat) : State :=
  match s.firstTestCycle cd k p 256 t with
  | some u => s.startTest cd k p u
  | none => s

/-- TEST_FORCE (R91): every ACTIVE engine of the core runs a test pass in its next two free slots, after one that is under
way. -/
def State.testForce (s : State) (cd k t : Nat) : State :=
  let t := max t (s.die cd).cc
  let s := s.setFld cd .engTvCtl 31 31 1 k
  let s := (List.range 17).foldl (fun s p =>
    let e := s.engine cd k p
    if e.state = .active then
      let s := s.setEngine cd k p { e with forced := true }
      if e.test.isSome then s else s.startForced cd k p t
    else s) s
  s.forceDone cd k

/-- The built-in pattern TP[i] = i + 1 (R79). -/
def testPattern (i : Nat) : Int := (i : Int) + 1

/-- Signature of a column (R56). -/
def Engine.sigOf (e : Engine) (col : Nat) : Int := (elem e.sig.toNat 14 col : Int)

/-- TEST_SLOT1_CHECK (R79): every column accumulator against its signature; also in the cycle of a fault that ends the
test (R83). -/
def State.testSlot1 (s : State) (cd k p : Nat) : State :=
  let e := s.engine cd k p
  match (e.detected (s.die cd).cc).test with
  | some ⟨t, h, false, f⟩ =>
    let s := s.toCc cd (t + 13)
    match (List.range 512).find? (fun col => decide (e.colSum testPattern col ≠ e.sigOf col)) with
    | some col => s.engineFault cd k p [(0, 0, col)]
    | none => if e.test.isSome then s.setEngine cd k p { e with test := some ⟨t, h, true, f⟩ } else s
  | _ => s

/-- TEST_SLOT2_CHECK (R69, R77, R79): combined and scaled results against the same combine of the signatures; a pass
sets TESTED and makes the change of state. A pass in the cycle of a fault counts as passed and as faulted (R70). A forced
test of an engine that another test had under way starts now (R91). -/
def State.testSlot2 (s : State) (cd k p : Nat) : State :=
  let e := s.engine cd k p
  match (e.detected (s.die cd).cc).test with
  | some ⟨t, h, true, f⟩ =>
    let s := s.toCc cd (t + 21)
    let code := s.fld cd .engCfg 2 0 k p
    let differs (j : Nat) : Bool :=
      let f : Int := ((8 + e.bs8 j % 8 : Nat) : Int)
      decide (combine code (e.colSum testPattern) (rowSum testPattern) j * f ≠ combine code e.sigOf 8256 j * f)
    match (List.range (outputs code)).find? differs with
    | some j => s.engineFault cd k p [(0, 0, colsPer code * j)]
    | none =>
      if e.test.isNone then s.setEngine cd k p { e with tested := true, lastPassHc := h }
      else
        let st := if e.state = .faulted then (if (s.namedBy cd k p).isSome then .active else .idle) else e.state
        let e := { e with test := none, forced := e.forced && !f, tested := true, lastPassHc := h, state := st }
        let s := (s.setEngine cd k p e).forceDone cd k
        if e.forced then s.startForced cd k p (s.die cd).cc else s
  | _ => s

/-- SCRUB_ROW_READ (R78, R82): the next row, 4 scale bytes and 4 signatures of a loaded engine, also in the cycle of a fault
(R83); while a write command has the port the read waits. -/
def State.scrubRowRead (s : State) (cd k p : Nat) : State :=
  let e := s.engine cd k p
  if !((e.detected (s.die cd).cc).loaded && (e.loaded || decide (e.scrubDue ≤ (s.die cd).cc))) ∨ e.state = .retired ∨ e.cmd.isSome then s
  else
    let s := s.toCc cd e.scrubDue
    let r := e.scrubRow
    let row := (Tab.get 0 e.comb r).toNat
    let badSeg := (List.range 8).find? (fun g => decide (parity 64 (elem row 64 g) ≠ elem e.rowPar.toNat 1 (8 * r + g)))
    let four := (List.range 4).map (fun i => 4 * r + i)
    let badScale := four.find? (fun j => decide (parity 8 (e.bs8 j) ≠ elem e.scalePar.toNat 1 j))
    let badSig := four.find? (fun c => decide (parity 14 (elem e.sig.toNat 14 c) ≠ elem e.sigPar.toNat 1 c))
    let faults := (badSeg.map (fun g => (1, r, 64 * g))).toList ++ (badScale.map (fun j => (2, 0, j))).toList ++
      (badSig.map (fun c => (3, 0, c))).toList
    let s := s.setEngine cd k p { e with
      scrubRow := (r + 1) % 128, scrubDue := e.scrubDue + 2 ^ (s.fld cd .engScrubCtl 3 0 k + 6), portAt := (s.die cd).cc }
    s.engineFault cd k p faults

/-! ## The map, RETIRE and CODE -/

/-- An engine that its entry no longer names: IDLE once its last pass in flight has written (R69). -/
def State.unname (s : State) (cd k p : Nat) : State :=
  let e := s.engine cd k p
  if e.state = .active then
    s.setEngine cd k p (if e.passes = [] then { e with state := .idle } else { e with leaving := true })
  else s

/-- A write of ENG_MAPL entry `l` (R70, R90). -/
def State.maplWrite (s : State) (cd k l : Nat) (en : Bool) (phys : Nat) : State :=
  let phys := phys % 32
  let (en0, p0) := s.mapl cd k l
  let e := s.engine cd k phys
  let other := (List.range 16).any (fun m => decide (m ≠ l) && (s.mapl cd k m).1 && decide ((s.mapl cd k m).2 = phys))
  let same := decide (en = en0) && decide (phys = p0)
  if same then s.respond 0
  else if !en ∨ (phys ≤ 16 ∧ !other ∧ e.state = .idle ∧ e.loaded ∧ e.tested) then
    let s := s.setReg cd .engMapl (2 ^ 31 * b2n en + phys) k l
    let s := if en0 ∧ (!en ∨ p0 ≠ phys) then s.unname cd k p0 else s
    let s := if en then s.setEngine cd k phys { s.engine cd k phys with state := .active } else s
    s.respond 0
  else s.accessError

/-- ENG_CFG.RETIRE (R69, R84): an IDLE or FAULTED engine becomes RETIRED; a write command that runs goes on to its end
(R74). -/
def State.engRetire (s : State) (cd k p : Nat) : State :=
  let e := s.engine cd k p
  if e.state = .idle ∨ e.state = .faulted then s.setEngine cd k p { e with state := .retired, test := none }
  else s

/-- A write of ENG_CFG.CODE (R77, R84): no effect unless IDLE or FAULTED, or for a reserved value; a change clears
TESTED, and ends a test pass under way without a verdict (log entry 106). -/
def State.engCode (s : State) (cd k p code : Nat) : State :=
  let e := s.engine cd k p
  if (e.state = .idle ∨ e.state = .faulted) ∧ code < 4 then
    let was := s.fld cd .engCfg 2 0 k p
    let s := s.setFld cd .engCfg 2 0 code k p
    if was = code then s else s.setEngine cd k p { e with tested := false, test := none }
  else s

end Sys2Proof.Machine
end

