-- ==== Sys2Proof/Machine/Mesh.lean ====
section
/-!
DEFINITION. The on-die network (chapter 07): flits, multicast and landing, credit routes, the exact reduction, the
group tables and the discard.
-/

namespace Sys2Proof.Machine

/-! ## Tables -/

/-- The index of a mesh neighbour's opposite port: 0 N, 1 E, 2 S, 3 W (R191). -/
def oppositePort (o : Nat) : Nat := (o + 2) % 4

/-- Whether the router of cluster `c` has a neighbour at port `o` (R191): ports that face the die edge have none. -/
def hasNeighbour (c o : Nat) : Bool :=
  match o with
  | 0 => decide (8 ≤ c)
  | 1 => decide (c % 8 < 7)
  | 2 => decide (c < 56)
  | _ => decide (0 < c % 8)

/-- The cluster at port `o` of cluster `c`. -/
def neighbour (c o : Nat) : Nat :=
  match o with
  | 0 => c - 8
  | 1 => c + 1
  | 2 => c + 8
  | _ => c - 1

/-- The port clusters of R191. -/
def isPortCluster (c : Nat) : Bool := decide (c = 3) || decide (c = 31) || decide (c = 59) || decide (c = 24)

/-- A multicast group entry (R199). -/
def State.mgt (s : State) (cd c g : Nat) : Nat := s.reg cd .nocMgt c g

/-- A reduction group entry: its two words (R203). -/
def State.rgt (s : State) (cd c tag : Nat) : Nat × Nat := (s.reg cd .nocRgt c (2 * tag), s.reg cd .nocRgt c (2 * tag + 1))

/-- EVOFF and G that ELD reads: the fields of an entry that is not VALID read as zero (R139, R203). -/
def State.evoffG (s : State) (cd c tag : Nat) : Int × Nat :=
  let w := (s.rgt cd c tag).1
  if bit w 63 then (signed 8 (bits w 47 40), bits w 39 36) else (0, 0)

/-- First slot, DEPTH + 1 and CHUNKS + 1 of word 0 of an entry (R203). -/
def rgtSlots (w : Nat) : Nat × Nat × Nat := (bits w 35 29, bits w 28 27 + 1, bits w 26 24 + 1)

/-- The slots of an entry: first slot and how many (R204). -/
def rgtRange (w : Nat) : Nat × Nat := let (b, d, k) := rgtSlots w; (b, d * k)

/-! ## A flit on a link (R194 to R197) -/

/-- The fields of a sideband word above its check bits, [63:8], as a number whose bit 0 is bit 8. -/
def Flit.header : Flit → Nat
  | .red tag chunk fi poison clamp ev g count _ bad _ =>
    b2n bad <<< 53 + fi <<< 51 + tag <<< 41 + chunk <<< 38 + (b2n poison <<< 15 + b2n clamp <<< 14 + ev) <<< 22 + g <<< 18 +
      count <<< 2
  | .mc group off len emax _ bad _ => 1 <<< 54 + b2n bad <<< 53 + group <<< 42 + off <<< 33 + len <<< 16 + emax <<< 8
  | .cr group ctr amt => 1 <<< 54 + 1 <<< 52 + group <<< 42 + ctr <<< 37 + amt <<< 29
  | .fab response bad ext dcl dport _ =>
    (2 + b2n response) <<< 54 + b2n bad <<< 53 + b2n ext <<< 52 + dcl <<< 46 + dport <<< 44

/-- The 128 bytes of payload. -/
def Flit.payload : Flit → BitVec 1024
  | .red _ _ _ _ _ _ _ _ payload _ _ => payload
  | .mc _ _ _ _ payload _ _ => payload
  | .cr _ _ _ => 0
  | .fab _ _ _ _ _ payload => payload.setWidth 1024

/-- What travels over a mesh link: the sideband, whose bits [63:8] are `header` and whose check bits [7:0] are `check`, the
payload, and a check byte for every 8 bytes of payload. -/
structure LinkWord where
  header : Nat
  check : Byte
  payload : BitVec 1024
  checks : List Byte
  deriving DecidableEq, Repr

def Flit.onLink (f : Flit) : LinkWord :=
  { header := f.header, check := Config.secded f.header, payload := f.payload
    checks := (List.range 16).map (fun i => Config.secded (elem f.payload.toNat 64 i)) }

/-- The flit that a link word spells; `srcs` says whose sends it holds, which no field carries. -/
def LinkWord.flit (w : LinkWord) (srcs : List Nat) (src : Nat) : Flit :=
  let h := w.header <<< 8
  match bits h 63 62 with
  | 0 => .red (bits h 58 49) (bits h 48 46) (bits h 60 59) (bit h 45) (bit h 44) (bits h 39 30) (bits h 29 26) (bits h 25 10)
      w.payload (bit h 61) srcs
  | 1 =>
    if bit h 60 then .cr (bits h 59 50) (bits h 49 45) (bits h 44 37)
    else .mc (bits h 59 50) (bits h 49 41) (bits h 40 24) (bits h 23 16) w.payload (bit h 61) src
  | v => .fab (decide (v = 3)) (bit h 61) (bit h 60) (bits h 59 54) (bits h 53 52) (w.payload.setWidth 512)

/-- A flit as the router at the other end of a mesh link reads it. -/
def Flit.overLink (f : Flit) : Flit :=
  match f with
  | .red _ _ _ _ _ _ _ _ _ _ srcs => f.onLink.flit srcs 0
  | .mc _ _ _ _ _ _ src => f.onLink.flit [] src
  | _ => f.onLink.flit [] 0

/-! ## Input buffers (R193) -/

/-- Port and virtual channel as one queue number: 0 RED, 1 MC, 2 FQ, 3 FP. -/
def qNo (port vc : Nat) : Nat := 4 * port + vc

def Router.queue (r : Router) (port vc : Nat) : List Flit := Tab.get [] r.q (qNo port vc)
def Router.setQueue (r : Router) (port vc : Nat) (l : List Flit) : Router :=
  { r with q := Tab.set [] r.q (qNo port vc) l }

/-- What is known of the head flit of a queue: 0, or 64 + the outputs that have taken it. -/
def Router.seenOf (r : Router) (port vc : Nat) : Nat := Tab.get 0 r.seen (qNo port vc)
def Router.setSeen (r : Router) (port vc n : Nat) : Router := { r with seen := Tab.set 0 r.seen (qNo port vc) n }

/-- Flits of one channel that an input buffer holds. -/
def bufferDepth : Nat := 8

/-- Flits that wait at the EDGE module enter its input buffer as far as there is room. -/
def Router.refillEdge (r : Router) : Router :=
  let n := bufferDepth - (r.queue 4 1).length
  { r.setQueue 4 1 (r.queue 4 1 ++ r.edgeIn.take n) with edgeIn := r.edgeIn.drop n }

/-- A flit enters an input of a router. What a core's send port has formed waits at its LOCAL input (log entry 172). -/
def State.pushFlit (s : State) (cd c port vc : Nat) (f : Flit) : State :=
  let r := s.router cd c
  s.setRouter cd c (r.setQueue port vc (r.queue port vc ++ [f]))

/-- The head flit of an input leaves it. -/
def State.popFlit (s : State) (cd c port vc : Nat) : State :=
  let r := s.router cd c
  let r := (r.setQueue port vc ((r.queue port vc).drop 1)).setSeen port vc 0
  s.setRouter cd c (if port = 4 ∧ vc = 1 ∧ r.edgeIn ≠ [] then r.refillEdge else r)

/-- A flit goes over the link at output `o` into the neighbour's input. -/
def State.linkFlit (s : State) (cd c o vc : Nat) (f : Flit) : State :=
  if hasNeighbour c o then s.pushFlit cd (neighbour c o) (oppositePort o) vc f.overLink else s

/-- The first flits of a SEND of `w` words of an entry on a tag (R195, R198). -/
def sendFlits (k tag words : Nat) (q : PQ) : List Flit :=
  (List.range (words / 64)).flatMap (fun j => (List.range 3).map (fun fi =>
    .red tag j fi q.poison q.clamp q.ev q.g q.count (BitVec.ofNat 1024 (q.words.toNat >>> (3072 * j + 1024 * fi))) false
      [k]))

/-- Who sends a vector: the core, and the credit counter that pays, if any (R158, R573). -/
def sourceOf (k : Nat) (nc : Bool) (ctr : Nat) : Nat := if nc then k else 512 * (ctr % 32 + 1) + k

/-- The source of a vector that came in at an EDGE. -/
def outside : Nat := 32768

/-- The flits of a vector of `bs` on a group (R196, R198); `bad o` marks a flit that a double-bit error touched. -/
def vectorFlits (src group emax : Nat) (bs : List Byte) (bad : Nat → Bool) : List Flit :=
  (List.range (ceilDiv bs.length 128)).map (fun o =>
    .mc group o bs.length emax (BitVec.ofNat 1024 (numAt bs (128 * o) 128)) (bad o) src)

/-! ## Errors (R217, R224, R225) -/

/-- Record an error of a router: its bit, its first-error record, its ring entry, and a network fault, which is of class A
(R566); SLOT_OVERRUN reports none (R217). -/
def State.nocError (s : State) (cd c bitIdx port vc id chunk : Nat) : State :=
  let p := min port 5
  let q := if 5 ≤ port then port - 5 else 0
  let record := 2 ^ 63 + bitIdx <<< 59 + p <<< 56 + q <<< 53 + vc <<< 51 + id <<< 41 + chunk <<< 38
  let s := s.firstError cd .nocErr .nocErrinfo (2 ^ bitIdx) record c
  let s := s.ring cd (.unit c) 0x10 (bitIdx + p <<< 8 + id <<< 16 + cd <<< 32)
  if bitIdx = 10 then s else s.faultA cd 3

/-! ## Landing (R154, R157, R201) -/

/-- One landing completed on counter `ctr` of core `k` for a group or tag: A[ctr] and H[ctr] (R154), saturation and
COUNTER_OVF (R157), and the core's LAND entries. -/
def State.landed (s : State) (cd k ctr emax group : Nat) : State :=
  let c := s.core cd k
  let a := (Tab.get 0#16 c.a ctr).toNat
  let n := min 65535 (a + 1)
  let s := s.setCore cd k { c with a := Tab.set 0#16 c.a ctr (BitVec.ofNat 16 n),
                                   h := Tab.set 0#8 c.h ctr (BitVec.ofNat 8 emax) }
  let s := s.ring cd (.core k) 0x04 (c.pc.toNat + ctr <<< 16 + group <<< 22 + n <<< 32)
  let s := s.traceCur cd k 3 0 c.pc.toNat ctr (n + emax <<< 16)
  if a + 1 ≤ 65535 then s else s.raiseCore cd k [0x0E] c.pc.toNat

/-- Credits added to a counter of a core (R156, R157). -/
def State.credited (s : State) (cd k ctr amt : Nat) : State :=
  let c := s.core cd k
  let a := (Tab.get 0#8 c.c ctr).toNat
  let n := min 255 (a + amt)
  let d := s.die cd
  let s := if Tab.get 0 d.ras.owed (32 * k + ctr) = 0 then s
    else s.setDie cd { d with ras := { d.ras with owed := Tab.upd 0 d.ras.owed (32 * k + ctr) (fun x => x - amt) } }
  let s := s.setCore cd k { c with c := Tab.set 0#8 c.c ctr (BitVec.ofNat 8 n) }
  let s := s.ring cd (.core k) 0x05 (c.pc.toNat + ctr <<< 16 + amt <<< 24 + n <<< 40)
  if a + amt ≤ 255 then s else s.raiseCore cd k [0x0E] c.pc.toNat

/-- The local cores that LOCAL names. -/
def localCores (c e : Nat) : List Nat := (onesFrom 8 (bits e 57 50) 0).map (fun q => 8 * c + q)

/-- Land one data flit of a group at the targets of entry `e` (R200, R201). A vector that has lost a flit does not complete
(R154, R217). -/
def State.landFlit (s : State) (cd c port group off len emax : Nat) (payload : BitVec 1024) (bad : Bool) (e : Nat) :
    State :=
  let ks := localCores c e
  let clb := bit e 49
  let base := if clb then 32 * bits e 32 18 else 32 * bits e 43 33
  let size := if clb then 1048576 else 65536
  let r := s.router cd c
  let key := 1024 * port + group
  let was : VecIn := if off = 0 then {} else Tab.get {} r.vec key
  let v : VecIn := { got := if was.got = off then off + 1 else was.got, bad := was.bad || bad }
  let last := decide (off + 1 = ceilDiv len 128)
  let s := s.setRouter cd c { r with vec := Tab.set {} r.vec key (if last then {} else v) }
  if size < base + len then s.nocError cd c 8 port 1 group 0
  else
    let bs := toBytes (min 128 (len - 128 * off)) payload.toNat
    let s := if clb then s.writeMem cd (clusterBuf c + base + 128 * off) bs
      else ks.foldl (fun s k => s.writeMem cd (coreBuf k + base + 128 * off) bs) s
    if !last then s
    else if v.bad then s.nocError cd c 9 port 1 group 0
    else if v.got = off + 1 then ks.foldl (fun s k => s.landed cd k (bits e 48 44) emax group) s
    else s

/-! ## Arbitration (R211, R212) -/

/-- What a link receiver found about the flit entering at a port (R217): LOCAL inputs are no link. -/
def linkErrOf (port : Nat) (err : LinkErr) : LinkErr := if 5 ≤ port then .ok else err

/-- The outputs that an entry of NOC_MGT names: 0 to 3 N to W, 4 EDGE, 5 LAND (R199). -/
def mgtOutputs (e : Nat) : List Nat :=
  (List.range 5).filter (fun o => bit e (58 + o)) ++ (if bits e 57 50 = 0 then [] else [5])

/-- The input number of R206: local cores 0 to 7, then N, E, S, W. No reduction flit comes from EDGE. -/
def redInput (port : Nat) : Nat := if 5 ≤ port then port - 5 else if port < 4 then 8 + port else 63

/-- The part of a slot for flit `f`. -/
def Slot.part (sl : Slot) : Nat → Part
  | 0 => sl.p0
  | 1 => sl.p1
  | _ => sl.p2

/-- The instance and the slot that a reduction flit of chunk `chunk` from input `i` joins (R206). -/
def State.redSlot (s : State) (cd c tag chunk i : Nat) : Nat × Nat :=
  let (base, depth, chunks) := rgtSlots (s.rgt cd c tag).1
  let n := Tab.get 0 (s.router cd c).inst (16 * tag + i)
  (n, base + (n % depth) * chunks + chunk)

/-- A slot takes flit `f` of instance `n` from input `i`: no older instance holds it (R213). -/
def Slot.takes (sl : Slot) (n f i : Nat) : Bool :=
  (decide (sl.inst = none) || decide (sl.inst = some n)) && !bit (sl.part f).mask i

/-- Why the router discards a reduction flit, as a bit of NOC_ERR (R208). -/
def State.redRefusal (s : State) (cd c tag chunk i : Nat) : Option Nat :=
  let w0 := (s.rgt cd c tag).1
  if !bit w0 63 then some 2
  else if 12 ≤ i ∨ !bit w0 (50 + i) then some 3
  else if bits w0 26 24 < chunk then some 4
  else none

/-- The output that the head reduction flit of an input needs: it is the last that its part waits for. -/
def State.redOutput (s : State) (cd c port : Nat) : Option Nat :=
  match (s.router cd c).queue port 0 with
  | .red tag chunk f _ _ _ _ _ _ _ _ :: _ =>
    let i := redInput port
    let w0 := (s.rgt cd c tag).1
    let (n, no) := s.redSlot cd c tag chunk i
    let sl : Slot := Tab.get {} (s.router cd c).slots no
    if (s.redRefusal cd c tag chunk i).isNone ∧ sl.takes n f i ∧ (sl.part f).mask ||| 2 ^ i = bits w0 61 50 then
      some (if bit w0 62 then 5 else bits w0 49 48)
    else none
  | _ => none

/-- The output a fabric flit at cluster `c` leaves by (R197): along the row, then along the column, then out at the die port or
to the target. -/
def fabricOutput (c : Nat) (ext : Bool) (dcl dport : Nat) : Nat :=
  let d := if ext then (match dport with | 0 => 3 | 1 => 31 | 2 => 59 | _ => 24) else dcl
  if c % 8 < d % 8 then 1 else if d % 8 < c % 8 then 3
  else if c < d then 2 else if d < c then 0
  else if ext then 4 else 5

/-- The head flit of an input on a channel is ready to leave by output `o`. -/
def State.flitReady (s : State) (cd c o vc port : Nat) : Bool :=
  match vc with
  | 0 => decide (s.redOutput cd c port = some o)
  | 1 =>
    let go (g : Nat) : Bool :=
      let e := s.mgt cd c g
      bit e 63 && (mgtOutputs e).contains o && !bit ((s.router cd c).seenOf port 1) o
    match (s.router cd c).queue port 1 with
    | .mc g _ _ _ _ _ _ :: _ => go g
    | .cr g _ _ :: _ => go g
    | _ => false
  | _ =>
    match (s.router cd c).queue port vc with
    | .fab _ _ ext dcl dport _ :: _ => decide (fabricOutput c ext dcl dport = o)
    | _ => false

/-- The channel has a credit downstream of output `o`: the neighbour's buffer has room (R193). -/
def State.hasCredit (s : State) (cd c o vc : Nat) : Bool :=
  decide (4 ≤ o) || decide (((s.router cd (neighbour c o)).queue (oppositePort o) vc).length < bufferDepth)

def State.arbOf (s : State) (cd c o : Nat) : OutArb := Tab.get {} (s.router cd c).arb o

/-- The port at which input `i` offers a flit: at LOCAL, the first ready send port in its rotation. -/
def State.offer (s : State) (cd c o vc i : Nat) : Option Nat :=
  if i < 5 then (if s.flitReady cd c o vc i then some i else none)
  else
    let q0 := Tab.get 0 (s.arbOf cd c o).core vc
    ((List.range 8).map (fun j => 5 + (q0 + j) % 8)).find? (s.flitReady cd c o vc)

/-- W[o][i] of NOC_ARBW; 0 counts as 1. -/
def State.arbWeightOf (s : State) (cd c o i : Nat) : Nat := max 1 (s.fld cd .nocArbw (10 * i + 9) (10 * i) c o)

/-- The input that output `o` serves next on a channel, and its port: the one it visits while that has flits and its weight is
not used up, else the next in the rotation. -/
def State.pick (s : State) (cd c o vc : Nat) : Option (Nat × Nat) :=
  let a := s.arbOf cd c o
  let i := Tab.get 0 a.at_ vc
  let stay := decide (Tab.get 0 a.sent vc < s.arbWeightOf cd c o i)
  let order := (if stay then [i] else []) ++ (List.range 6).map (fun j => (i + 1 + j) % 6)
  (order.filterMap (fun i => (s.offer cd c o vc i).map (fun p => (i, p)))).head?

/-- What output `o` sends next: channel, input and port. Channels with no flit ready or no credit are skipped. -/
def State.turn (s : State) (cd c o : Nat) : Option (Nat × Nat × Nat) :=
  let t := (s.arbOf cd c o).turn
  ((List.range 4).filterMap (fun j =>
    let vc := (t + j) % 4
    if s.hasCredit cd c o vc then (s.pick cd c o vc).map (fun p => (vc, p.1, p.2)) else none)).head?

/-- Output `o` sends the head flit of port `port` next. -/
def State.granted (s : State) (cd c o vc port : Nat) : Bool :=
  match s.turn cd c o with
  | some (v, _, p) => decide (v = vc) && decide (p = port)
  | none => false

/-- Output `o` has sent a flit of a channel from a port. -/
def OutArb.served (a : OutArb) (vc port : Nat) (weight : Nat) : OutArb :=
  let i := min port 5
  let stays := decide (Tab.get 0 a.at_ vc = i) && decide (Tab.get 0 a.sent vc < weight)
  { turn := (vc + 1) % 4
    at_ := Tab.set 0 a.at_ vc i
    sent := Tab.set 0 a.sent vc (if stays then Tab.get 0 a.sent vc + 1 else 1)
    core := if i = 5 then Tab.set 0 a.core vc ((port - 5 + 1) % 8) else a.core }

def State.served (s : State) (cd c o vc port : Nat) : State :=
  let r := s.router cd c
  s.setRouter cd c { r with arb := Tab.set {} r.arb o ((s.arbOf cd c o).served vc port (s.arbWeightOf cd c o (min port 5))) }

/-! ## Multicast (R199 to R202) -/

/-- Count a corrected link error (R217, R223). -/
def State.meshCorrected (s : State) (cd c : Nat) (err : LinkErr) : State :=
  match err with
  | .corrected => s.addFld cd .nocStat 15 0 1 c
  | _ => s

/-- A payload with a double-bit error, whose bytes are not known (R217; log entry 12). -/
def State.drawPayload (s : State) : BitVec 1024 × State :=
  (BitVec.ofNat 1024 ((Config.undefinedRow s.draws).toNat + (Config.undefinedRow (s.draws + 1)).toNat <<< 512),
    { s with draws := s.draws + 2 })

/-- The head flit of an input on MC is looked at, once: the link receiver's finding, and its group's entry (R200, R217). -/
def State.seeMulticast (s : State) (cd c port : Nat) (err : LinkErr) : State :=
  let err := linkErrOf port err
  let r := s.router cd c
  match r.queue port 1 with
  | [] => s
  | f :: rest =>
    let group := match f with | .mc g _ _ _ _ _ _ => g | .cr g _ _ => g | _ => 0
    if r.seenOf port 1 ≠ 0 then s
    else if err = .header then (s.popFlit cd c port 1).nocError cd c 7 port 1 group 0
    else
      let s := s.meshCorrected cd c err
      let s := if err = .payload then s.nocError cd c 7 port 1 group 0 else s
      let (f, s) := match f, err with
        | .mc g off len emax _ _ src, .payload => let (x, s) := s.drawPayload; (Flit.mc g off len emax x true src, s)
        | f, _ => (f, s)
      if !bit (s.mgt cd c group) 63 then (s.popFlit cd c port 1).nocError cd c 1 port 1 group 0
      else s.setRouter cd c (((s.router cd c).setQueue port 1 (f :: rest)).setSeen port 1 64)

/-- Output `o` takes a flit of a group: over its link, out at EDGE with RGROUP for RDIE, or into the targets. -/
def State.takeMulticast (s : State) (cd c port o : Nat) (f : Flit) : State :=
  match f with
  | .mc group off len emax payload bad _ =>
    let e := s.mgt cd c group
    if o < 4 then s.linkFlit cd c o 1 f
    else if o = 4 then
      let r := s.router cd c
      s.setRouter cd c { r with edge := r.edge ++ [(bits e 17 12, bits e 11 2, f)] }
    else s.landFlit cd c port group off len emax payload bad e
  | .cr group ctr amt =>
    let e := s.mgt cd c group
    if o < 4 then s.linkFlit cd c o 1 f
    else if o = 4 then
      let r := s.router cd c
      s.setRouter cd c { r with edge := r.edge ++ [(bits e 17 12, bits e 11 2, f)] }
    else (localCores c e).foldl (fun s k => s.credited cd k ctr amt) s
  | _ => s

/-- The outputs of mask `outs` take the head flit of an input on MC, each in its own turn (R200, R211); when every output that
its entry names has taken it, it leaves the buffer. -/
def State.spread (s : State) (cd c port outs : Nat) : State :=
  match (s.router cd c).queue port 1 with
  | [] => s
  | f :: _ =>
    let group := match f with | .mc g _ _ _ _ _ _ => g | .cr g _ _ => g | _ => 0
    let named := mgtOutputs (s.mgt cd c group)
    let s := named.foldl (fun s o =>
      if bit outs o && s.granted cd c o 1 port then
        let s := s.served cd c o 1 port
        let r := s.router cd c
        (s.setRouter cd c (r.setSeen port 1 (r.seenOf port 1 ||| 2 ^ o))).takeMulticast cd c port o f
      else s) s
    if named.all (fun o => bit ((s.router cd c).seenOf port 1) o) then s.popFlit cd c port 1 else s

/-- MULTICAST_FLIT (R200, R201): the outputs of mask `outs` whose turn it is take the head data flit of an input. -/
def State.multicastFlit (s : State) (cd c port outs : Nat) (err : LinkErr) : State :=
  match (s.router cd c).queue port 1 with
  | .mc _ _ _ _ _ _ _ :: _ =>
    let s := s.seeMulticast cd c port err
    if (s.router cd c).seenOf port 1 = 0 then s else s.spread cd c port outs
  | _ => s

/-- CREDIT_FLIT (R202): the same for a credit flit, which adds its credits where a data flit would land. -/
def State.creditFlit (s : State) (cd c port outs : Nat) (err : LinkErr) : State :=
  match (s.router cd c).queue port 1 with
  | .cr _ _ _ :: _ =>
    let s := s.seeMulticast cd c port err
    if (s.router cd c).seenOf port 1 = 0 then s else s.spread cd c port outs
  | _ => s

/-! ## Fabric flits across the mesh (R197) -/

/-- The port cluster of a die port: 0 N, 1 E, 2 S, 3 W (R191). -/
def dieportCluster (p : Nat) : Nat := match p with | 0 => 3 | 1 => 31 | 2 => 59 | _ => 24

/-- Fabric flits go from input `port` of cluster `c` to where the first of them is routed, in at most `n` hops. A request or
response crosses the mesh in the step that performs it, so what remains is that the outputs on its way have served their
channel (log entry 174). -/
def State.crossMesh (s : State) (cd : Nat) (fs : List Flit) : Nat → Nat → Nat → State
  | 0, _, _ => s
  | n + 1, c, port =>
    match fs with
    | .fab response _ ext dcl dport _ :: _ =>
      let o := fabricOutput c ext dcl dport
      let s := fs.foldl (fun s _ => s.served cd c o (2 + b2n response) port) s
      if o < 4 then State.crossMesh s cd (fs.map Flit.overLink) n (neighbour c o) (oppositePort o) else s
    | _ => s

/-! ## Reduction (R206 to R209) -/

/-- The widths, lowest first, of the word pieces that flit `fi` of a chunk carries (R195, R207). -/
def flitFields : Nat → List Nat
  | 0 => List.replicate 21 48 ++ [16]
  | 1 => [32] ++ List.replicate 20 48 ++ [32]
  | _ => [16] ++ List.replicate 21 48

/-- Add two payloads piece by piece, each modulo its width; the carry out of the last piece. -/
def addPieces : List Nat → Nat → Nat → Nat × Nat
  | [], _, _ => (0, 0)
  | [w], a, b => let t := a % 2 ^ w + b % 2 ^ w; (t % 2 ^ w, t / 2 ^ w)
  | w :: v :: ws, a, b =>
    let r := addPieces (v :: ws) (a / 2 ^ w) (b / 2 ^ w)
    ((a + b) % 2 ^ w + 2 ^ w * r.1, r.2)

def Slot.setPart (sl : Slot) (f : Nat) (p : Part) : Slot :=
  match f with
  | 0 => { sl with p0 := p }
  | 1 => { sl with p1 := p }
  | _ => { sl with p2 := p }

/-- The carry that flit `f` of a chunk receives from the word split before it (R207). -/
def Slot.carryIn (sl : Slot) : Nat → Nat
  | 0 => 0
  | 1 => sl.c0
  | _ => sl.c1

/-- Add to the carry out of flit `f`'s split word. -/
def Slot.addCarry (sl : Slot) (f n : Nat) : Slot :=
  match f with
  | 0 => { sl with c0 := sl.c0 + n }
  | 1 => { sl with c1 := sl.c1 + n }
  | _ => sl

/-- The carry into flit `f` has been used. -/
def Slot.takeCarry (sl : Slot) (f : Nat) : Slot :=
  match f with
  | 0 => sl
  | 1 => { sl with c0 := 0 }
  | _ => { sl with c1 := 0 }

/-- What one flit of a contributor adds to a slot. -/
structure Contribution where
  poison : Bool
  clamp : Bool
  ev : Nat
  g : Nat
  count : Nat
  payload : BitVec 1024
  bad : Bool
  srcs : List Nat
  deriving DecidableEq, Repr

/-- Flit `f` of instance `n` from input `i` is added into a slot (R207). -/
def Slot.join (sl : Slot) (tag n f i : Nat) (x : Contribution) : Slot :=
  let p := sl.part f
  let first := decide (p.mask = 0)
  let (sum, carry) := addPieces (flitFields f) p.sum.toNat x.payload.toNat
  let p' : Part :=
    { mask := p.mask ||| 2 ^ i
      sum := BitVec.ofNat 1024 sum
      poison := p.poison || x.poison
      clamp := p.clamp || x.clamp
      bad := p.bad || x.bad
      mismatch := p.mismatch || (!first && (decide (p.ev ≠ x.ev) || decide (p.g ≠ x.g)))
      ev := if first then x.ev else min p.ev x.ev
      g := if first then x.g else min p.g x.g
      count := p.count + x.count
      srcs := p.srcs ++ x.srcs }
  ({ sl with inst := some n, tag := tag }.setPart f p').addCarry f carry

/-- What a slot emits for flit `f` once every input has delivered it (R207): its payload with the carry of the word
split before it, and the slot with that part freed; after flit 2 no instance holds the slot. -/
def Slot.emit (sl : Slot) (f : Nat) : BitVec 1024 × Slot :=
  let p := sl.part f
  let (sum, carry) := addPieces (flitFields f) p.sum.toNat (sl.carryIn f)
  -- a carry out of the whole flit can arise only in the last piece of flit 2, where it wraps modulo 2^48
  let c := if f = 2 then 0 else carry
  (BitVec.ofNat 1024 sum, if f = 2 then {} else ((sl.takeCarry f).setPart f {}).addCarry f c)

/-- Numeric header bits of R36. -/
def numHeader (poison clamp : Bool) (ev : Nat) : Nat := b2n poison <<< 15 + b2n clamp <<< 14 + ev

/-- The landing of an emitted flit at the root (R209). -/
def State.landRed (s : State) (cd c port tag chunk f w0 hdr count : Nat) (payload : BitVec 1024) (bad : Bool) : State :=
  let chunks := bits w0 26 24 + 1
  let k := 8 * c + bits w0 23 21
  let land := 32 * bits w0 15 5
  let s := s.writeMem cd (coreBuf k + land + 384 * chunk + 128 * f) (toBytes 128 payload.toNat)
  let r := s.router cd c
  let instBad := Tab.get false r.badInst tag || bad
  let lastFlit := decide (f = 2) && decide (chunk + 1 = chunks)
  let s := s.setRouter cd c { r with badInst := Tab.set false r.badInst tag (instBad && !lastFlit) }
  if !lastFlit then s
  else
    let s := s.writeMem cd (coreBuf k + land + 384 * chunks) (toBytes 8 (hdr + (count % 65536) <<< 16))
    if instBad then s.nocError cd c 9 port 0 tag chunk
    else s.landed cd k (bits w0 20 16) 0 tag

/-- The head reduction flit of an input is looked at, once: the link receiver's finding, and what R208 discards. -/
def State.seeReduction (s : State) (cd c port : Nat) (err : LinkErr) : State :=
  let err := linkErrOf port err
  let r := s.router cd c
  match r.queue port 0 with
  | .red tag chunk f poison clamp ev g count payload bad srcs :: rest =>
    if r.seenOf port 0 ≠ 0 then s
    else if err = .header then (s.popFlit cd c port 0).nocError cd c 7 port 0 tag chunk
    else
      let s := s.meshCorrected cd c err
      let (s, x, b) := if err = .payload then
          let (x, s) := (s.nocError cd c 7 port 0 tag chunk).drawPayload
          (s, x, true)
        else (s, payload, bad)
      match s.redRefusal cd c tag chunk (redInput port) with
      | some e => (s.popFlit cd c port 0).nocError cd c e port 0 tag chunk
      | none => s.setRouter cd c (((s.router cd c).setQueue port 0
          (.red tag chunk f poison clamp ev g count x b srcs :: rest)).setSeen port 0 64)
  | _ => s

/-- The router emits flit `f` of a chunk, complete in `sl` at slot `no`, toward OUT or into the landing (R207, R208). -/
def State.emitRed (s : State) (cd c port tag chunk f no : Nat) (sl : Slot) : State :=
  let (w0, w1) := s.rgt cd c tag
  let p := sl.part f
  let (out, sl') := sl.emit f
  let r := s.router cd c
  let s := s.setRouter cd c { r with slots := Tab.set {} r.slots no sl' }
  let badCount := decide (p.count ≠ bits w1 15 0)
  let s := if p.mismatch then s.nocError cd c 5 port 0 tag chunk else s
  let s := if badCount then s.nocError cd c 6 port 0 tag chunk else s
  let po := p.poison || badCount || p.mismatch
  if bit w0 62 then s.landRed cd c port tag chunk f w0 (numHeader po p.clamp p.ev) p.count out p.bad
  else s.linkFlit cd c (bits w0 49 48) 0 (.red tag chunk f po p.clamp p.ev p.g (p.count % 65536) out p.bad p.srcs)

/-- REDUCTION_FLIT (R206 to R209, R213): the head reduction flit of an input joins its slot. The flit that completes a part
waits for the turn of its output, and the part is then emitted. A flit whose slot an older instance holds waits. -/
def State.reductionFlit (s : State) (cd c port : Nat) (err : LinkErr) : State :=
  let s := s.seeReduction cd c port err
  match (s.router cd c).queue port 0 with
  | .red tag chunk f poison clamp ev g count payload bad srcs :: _ =>
    if (s.router cd c).seenOf port 0 = 0 then s
    else
      let i := redInput port
      let (n, no) := s.redSlot cd c tag chunk i
      let sl : Slot := Tab.get {} (s.router cd c).slots no
      if !sl.takes n f i then s.nocError cd c 10 port 0 tag chunk
      else
        let out := s.redOutput cd c port
        if (match out with | some o => !s.granted cd c o 0 port | none => false) then s
        else
          let sl := sl.join tag n f i { poison, clamp, ev, g, count, payload, bad, srcs }
          let s := match out with | some o => s.served cd c o 0 port | none => s
          let s := s.popFlit cd c port 0
          let r := s.router cd c
          let last := decide (f = 2) && decide (chunk = bits (s.rgt cd c tag).1 26 24)
          let s := s.setRouter cd c { r with inst := if last then Tab.set 0 r.inst (16 * tag + i) (n + 1) else r.inst }
          match out with
          | some _ => s.emitRed cd c port tag chunk f no sl
          | none =>
            let r := s.router cd c
            s.setRouter cd c { r with slots := Tab.set {} r.slots no sl }
  | _ => s

/-! ## What a core's own sends still have to land (R158) -/

/-- The clusters that a group's entries reach from the clusters listed, in at most `n` rounds. -/
def State.reach (s : State) (cd g : Nat) : Nat → List Nat → List Nat
  | 0, l => l
  | n + 1, l =>
    let next := l.flatMap (fun c =>
      let e := s.mgt cd c g
      if bit e 63 then (List.range 4).filterMap (fun o =>
        if bit e (58 + o) && hasNeighbour c o && !l.contains (neighbour c o) then some (neighbour c o) else none)
      else [])
    if next = [] then l else State.reach s cd g n ((l ++ next).eraseDups)

/-- Whether a multicast flit of group `g` that goes on from the clusters listed will land in core `k`'s own buffer. -/
def State.willLand (s : State) (cd : Nat) (from_ : List Nat) (g k : Nat) : Bool :=
  let e := s.mgt cd (k / 8) g
  bit e 63 && bit e (50 + k % 8) && !bit e 49 && (s.reach cd g 64 from_).contains (k / 8)

/-- Whether a reduction on a tag lands in core `k`'s buffer (R203). -/
def State.rootedAt (s : State) (cd tag k : Nat) : Bool :=
  let w := (s.rgt cd (k / 8) tag).1
  bit w 63 && bit w 62 && decide (bits w 23 21 = k % 8)

/-- Whether a flit at cluster `c`, not yet taken by the outputs other than those of mask `taken`, is a send of core `k` that
will land in its own buffer. -/
def State.flitReturns (s : State) (cd c k taken : Nat) : Flit → Bool
  | .red tag _ _ _ _ _ _ _ _ _ srcs => srcs.contains k && s.rootedAt cd tag k
  | .mc g _ _ _ _ _ src =>
    let from_ := if taken = 0 then [c]
      else (if bit taken 5 then [] else [c]) ++
        ((List.range 4).filter (fun o => bit (s.mgt cd c g) (58 + o) && hasNeighbour c o && !bit taken o)).map (neighbour c)
    decide (src < outside) && decide (src % 512 = k) && s.willLand cd from_ g k
  | _ => false

/-- Whether some send of core `k` still has to land in its own buffer (R158). -/
def State.ownLandings (s : State) (cd k : Nat) : Bool :=
  (s.core cd k).jobs.any (fun j => match j with
    | .pq _ _ tag _ _ => s.rootedAt cd tag k
    | .flits _ _ fs => fs.any (s.flitReturns cd (k / 8) k 0)) ||
  s.routers.any (fun cr => decide (cr.1 / 64 = cd) &&
    (cr.2.q.any (fun q => match q.2 with
      | [] => false
      | f :: t => s.flitReturns cd (cr.1 % 64) k (Tab.get 0 cr.2.seen q.1 % 64) f || t.any (s.flitReturns cd (cr.1 % 64) k 0)) ||
     cr.2.slots.any (fun sl => s.rootedAt cd sl.2.tag k && [sl.2.p0, sl.2.p1, sl.2.p2].any (fun p => p.srcs.contains k))))

/-! ## Tables and discard (R204, R218, R220, R221) -/

/-- Every core of a cluster is STOPPED (R220). -/
def State.clusterStopped (s : State) (cd c : Nat) : Bool :=
  (List.range 8).all (fun q => decide ((s.core cd (8 * c + q)).run = .stopped))

/-- Whether a slot holds data: an instance has it. -/
def Slot.holds (sl : Slot) : Bool := sl.inst.isSome

/-- A tag is in use in a router: a slot of its entry holds data, or a flit names it (R220). -/
def State.tagInUse (s : State) (cd c tag : Nat) : Bool :=
  let r := s.router cd c
  let (b, n) := rgtRange (s.rgt cd c tag).1
  (bit (s.rgt cd c tag).1 63 && r.slots.any (fun sl => decide (b ≤ sl.1) && decide (sl.1 < b + n) && sl.2.holds)) ||
  r.q.any (fun q => q.2.any (fun f => match f with | .red t _ _ _ _ _ _ _ _ _ _ => decide (t = tag) | _ => false))

/-- A group is in use in a router: a flit names it (R220). -/
def State.groupInUse (s : State) (cd c g : Nat) : Bool :=
  (s.router cd c).q.any (fun q => q.2.any (fun f => match f with
    | .mc h _ _ _ _ _ _ => decide (h = g)
    | .cr h _ _ => decide (h = g)
    | _ => false))

/-- Two slot ranges overlap (R204). -/
def rangesMeet (a b : Nat × Nat) : Bool := decide (a.1 < b.1 + b.2) && decide (b.1 < a.1 + a.2)

/-- Whether R204 refuses an entry with VALID = 1. -/
def State.rgtRefused (s : State) (cd c tag w0 w1 : Nat) : Bool :=
  let (b, d, k) := rgtSlots w0
  let total := bits w1 15 0
  let inMask := bits w0 61 50
  let root := bit w0 62
  decide (2 ^ bits w0 39 36 < total) || decide (total < popcount 12 inMask) || decide (inMask = 0) ||
  (!root && !hasNeighbour c (bits w0 49 48)) || (root && decide (bits w0 49 48 ≠ 0)) ||
  (root && decide (65536 < 32 * bits w0 15 5 + 384 * k + 8)) || decide (128 < b + d * k) ||
  (List.range 1024).any (fun t => decide (t ≠ tag) &&
    (let w := (s.rgt cd c t).1
     bit w 63 && rangesMeet (b, d * k) (rgtRange w))) ||
  decide (bits w0 4 0 ≠ 0) || decide (w1 / 65536 ≠ 0)

/-- NOC_RGT_WRITE (R204, R220): one word of an entry; an accepted write zeroes the entry's instance counters (R206). -/
def State.rgtWrite (s : State) (cd c tag w : Nat) (v : Word64) : State :=
  let (o0, o1) := s.rgt cd c tag
  let n0 := if w = 0 then v.toNat else o0
  let n1 := if w = 0 then o1 else v.toNat
  if !s.clusterStopped cd c ∨ s.tagInUse cd c tag ∨ (bit n0 63 ∧ s.rgtRefused cd c tag n0 n1) then s.accessError
  else
    let s := s.setReg cd .nocRgt (if w = 0 then n0 - n0 % 32 else n1 % 65536) c (2 * tag + w)
    let r := s.router cd c
    (s.setRouter cd c { r with
      inst := Tab.keep (fun x => decide (x / 16 ≠ tag)) r.inst
      badInst := Tab.set false r.badInst tag false }).respond 0

/-- NOC_MGT_WRITE (R220). -/
def State.mgtWrite (s : State) (cd c g : Nat) (v : Word64) : State :=
  let e := v.toNat
  let badOut := (List.range 4).any (fun o => bit e (58 + o) && !hasNeighbour c o) || (bit e 62 && !isPortCluster c)
  if !s.clusterStopped cd c ∨ s.groupInUse cd c g ∨ (bit e 63 ∧ badOut) then s.accessError
  else (s.setReg cd .nocMgt (RegFam.written .nocMgt (s.mgt cd c g) e) c g).respond 0

/-- NOC_CRT_WRITE (R220). -/
def State.crtWrite (s : State) (cd c r : Nat) (v : Word64) : State :=
  if !s.clusterStopped cd c then s.accessError
  else (s.setReg cd .nocCrt (RegFam.written .nocCrt (s.reg cd .nocCrt c r) v.toNat) c r).respond 0

/-- NOC_DISCARD (R218): every slot of the tag's entry empties and its instance counters become 0. An entry that is not VALID
has no slots. -/
def State.nocDiscard (s : State) (cd c tag : Nat) : State :=
  let r := s.router cd c
  let w0 := (s.rgt cd c tag).1
  let (b, n) := if bit w0 63 then rgtRange w0 else (0, 0)
  (s.setFld cd .nocDiscard 9 0 tag c).setRouter cd c { r with
    slots := Tab.keep (fun x => !(decide (b ≤ x) && decide (x < b + n))) r.slots
    badInst := Tab.set false r.badInst tag false
    inst := Tab.keep (fun x => decide (x / 16 ≠ tag)) r.inst }

end Sys2Proof.Machine
end

