-- ==== Sys2Proof/Machine/Fabric.lean ====
section
/-!
DEFINITION. The package fabric inside a die: messages, error records, routes, outputs, links that go DOWN, requests and
vectors that leave a mesh (R335 to R354, R362 to R368).
-/

namespace Sys2Proof.Machine

/-! ## Messages (R344, R345) -/

/-- The header flit of a message. -/
def Msg.header (m : Msg) : BitVec 512 :=
  BitVec.ofNat 512 (
    m.type % 256 + (b2n m.poison * 128 + b2n m.priv * 64 + m.vl % 2 * 32 + m.status % 16) <<< 8 +
    (m.gen % 16 * 4096 + m.tag % 4096) <<< 16 + (m.hops % 16 * 4096 + m.dpkg % 4096) <<< 32 +
    (m.ddie % 64) <<< 48 + (m.sdie % 64) <<< 56 + (m.unit % 16 * 4096 + m.spkg % 4096) <<< 64 +
    (m.ctx % 1024) <<< 80 + (m.len % 131072) <<< 96 + (m.emax % 256) <<< 120 + (m.addr % 2 ^ 46) <<< 128 +
    (m.group % 1024) <<< 176 + (m.amt % 256) <<< 192 + (m.ctr % 32) <<< 200)

/-- The message that a header flit opens. -/
def Msg.ofHeader (w : BitVec 512) : Msg :=
  let v := w.toNat
  { type := bits v 7 0, poison := bit v 15, priv := bit v 14, vl := bits v 13 13, status := bits v 11 8,
    gen := bits v 31 28, tag := bits v 27 16, hops := bits v 47 44, dpkg := bits v 43 32, ddie := bits v 53 48,
    sdie := bits v 61 56, unit := bits v 79 76, spkg := bits v 75 64, ctx := bits v 89 80, len := bits v 112 96,
    emax := bits v 127 120, addr := bits v 173 128, group := bits v 185 176, amt := bits v 199 192,
    ctr := bits v 204 200 }

/-- The VC of a message type: 1 MC, 2 FQ, 3 FP (R345). -/
def Msg.vc (m : Msg) : Nat :=
  match m.type with
  | 1 | 2 => 2
  | 3 | 4 => 3
  | _ => 1

/-- Data flits of a message (R343). -/
def Msg.flits (m : Msg) : Nat := ceilDiv m.data.length 64

/-- The flit of a message that follows `i` sent ones. -/
def Msg.flit (m : Msg) (i stream : Nat) : LFlit :=
  if i = 0 then
    { vc := m.vc, kind := if m.flits = 0 && !m.aborted then 1 else 0, stream, vl := m.vl, data := m.header }
  else
    { vc := m.vc, kind := if i = m.flits && !m.aborted then 3 else 2, stream, vl := m.vl,
      data := BitVec.ofNat 512 (ofBytes ((m.data.drop (64 * (i - 1))).take 64)) }

/-! ## Errors (R375, R376) -/

/-- The event ring of a link end or, from 16 on, of a port (R618). -/
def linkRing (die l : Nat) : Ring :=
  if die < 32 then .unit (64 + l) else if die < 36 then .unit (17 + l)
  else if die < 38 then .unit (if 16 ≤ l then l - 16 else 16 + l) else .unit (4 + l)

/-- Raise a bit of PFAB_ERR, record the first error and the event; `link` is a link index, or 16 + p for port p. -/
def State.fabErr (s : State) (die b : Nat) (m : Msg) (link : Nat) : State :=
  (s.ring die (linkRing die (link % 32)) 0x10 (b + (link % 16) <<< 8 + m.group <<< 16 + m.sdie <<< 32)).firstError die .pfabErr .pfabErrinfo (2 ^ b)
    (2 ^ 63 + b <<< 59 + (m.type % 8) <<< 56 + m.spkg <<< 44 + m.sdie <<< 38 + m.unit <<< 34 + m.tag <<< 22 +
      m.gen <<< 18 + (link % 8) <<< 15)

/-- The package ID that a die holds (R335). -/
def State.pkgId (s : State) (die : Nat) : Nat := s.fld die .pfabPkgid 11 0

/-- Put a message into a die's inbox. -/
def State.arrive (s : State) (die : Nat) (m : Msg) : State :=
  let f := s.fab die
  s.setFab die { f with inbox := f.inbox ++ [m] }

/-- The answer of a request: a CPL or ACK to its requester, with the fields of its type alone (R344, R345, R350). -/
def State.answer (s : State) (die : Nat) (m : Msg) (status : Nat) (data : List Byte := []) : State :=
  s.arrive die { type := m.type + 2, status, gen := m.gen, tag := m.tag, dpkg := m.spkg, ddie := m.sdie,
                 sdie := die, spkg := s.pkgId die, unit := m.unit,
                 len := if m.type = 1 ∧ (status = 0 ∨ status = 4) then m.len else 0, data,
                 poison := decide (status = 4) }

/-- A message that cannot go on: a request is answered, anything else dropped (R353, R368). -/
def State.undeliverable (s : State) (die : Nat) (m : Msg) (link : Nat) : State :=
  if m.type = 1 ∨ m.type = 2 then (s.answer die m 3).fabErr die 2 m link
  else s.fabErr die 5 m link

def Msg.isRequest (m : Msg) : Bool := decide (m.type = 1) || decide (m.type = 2)

/-- Several messages that cannot go on: UNREACH, the lower bit of PFAB_ERR, is raised before DROP (R376). -/
def State.undeliverables (s : State) (die : Nat) (ms : List Msg) (link : Nat) : State :=
  (ms.filter (·.isRequest) ++ ms.filter (fun m => !m.isRequest)).foldl (fun s m => s.undeliverable die m link) s

/-! ## Links (R14, R353) -/

/-- The die and link index at the other end of a die link; none where the module has no partner. -/
def partner (die l : Nat) : Option (Nat × Nat) :=
  if die < 32 then
    let c := die % 8
    let r := die / 8
    match l with
    | 0 => if 0 < r then some (die - 8, 2) else if c < 2 then some (38, c) else if c < 6 then some (36, c - 2) else none
    | 1 => if c < 7 then some (die + 1, 3) else none
    | 2 => if r < 3 then some (die + 8, 0) else if 6 ≤ c then some (39, c - 6) else if 2 ≤ c then some (37, c - 2) else none
    | 3 => if 0 < c then some (die - 1, 1) else none
    | 4 => if c = 0 then some (32, r) else if c = 7 then some (34, r) else none
    | 5 => if c = 0 then some (33, r) else if c = 7 then some (35, r) else none
    | _ => none
  else match die, l with
    | 32, 4 => some (33, 4) | 33, 4 => some (32, 4) | 34, 4 => some (35, 4) | 35, 4 => some (34, 4)
    | 32, 5 => some (38, 2) | 35, 5 => some (39, 2)
    | 36, 4 => some (38, 3) | 37, 4 => some (39, 3)
    | 38, 2 => some (32, 5) | 39, 2 => some (35, 5)
    | 38, 3 => some (36, 4) | 39, 3 => some (37, 4)
    | 32, l => if l < 4 then some (8 * l, 4) else none
    | 33, l => if l < 4 then some (8 * l, 5) else none
    | 34, l => if l < 4 then some (8 * l + 7, 4) else none
    | 35, l => if l < 4 then some (8 * l + 7, 5) else none
    | 36, l => if l < 4 then some (2 + l, 0) else none
    | 37, l => if l < 4 then some (26 + l, 2) else none
    | 38, l => if l < 2 then some (l, 0) else none
    | 39, l => if l < 2 then some (30 + l, 2) else none
    | _, _ => none

/-- The full WIDTH code of a link: 3 x64, 2 x32 (R14). -/
def fullWidth (die l : Nat) : Nat :=
  match partner die l with
  | some (d, m) => if (die < 32 ∧ 4 ≤ l) ∨ (d < 32 ∧ 4 ≤ m) then 2 else 3
  | none => 0

/-- STATE of a die link: 0 OFF, 1 TRAINING, 2 UP, 3 DEGRADED, 4 DOWN (R377). -/
def State.linkState (s : State) (die l : Nat) : Nat := s.fld die .pfabLnk 31 29 l

/-- Whether a link carries flits now. -/
def State.linkUp (s : State) (die l : Nat) : Bool := s.linkState die l = 2 || s.linkState die l = 3

/-- Set STATE and WIDTH of both ends of a link. -/
def State.setLinkState (s : State) (die l st w : Nat) : State :=
  let one (s : State) (d l : Nat) : State :=
    ((s.setFld d .pfabLnk 31 29 st l).setFld d .pfabLnk 28 26 w l).ring d (linkRing d l) 0x11 (st + w <<< 3)
  match partner die l with
  | some (d, m) => one (one s die l) d m
  | none => s

/-- STATE of a port (R379). -/
def State.portState (s : State) (die p : Nat) : Nat := s.fld die .lnkPstat 31 29 p

/-- Set STATE and LANES of a port. -/
def State.setPortState (s : State) (die p st lanes : Nat) : State :=
  ((s.setFld die .lnkPstat 31 29 st p).setFld die .lnkPstat 28 26 lanes p).ring die (linkRing die (16 + p)) 0x11
    (st + lanes <<< 3)

/-! ## Outputs -/

/-- A message joins what waits at an output; a VC that had nothing waiting begins to wait now (R367). -/
def Tx.put (t : Tx) (hc : Nat) (m : Msg) : Tx :=
  { t with q := t.q ++ [{ msg := m }]
           since := if t.q.any (fun x => decide (x.msg.vc = m.vc)) then t.since else Tab.set 0 t.since m.vc hc }

/-- Queue a message at a die link. A link that is OFF or TRAINING holds it; a DOWN one answers or drops it (R368). -/
def State.queueLink (s : State) (die l : Nat) (m : Msg) : State :=
  if s.linkState die l = 4 then s.undeliverable die m l
  else
    let e := s.link die l
    s.setLink die l { e with tx := e.tx.put s.hc m }

/-- Whether a port carries flits now. -/
def State.portUp (s : State) (die p : Nat) : Bool := s.portState die p = 2 || s.portState die p = 3

/-- Whether a message for package `k` is queued in a link die (R362). -/
def State.queuedFor (s : State) (die k : Nat) : Bool :=
  let has (t : Tx) : Bool := t.q.any (fun x => decide (x.msg.dpkg = k))
  (s.fab die).inbox.any (fun m => decide (m.dpkg = k)) ||
  (List.range 6).any (fun l => has (s.link die l).tx) || (List.range 16).any (fun p => has (s.port die p).tx)

/-- The port that a link die uses for package `k`: the primary; the alternate while the primary is DOWN, and from then on
until the primary is UP and no message for `k` is queued in the die (R362, R380). -/
def State.portFor (s : State) (die k : Nat) : Option Nat × State :=
  let e := s.reg die .lnkPkgrt k
  let f := s.fab die
  let p := e % 16
  let alt := bits e 11 8
  let mark (on : Bool) : State :=
    let others := f.onAlt.filter (fun x => decide (x ≠ k))
    s.setFab die { f with onAlt := if on then others ++ [k] else others }
  if !bit e 31 then (none, s)
  else
    let usable := bit e 30 && decide (alt ≠ p) && decide (s.portState die alt ≠ 4)
    if s.portState die p = 4 then (if usable then (some alt, mark true) else (none, s))
    else if usable && f.onAlt.contains k && !(s.portUp die p && !s.queuedFor die k) then (some alt, s)
    else (some p, mark false)

/-- Queue a message at a port: a DATELINE port moves it to VL1; HOPS is 15 when it first leaves its package (R363). A vector
that ended as aborted goes no further: a port has no ABORT, and its loss is reported as DROP (R371; log entry 176). -/
def State.queuePort (s : State) (die p : Nat) (m : Msg) : State :=
  if s.portState die p = 4 ∨ m.aborted then s.undeliverable die m (16 + p)
  else if 16 ≤ m.inp ∧ m.hops = 0 then
    let s := s.fabErr die 8 m (16 + p)
    if m.type = 1 ∨ m.type = 2 then s.answer die m 3 else s
  else
    let m := { m with vl := if bit (s.reg die .lnkPcfg p) 30 then 1 else m.vl, hops := if 16 ≤ m.inp then m.hops else 15 }
    let e := s.port die p
    s.setPort die p { e with tx := e.tx.put s.hc m }

/-- Send a message on its way from a die where it does not end (R336, R353, R362). -/
def State.sendOn (s : State) (die : Nat) (m : Msg) : State :=
  let k := m.dpkg
  let ld := 36 + (s.reg die .pfabPsel (k / 32)) / 2 ^ (k % 32) % 2
  if k ≠ s.pkgId die ∧ die = ld then
    match s.portFor die k with
    | (some p, s) => s.queuePort die p m
    | (none, s) => s.undeliverable die m 0
  else
    let d := if k = s.pkgId die then m.ddie else ld
    let e := s.reg die .pfabRt d
    if bit e 31 then s.queueLink die (e % 8) m else s.undeliverable die m (e % 8)

/-- Whether a message ends at this die. -/
def State.endsHere (s : State) (die : Nat) (m : Msg) : Bool := decide (m.dpkg = s.pkgId die) && decide (m.ddie = die)

/-! ## A link goes DOWN (R368) -/

/-- The messages that an output still holds. -/
def Tx.held (t : Tx) : List Msg := t.q.map (fun x => x.msg)

/-- What a receiver does with the parts of messages that were in transfer: a vector ends as aborted, anything else is
never performed. -/
def State.cutParts (s : State) (die inp : Nat) (parts : Tab Msg) : State :=
  parts.foldl (fun s p => if p.2.type = 5 then s.arrive die { p.2 with aborted := true, inp := inp } else s) s

/-- Messages whose last flit the receiver has not accepted. -/
def notAccepted (modulus window rx : Nat) (f : List (Nat × TxMsg)) : List Msg :=
  (f.filter (fun x => decide (window ≤ (rx + 2 * modulus - 1 - x.1) % modulus))).map (fun x => x.2.msg)

/-- What a link keeps when it loses all it holds: the halves it has degraded to (R341). -/
def LinkEnd.cleared (e : LinkEnd) : LinkEnd := { halves := e.halves }

/-- What a port keeps: its width (R360). -/
def PortEnd.cleared (e : PortEnd) : PortEnd := { width := e.width }

/-- Both ends of a link lose what they hold. -/
def State.linkCut (s : State) (die l : Nat) : State :=
  match partner die l with
  | none => s
  | some (d, m) =>
    let a := s.link die l
    let b := s.link d m
    let s := (s.setLink die l a.cleared).setLink d m b.cleared
    let s := s.undeliverables die (notAccepted 512 384 b.rxSeq a.flying ++ a.tx.held) l
    let s := s.undeliverables d (notAccepted 512 384 a.rxSeq b.flying ++ b.tx.held) m
    (s.cutParts die l a.parts).cutParts d m b.parts

/-- Both ends of a link go DOWN; what that does to its messages has the lower bits of PFAB_ERR (R376). -/
def State.linkDown (s : State) (die l : Nat) : State :=
  match partner die l with
  | none => s
  | some (d, m) => (((s.setLinkState die l 4 0).linkCut die l).fabErr die 10 {} l).fabErr d 10 {} m

/-- A port goes DOWN: what it holds and what the peer has not acknowledged is answered or dropped. -/
def State.portDown (s : State) (die p : Nat) : State :=
  let e := s.port die p
  let s := (s.setPortState die p 4 0).setPort die p e.cleared
  let s := s.undeliverables die (e.flying.map (fun x => x.2.msg) ++ e.tx.held) (16 + p)
  (s.fabErr die 10 {} (16 + p)).cutParts die (16 + p) e.parts

/-! ## Requests (R364 to R366) -/

/-- Whether a tag of a unit is free. -/
def FabDie.tagFree (f : FabDie) (unit t : Nat) : Bool :=
  !f.reqs.any (fun r => decide (r.unit = unit) && decide (r.tag = t)) &&
  !f.quar.any (fun q => decide (q.1 = unit) && decide (q.2.1 = t))

/-- The lowest free tag of a unit among the `n` from `t` on. -/
def FabDie.freeFrom (f : FabDie) (unit : Nat) : Nat → Nat → Option Nat
  | 0, _ => none
  | n + 1, t => if f.tagFree unit t then some t else f.freeFrom unit n (t + 1)

/-- The lowest free tag of a unit, of its 4,096. -/
def FabDie.freeTag (f : FabDie) (unit : Nat) : Option Nat := f.freeFrom unit 4096 0

/-- Send a request of a unit; none without a free tag (R366). One for die 40 to 63 is answered ADDR at its requester's die, and
no message is sent (R12, R336). -/
def State.request (s : State) (die unit : Nat) (use : Use) (m : Msg) : Option State :=
  let f := s.fab die
  match f.freeTag unit with
  | none => none
  | some t =>
    let gen := Tab.get 0 f.gens (4096 * unit + t)
    let r : Req := { unit, tag := t, gen, read := decide (m.type = 1), remote := decide (m.dpkg ≠ s.pkgId die),
                     at_ := s.hc, use, len := m.len }
    let m := { m with unit, tag := t, gen, sdie := die, spkg := s.pkgId die }
    let s := s.setFab die { f with reqs := f.reqs ++ [r] }
    some (if 40 ≤ m.ddie then (s.answer die m 1).fabErr die 0 m 0 else s.arrive die m)

/-- Send a request of a unit; without a free tag it waits behind those that wait already (R366). -/
def State.requestWait (s : State) (die unit : Nat) (use : Use) (m : Msg) : State :=
  match s.request die unit use m with
  | some t => t
  | none =>
    let f := s.fab die
    s.setFab die { f with waits := f.waits ++ [(unit, use, m)] }

/-- A tag of a unit has come free: the oldest request that waits for one is sent (R366). -/
def State.sendWaiting (s : State) (die unit : Nat) : State :=
  match (s.fab die).waits.find? (fun w => decide (w.1 = unit)) with
  | none => s
  | some w =>
    match s.request die unit w.2.1 w.2.2 with
    | none => s
    | some t =>
      let f := t.fab die
      t.setFab die { f with waits := f.waits.erase w }

/-- The outstanding request that a completion matches, if any (R364). -/
def FabDie.match? (f : FabDie) (m : Msg) : Option Req :=
  f.reqs.find? (fun r => decide (r.unit = m.unit) && decide (r.tag = m.tag) && decide (r.gen = m.gen) &&
    decide (r.read = decide (m.type = 3)))

/-- A request is over. -/
def State.endReq (s : State) (die : Nat) (r : Req) : State :=
  let f := s.fab die
  s.setFab die { f with reqs := f.reqs.filter (fun x => decide (x ≠ r)) }

/-- A tag leaves quarantine; when it is used again its GEN is one higher (R366). -/
def State.freeQuar (s : State) (die unit t : Nat) : State :=
  let f := s.fab die
  s.setFab die { f with
    quar := f.quar.filter (fun q => !(decide (q.1 = unit) && decide (q.2.1 = t)))
    gens := Tab.upd 0 f.gens (4096 * unit + t) (fun g => (g + 1) % 16) }

/-- A completion that matches no outstanding request: it frees its quarantined tag, and raises LATE_CPL (R366). -/
def State.lateCpl (s : State) (die : Nat) (m : Msg) : State :=
  let s := if (s.fab die).quar.any (fun q => decide (q.1 = m.unit) && decide (q.2.1 = m.tag)) &&
      decide (Tab.get 0 (s.fab die).gens (4096 * m.unit + m.tag) = m.gen)
    then (s.freeQuar die m.unit m.tag).sendWaiting die m.unit else s
  s.fabErr die 4 m 0

/-! ## The inbox -/

/-- Take message `n` of a die's inbox out of it, if it is of one of the types. A request never overtakes an earlier one
of its requester (R349). -/
def State.takeMsg (s : State) (die n type : Nat) : Option (Msg × State) :=
  let f := s.fab die
  match f.inbox[n]? with
  | none => none
  | some m =>
    let same (x : Msg) : Bool := decide (x.spkg = m.spkg) && decide (x.sdie = m.sdie) && decide (x.unit = m.unit) &&
      (decide (x.type = 1) || decide (x.type = 2))
    if m.type ≠ type then none
    else if (m.type = 1 ∨ m.type = 2) ∧ (f.inbox.take n).any same then none
    else if m.type ≥ 5 ∧ (f.inbox.take n).any (fun x => decide (x.type ≥ 5) && decide (x.inp = m.inp)) then none
    else some (m, s.setFab die { f with inbox := f.inbox.eraseIdx n })

/-! ## Vectors and credits that leave a mesh (R351) -/

/-- One flit that left at an EDGE, with the RDIE and RGROUP of its group's entry. -/
def State.edgeFlit (s : State) (cd c rdie rgroup : Nat) (f : Flit) : State :=
  let own := s.pkgId cd
  match f with
  | .cr _ ctr amt =>
    s.arrive cd { type := 6, dpkg := own, spkg := own, sdie := cd, ddie := rdie, group := rgroup, ctr, amt }
  | .mc group off len emax payload bad src =>
    let key := 1024 * c + group
    let fd := s.fab cd
    let v : EdgeVec := if off = 0 then { rdie, rgroup, emax, len, src, opened := true } else Tab.get {} fd.edge key
    if !v.opened then s
    else
      let msg : Msg := { type := 5, dpkg := own, spkg := own, sdie := cd, ddie := v.rdie,
                         group := v.rgroup, len := v.len, emax := v.emax, data := v.data, src := v.src + 1 }
      if bad then
        (s.setFab cd { fd with edge := Tab.erase fd.edge key }).arrive cd { msg with aborted := true }
      else
        let data := v.data ++ toBytes (min 128 (v.len - v.data.length)) payload.toNat
        if data.length = v.len then
          (s.setFab cd { fd with edge := Tab.erase fd.edge key }).arrive cd { msg with data }
        else s.setFab cd { fd with edge := Tab.set {} fd.edge key { v with data } }
  | _ => s

/-- Everything that has left at the EDGE of cluster `c` becomes messages of the die. -/
def State.edgeOut (s : State) (cd c : Nat) : State :=
  let r := s.router cd c
  let s := s.setRouter cd c { r with edge := [] }
  r.edge.foldl (fun s x => s.edgeFlit cd c x.1 x.2.1 x.2.2) s

/-- The port cluster that faces a link of a CD: the halves 4 and 5 belong to the module at the die edge (R191, R353). -/
def portCluster (cd l : Nat) : Nat :=
  match l with
  | 0 => 3
  | 1 => 31
  | 2 => 59
  | 3 => 24
  | _ => if cd % 8 = 0 then 24 else 31

/-- The mesh flits that a vector becomes at the EDGE input of the CD it reaches; those of an aborted vector are BAD
(R351, R352). -/
def Msg.meshFlits (m : Msg) : List Flit :=
  (List.range (ceilDiv m.data.length 128)).map (fun o =>
    .mc m.group o m.len m.emax (BitVec.ofNat 1024 (ofBytes ((m.data.drop (128 * o)).take 128))) m.aborted outside)

/-- A vector or credit enters the mesh of a CD. -/
def State.enterMesh (s : State) (cd : Nat) (m : Msg) : State :=
  let c := portCluster cd m.inp
  let fs := if m.type = 6 then [Flit.cr m.group m.ctr m.amt] else m.meshFlits
  let r := s.router cd c
  s.setRouter cd c { r with edgeIn := r.edgeIn ++ fs }.refillEdge

/-! ## Across the mesh of a compute die (R197) -/

/-- The cluster of a compute die at which an offset is served: that of its core or cluster, else the port cluster that
received the request. -/
def servedAt (off c : Nat) : Nat :=
  if off < 0x2000000 then off / 65536 / 8
  else if off < 0x6000000 then (off - 0x2000000) / 0x100000
  else if 0x8000000 ≤ off ∧ off < 0x9000000 then (off - 0x8000000) / 32768 / 8
  else if 0x3F0010000000 ≤ off ∧ off < 0x3F0014000000 then (off - 0x3F0010000000) / 0x20000 / 8
  else if 0x3F0014000000 ≤ off ∧ off < 0x3F0014040000 then (off - 0x3F0014000000) / 0x1000
  else if 0x3F0018000000 ≤ off ∧ off < 0x3F0018400000 then (off - 0x3F0018000000) / 0x10000
  else c

/-- The die port of a link: 0 N, 1 E, 2 S, 3 W. -/
def linkPort (cd l : Nat) : Nat := if l ≤ 3 then l else if cd % 8 = 0 then 3 else 1

/-- The mesh flits of a message: each carries one flit of the fabric. -/
def Msg.fabFlits (m : Msg) (ext : Bool) (dcl dport : Nat) : List Flit :=
  (List.range (m.flits + 1)).map (fun i => .fab (decide (m.vc = 3)) m.poison ext dcl dport (m.flit i 0).data)

/-- The link by which a message leaves a die, by its routes. -/
def State.linkOut (s : State) (die : Nat) (m : Msg) : Nat :=
  s.reg die .pfabRt (if m.dpkg = s.pkgId die then m.ddie
    else 36 + (s.reg die .pfabPsel (m.dpkg / 32)) / 2 ^ (m.dpkg % 32) % 2) % 8

/-- The flits of a request or completion cross the mesh of a compute die on their way through it, from the port cluster of the
link they came by: to the cluster that serves the offset, or to the die port of the link they leave by. -/
def State.cross (s : State) (cd : Nat) (m : Msg) : State :=
  if 32 ≤ cd ∨ 5 ≤ m.type ∨ m.type = 0 ∨ 6 ≤ m.inp then s
  else
    let c := portCluster cd m.inp
    let fs := if s.endsHere cd m then m.fabFlits false (if m.isRequest then servedAt m.addr c else c) 0
      else m.fabFlits true 0 (linkPort cd (s.linkOut cd m))
    s.crossMesh cd fs 15 c 4

/-- The flits of an answer cross it back, from the cluster that served the offset to the die port of the link they leave by. -/
def State.crossBack (s : State) (cd : Nat) (m : Msg) (data : List Byte) : State :=
  if 32 ≤ cd ∨ 6 ≤ m.inp then s
  else
    let c := portCluster cd m.inp
    let at_ := servedAt m.addr c
    let ans : Msg := { type := m.type + 2, dpkg := m.spkg, ddie := m.sdie, data }
    s.crossMesh cd (ans.fabFlits true 0 (linkPort cd (s.linkOut cd ans))) 15 at_ (if at_ = c then 4 else 5)

/-- A message made by a unit of a die: an MCV of `data` (R242, R245). -/
def State.postVector (s : State) (die rdie group emax : Nat) (data : List Byte) (poison : Bool := false)
    (slot : Nat := 16384) : State :=
  let own := s.pkgId die
  s.arrive die { type := 5, poison, dpkg := own, spkg := own, sdie := die, ddie := rdie, group,
                 len := data.length, emax, data, slot }

/-! ## Replay logs (R569, R570, R573) -/

/-- The control die on which the serving engine runs: KD1 once KD0 is lost (R580). -/
def State.servingDie (s : State) : Nat := if s.plat.lostKd = 39 then 39 else 38

/-- A key that names a credit route: receiving die, group, counter. -/
def routeKey (ddie group ctr : Nat) : Nat := ddie * 2 ^ 15 + group * 32 + ctr

/-- A key that names what a die receives on one group of one sender. -/
def sourceKey (spkg sdie group : Nat) : Nat := (spkg * 64 + sdie) * 1024 + group

/-- The die that credit for a sender's messages leaves toward. -/
def State.creditDie (s : State) (die spkg sdie : Nat) : Nat :=
  if spkg = s.pkgId die then sdie else 36 + s.reg die .pfabPsel (spkg / 32) / 2 ^ (spkg % 32) % 2

/-- The credit route paired with a received group: among those toward one die, the first group to land goes with the
first route to be granted, and so on (log entry 86). -/
def State.routeOf (s : State) (die spkg sdie group : Nat) : Option Nat :=
  let d := s.creditDie die spkg sdie
  let log := (s.fab die).log
  let sources := (log.filterMap (fun e => match e with
    | .landing p x g _ _ => if s.creditDie die p x = d then some (sourceKey p x g) else none
    | _ => none)).eraseDups
  let routes := (log.filterMap (fun e => match e with
    | .credit r _ => if r / 2 ^ 15 = d then some r else none
    | _ => none)).eraseDups
  routes[sources.idxOf (sourceKey spkg sdie group)]?

/-- Drop the oldest credit of a route. -/
def dropCredit (route : Nat) : List LogEntry → List LogEntry
  | [] => []
  | .credit r a :: t => if r = route then t else .credit r a :: dropCredit route t
  | e :: t => e :: dropCredit route t

/-- Landings of a slot from senders that satisfy `p` leave a die's log, each with the credit that paid for it. -/
def State.dropLandings (s : State) (die slot : Nat) (p : Nat → Nat → Bool) : State :=
  let f := s.fab die
  let gone (e : LogEntry) : Bool := match e with
    | .landing k d _ x _ => decide (x = slot) && p k d
    | _ => false
  let routes := (f.log.filter gone).filterMap (fun e => match e with
    | .landing k d g _ _ => s.routeOf die k d g
    | _ => none)
  s.setFab die { f with log := routes.foldl (fun l r => dropCredit r l) (f.log.filter (fun e => !gone e)) }

/-- A die's copies of its own sends that satisfy `p` leave the retention store and the log. -/
def State.dropCopies (s : State) (die : Nat) (p : Nat → Msg → Bool) : State :=
  let f := s.fab die
  let s := s.setFab die { f with
    retained := f.retained.filter (fun r => !p r.1 r.2)
    log := f.log.filter (fun e => match e with | .sent k m => !p k m | _ => true) }
  let d := s.die die
  s.setDie die { d with ras := { d.ras with expect := d.ras.expect.filter (fun m => !p m.slot m) } }

/-- A request slot has been released: its copies and log entries are freed package-wide (R570). -/
def State.freeCopies (s : State) (slot : Nat) : State :=
  s.fabs.foldl (fun s e => (s.dropLandings e.1 slot (fun _ _ => true)).dropCopies e.1 (fun k _ => decide (k = slot))) s

/-! ## Ways inside the package -/

/-- The way of a message of die `die` to die `dst` of the package, from its input `inp` on: it arrives by a link, or it stops at
a die with no valid route or before a DOWN link (`false`), or before a link that is OFF or TRAINING and holds it (`true`). -/
def State.walk (s : State) : Nat → Nat → Nat → Nat → Except (Nat × Bool) Nat
  | 0, die, _, _ => .error (die, true)
  | n + 1, die, dst, inp =>
    if die = dst then .ok inp
    else
      let e := s.reg die .pfabRt dst
      if !bit e 31 || s.linkState die (e % 8) = 4 then .error (die, false)
      else if !s.linkUp die (e % 8) then .error (die, true)
      else
        match partner die (e % 8) with
        | some (d, m) => s.walk n d dst m
        | none => .error (die, true)

/-- Whether nothing stops a message of die `die` to die `dst` by the routes and links of now (R353, R365, R368). -/
def State.arrives (s : State) (die dst : Nat) : Bool :=
  match s.walk 40 die dst 8 with
  | .ok _ => true
  | .error _ => false

/-- The link of die `dst` by which a message of die `die` comes in; 8 where it does not. -/
def State.entry (s : State) (die dst : Nat) : Nat :=
  match s.walk 40 die dst 8 with
  | .ok l => l
  | .error _ => 8

/-- Whether a request and its answer both get there. -/
def State.reaches (s : State) (src dst : Nat) : Bool := s.arrives src dst && s.arrives dst src

end Sys2Proof.Machine
end

