-- ==== Sys2Proof/Machine/Fec.lean ====
section
/-!
DEFINITION. The forward error correction of an inter-package port: RS(544,514) codewords, their symbols on the lanes, and what
a receiver corrects (R356, R358).
-/

namespace Sys2Proof.Machine

/-- A 10-bit symbol times `x`, modulo x^10 + x^3 + 1 (log entry 175). -/
def gfX (a : Nat) : Nat := if 512 ≤ a then (2 * a) ^^^ 1033 else 2 * a

/-- `a` times `b` in GF(2^10), by the lowest `n` bits of `b`. -/
def gfMul (a : Nat) : Nat → Nat → Nat
  | 0, _ => 0
  | n + 1, b => (if b % 2 = 1 then a else 0) ^^^ gfMul (gfX a) n (b / 2)

/-- The first `n` powers of `x` from `a` on. -/
def gfPowers : Nat → Nat → List Nat
  | 0, _ => []
  | n + 1, a => a :: gfPowers n (gfX a)

/-- A polynomial, highest coefficient first, times (x + r). -/
def polyRoot (r : Nat) (p : List Nat) : List Nat :=
  (p ++ [0]).zipWith (· ^^^ ·) (0 :: p.map (fun c => gfMul r 10 c))

/-- The generator of Clause 91: the 30 roots are the powers of `x` from x^0 on (R356; log entry 175). -/
def rsGenerator : List Nat := (gfPowers 30 1).foldl (fun p r => polyRoot r p) [1]

/-- The 30 check symbols of a codeword's 514 message symbols. -/
def rsParity (message : List Nat) : List Nat :=
  message.foldl (fun rem m =>
    let f := m ^^^ rem.headD 0
    (rem.drop 1 ++ [0]).zipWith (· ^^^ ·) ((rsGenerator.drop 1).map (fun c => gfMul f 10 c))) (List.replicate 30 0)

/-- The codeword that carries the next 5,140 bits of the flit stream (R358). -/
def rsCodeword (stream : Nat) : List Nat :=
  let message := (List.range 514).map (fun i => stream / 1024 ^ i % 1024)
  message ++ rsParity message

/-- What a port puts on its lanes: after every 4,096 codewords one alignment codeword (R358). -/
def withAlignment : Nat → List (List Nat) → List (List Nat)
  | _, [] => []
  | n, c :: t =>
    if n % 4096 = 4095 then c :: (List.range 544).map (fun i => (Config.alignment i).toNat) :: withAlignment (n + 1) t
    else c :: withAlignment (n + 1) t

/-- The active lane that carries symbol `i` of a codeword: the symbols are dealt in rotation (R358). -/
def laneOf (lanes i : Nat) : Nat := i % max 1 lanes

/-- A codeword with the errors at these symbols is corrected when there are at most 15 of them (R358). -/
def correctable (errs : List Nat) : Bool := decide (errs.eraseDups.length ≤ 15)

/-- Of the codewords under a flit, given by their symbols in error: how many are corrected, and how many cannot be. -/
def fecCounts (words : List (List Nat)) : Nat × Nat :=
  ((words.filter (fun e => !e.isEmpty && correctable e)).length, (words.filter (fun e => !correctable e)).length)

/-- Corrected symbols on a lane. -/
def laneCorrected (lanes lane : Nat) (words : List (List Nat)) : Nat :=
  (words.filter correctable).foldl (fun n e => n + (e.eraseDups.filter (fun i => decide (laneOf lanes i = lane))).length) 0

end Sys2Proof.Machine
end

