-- ==== Sys2Proof/Machine/Links.lean ====
section
/-!
DEFINITION. Die links and inter-package ports: what an output sends next, go-back-N, training, width and lane degrade,
encryption (R337 to R346, R356 to R363, R366 to R370, R466 to R469).
-/

namespace Sys2Proof.Machine

/-! ## The arbiter of an output (R346, R369) -/

/-- What an output's arbiter goes by: its inputs in the order of visits, the input that a message's entry into the die belongs
to, each input's weight, whether a VC and VL has credit, and whether streams are counted by VL too. -/
structure Outlet where
  inputs : List Nat
  cls : Nat → Nat
  weight : Nat → Nat
  credit : Nat → Nat → Bool
  byVl : Bool

/-- The message of an input that a VC serves: the first one queued. Links that form one input are served in rotation. -/
def Tx.front (t : Tx) (o : Outlet) (vc i : Nat) : Option TxMsg :=
  let ms := t.q.filter (fun x => decide (x.msg.vc = vc) && decide (o.cls x.msg.inp = i))
  let turn := Tab.get 0 t.turn (64 * vc + i)
  let least (l : List Nat) : Option Nat := l.foldl (fun a x => match a with | some y => some (min x y) | none => some x) none
  let ins := ms.map (fun x => x.msg.inp)
  match (least (ins.filter (fun x => decide (turn ≤ x)))).orElse (fun _ => least ins) with
  | some g => ms.find? (fun x => decide (x.msg.inp = g))
  | none => none

/-- The lowest free stream of a VC, on a port of a VC and VL; 8 when all are held (R346, R357). -/
def Tx.freeStream (t : Tx) (byVl : Bool) (vc vl : Nat) : Nat :=
  ((List.range 8).find? (fun st =>
    !t.q.any (fun x => decide (x.msg.vc = vc) && (!byVl || decide (x.msg.vl = vl)) && decide (x.stream = st)))).getD 8

/-- Whether what follows of a message is the ABORT that ends it. -/
def TxMsg.ending (x : TxMsg) : Bool := x.msg.aborted && decide (x.sent = x.msg.flits + 1)

/-- Whether an input has a flit ready on a VC, and credit for it; an ABORT is link control and takes none. -/
def Tx.ready (t : Tx) (o : Outlet) (vc i : Nat) : Bool :=
  match t.front o vc i with
  | some x => (decide (x.stream < 8) || decide (t.freeStream o.byVl vc x.msg.vl < 8)) && (x.ending || o.credit vc x.msg.vl)
  | none => false

/-- The input that a VC serves next: the one in service while it has flits and has sent fewer than W, else the next
ready one in rotation with a weight. -/
def Tx.pick (t : Tx) (o : Outlet) (vc : Nat) : Option (Nat × Nat) :=
  let cur := Tab.get 0 t.inp vc
  let run := Tab.get 0 t.run vc
  if o.inputs.contains cur && t.ready o vc cur && decide (run < o.weight cur) then some (cur, run + 1)
  else
    let order := o.inputs.filter (fun i => decide (cur < i)) ++ o.inputs.filter (fun i => decide (i ≤ cur))
    match order.find? (fun i => t.ready o vc i && decide (0 < o.weight i)) with
    | some i => some (i, 1)
    | none => none

/-- Replace the first entry equal to `x`, or remove it. -/
def replaceMsg (x : TxMsg) (y : Option TxMsg) : List TxMsg → List TxMsg
  | [] => []
  | z :: l => if z = x then (match y with | some y => y :: l | none => l) else z :: replaceMsg x y l

/-- What an output sends next: a flit, or the ABORT of a cut-off message, and the message when that ends it. -/
structure Sent where
  flit : Option LFlit
  abort : Option Nat
  done : Option TxMsg
  tx : Tx

/-- The next flit of an output at hclk time `hc`; none when nothing is ready. A VC without a flit ready or without credit is
skipped (R369). -/
def Tx.step (t : Tx) (o : Outlet) (hc : Nat) : Option Sent :=
  let vcs := [t.vc, t.vc % 3 + 1, (t.vc + 1) % 3 + 1]
  match vcs.findSome? (fun v => (t.pick o v).map (fun p => (v, p))) with
  | none => none
  | some (v, i, run) =>
    match t.front o v i with
    | none => none
    | some x =>
      let st := if x.stream < 8 then x.stream else t.freeStream o.byVl v x.msg.vl
      let t' : Tx := { t with
        vc := v % 3 + 1
        inp := Tab.set 0 t.inp v i
        run := Tab.set 0 t.run v run
        turn := Tab.set 0 t.turn (64 * v + i) (x.msg.inp + 1)
        since := Tab.set 0 t.since v hc }
      if x.ending then
        some { flit := none, abort := some st, done := some x, tx := { t' with q := replaceMsg x none t'.q } }
      else
        let y := { x with stream := st, sent := x.sent + 1 }
        let ends := !x.msg.aborted && decide (x.sent = x.msg.flits)
        some { flit := some (x.msg.flit x.sent st), abort := none, done := if ends then some y else none,
               tx := { t' with q := replaceMsg x (if ends then none else some y) t'.q } }

/-! ## What a receiver rebuilds (R339, R343) -/

/-- One accepted flit joins its message; a message that is whole leaves. -/
def joinFlit (parts : Tab Msg) (key : Nat) (f : LFlit) : Tab Msg × Option Msg :=
  if f.kind ≤ 1 then
    let m := Msg.ofHeader f.data
    if f.kind = 1 then (parts, some m) else (Tab.set {} parts key m, none)
  else
    let m := Tab.get {} parts key
    let m := { m with data := (m.data ++ toBytes 64 f.data.toNat).take m.len }
    if f.kind = 3 then (Tab.erase parts key, some m) else (Tab.set {} parts key m, none)

/-- A message has come in whole: one of an unknown type is discarded here (R345). -/
def State.cameIn (s : State) (die inp : Nat) (m : Msg) : State :=
  if m.type = 0 ∨ 6 < m.type then s.fabErr die 7 m inp
  else s.arrive die { m with inp := inp, hops := if 16 ≤ inp then m.hops - 1 else m.hops, src := 0 }

/-! ## Die links (R338 to R341) -/

/-- The tag of a flit without its CRC. -/
def tagLow (seq vc kind stream : Nat) : Nat := seq % 512 * 128 + vc % 4 * 32 + kind % 4 * 8 + stream % 8

/-- The 544 bits of a flit on the link: its data, then its tag with the CRC. -/
def wire (seq vc kind stream : Nat) (data : BitVec 512) : BitVec 544 :=
  let low := tagLow seq vc kind stream
  let crc := crc16 (toBytes 64 data.toNat ++ toBytes 2 low)
  BitVec.ofNat 544 (data.toNat + (crc * 65536 + low) <<< 512)

/-- Whether the CRC of a received flit is good. -/
def wireGood (w : BitVec 544) : Bool :=
  let v := w.toNat
  decide (crc16 (toBytes 64 v ++ toBytes 2 (bits v 527 512)) = bits v 543 528)

/-- The arbiter weight of input `i` at output `l` (R378). -/
def State.arbW (s : State) (die l i : Nat) : Nat :=
  s.fld die .pfabArbw 9 0 l (if i ≤ 5 then i else 8)

/-- Flits of receive buffer of a VC at a link's end: at least what 2.5 flits per cc over the 96 cc there and back take, as a
link runs at its full rate (R342, R343; log entry 114). -/
def linkBuffer (vc : Nat) : Nat := Config.linkRoom vc + 240

/-- The arbiter of a die link: its inputs are the die's links and the own sources; at a link die what came in at a port counts
as one of those (R369; log entry 42). -/
def State.linkOutlet (s : State) (die l : Nat) : Outlet where
  inputs := [0, 1, 2, 3, 4, 5, 8]
  cls := fun i => if i < 6 then i else 8
  weight := s.arbW die l
  credit := fun vc _ =>
    let e := s.link die l
    decide (Tab.get 0 e.sent vc - Tab.get 0 e.back vc < linkBuffer vc)
  byVl := false

/-- The data of a credit return: the VC, and how many flits of it have been freed so far (log entry 114). -/
def creditData (vc n : Nat) : BitVec 512 := BitVec.ofNat 512 (vc % 256 + n <<< 8)

/-- Take the next flit that the end (die, l) sends: control first, then what must be resent, then a new one. -/
def State.linkSend (s : State) (die l : Nat) : Option (BitVec 544 × State) :=
  let e := s.link die l
  match e.ctl with
  | c :: rest =>
    let s := s.setLink die l { e with ctl := rest }
    match c with
    | .ack q => some (wire q 0 0 0 0, s)
    | .nak q => some (wire q 0 1 0 0, s)
    | .credit vc => some (wire 0 0 2 0 (creditData vc (Tab.get 0 e.freed vc)), s)
    | .abort st => some (wire 0 0 3 st 0, s)
  | [] =>
    match e.replay[e.next]? with
    | some (q, f) =>
      some (wire q f.vc f.kind f.stream f.data, s.setLink die l { e with
        next := e.next + 1, tx := { e.tx with since := Tab.set 0 e.tx.since f.vc s.hc } })
    | none =>
      if 384 ≤ e.replay.length then none
      else
        match e.tx.step (s.linkOutlet die l) s.hc with
        | none => none
        | some r =>
          match r.flit with
          | none =>
            let st := r.abort.getD 0
            some (wire 0 0 3 st 0, s.setLink die l { e with tx := r.tx })
          | some f =>
            let q := e.txSeq
            some (wire q f.vc f.kind f.stream f.data, s.setLink die l { e with
              tx := r.tx
              replay := e.replay ++ [(q, f)]
              next := e.next + 1
              txSeq := (q + 1) % 512
              flying := match r.done with | some x => e.flying ++ [(q, x)] | none => e.flying
              sent := Tab.upd 0 e.sent f.vc (fun n => n + 1) })

/-- Queue a control flit at an end. -/
def State.linkCtl (s : State) (die l : Nat) (c : Ctl) : State :=
  let e := s.link die l
  s.setLink die l { e with ctl := e.ctl ++ [c] }

/-- A discarded flit is answered with a NAK that carries the expected SEQ. -/
def State.linkNak (s : State) (die l : Nat) : State :=
  (s.linkCtl die l (.nak (s.link die l).rxSeq)).addFld die .pfabLnk 15 0 1 l

/-- A link is lost for good: both ends go DOWN, and where a route leads through it, none is left, which is class E (R353, R566). -/
def State.linkLost (s : State) (die l : Nat) : State :=
  let leads (d m : Nat) : Bool := (List.range 40).any (fun t => bit (s.reg d .pfabRt t) 31 && decide (s.fld d .pfabRt 2 0 t = m))
  match partner die l with
  | none => s
  | some (d, m) =>
    let t := s.linkDown die l
    if leads die l || leads d m then t.classE (if die = 36 ∨ die = 37 then d else die) 6 else t

/-- A link trains again at half width `w`, after NAKs in a row; below x16 it goes DOWN (R341). -/
def State.retrain (s : State) (die l w : Nat) : State :=
  if w = 0 then s.linkLost die l
  else
    let s := s.setLinkState die l 1 w
    let s := (s.fabErr die 9 {} l).setLink die l { s.link die l with halve := true }
    match partner die l with
    | some (d, m) => (s.fabErr d 9 {} m).setLink d m { s.link d m with halve := true }
    | none => s

/-- An ACK frees the flits up to its SEQ (R340). -/
def State.linkAck (s : State) (die l q : Nat) : State :=
  let e := s.link die l
  match e.replay.findIdx? (fun x => decide (x.1 = q)) with
  | none => s
  | some i =>
    let gone := (e.replay.take (i + 1)).map (fun x => x.1)
    s.setLink die l { e with
      replay := e.replay.drop (i + 1)
      next := e.next - (i + 1)
      naks := 0
      flying := e.flying.filter (fun x => !gone.contains x.1) }

/-- A NAK: the sender resends from its SEQ; the eighth in a row for one SEQ degrades the link (R340, R341). -/
def State.linkNakIn (s : State) (die l q : Nat) : State :=
  let e := s.link die l
  let n := if e.naks ≠ 0 ∧ e.nakSeq = q then e.naks + 1 else 1
  let i := (e.replay.findIdx? (fun x => decide (x.1 = q))).getD e.replay.length
  let s := s.setLink die l { e with next := i, nakSeq := q, naks := if n = 8 then 0 else n }
  if n = 8 then s.retrain die l (s.fld die .pfabLnk 28 26 l - 1) else s

/-- An ABORT ends its stream's message on the MC channel (R351). -/
def State.linkAbort (s : State) (die l st : Nat) : State :=
  let e := s.link die l
  let key := 8 + st
  let m := Tab.get {} e.parts key
  if m.type = 0 then s
  else (s.setLink die l { e with parts := Tab.erase e.parts key }).arrive die { m with aborted := true, inp := l }

/-- The control flits by which an end acknowledges what it has accepted: the ACK, and the credits of the flits it has taken out
of its receive buffer, of which every flit joins its message at once (R339, R340; log entry 114). -/
def LinkEnd.acks (e : LinkEnd) (q : Nat) : List Ctl := .ack q :: (e.freed.map (fun x => .credit x.1))

/-- A credit return: the partner has freed `n` flits of a VC so far (R339). -/
def State.linkCredit (s : State) (die l vc n : Nat) : State :=
  let e := s.link die l
  s.setLink die l { e with back := Tab.set 0 e.back vc n }

/-- A flit arrives at the end (die, l) (R340). -/
def State.linkReceive (s : State) (die l : Nat) (w : BitVec 544) : State :=
  let e := s.link die l
  let v := w.toNat
  let q := bits v 527 519
  let vc := bits v 518 517
  let kind := bits v 516 515
  let st := bits v 514 512
  if !wireGood w then s.linkNak die l
  else if vc = 0 then
    match kind with
    | 0 => s.linkAck die l q
    | 1 => s.linkNakIn die l q
    | 2 => s.linkCredit die l (bits v 7 0) (bits v 71 8)
    | _ => s.linkAbort die l st
  else if q = e.rxSeq then
    let f : LFlit := { vc, kind, stream := st, data := BitVec.ofNat 512 v }
    let r := joinFlit e.parts (8 * vc + st) f
    let due := decide (64 ≤ e.unacked + 1)
    let e := { e with freed := Tab.upd 0 e.freed vc (fun n => n + 1) }
    let s := s.setLink die l { e with
      rxSeq := (q + 1) % 512
      unacked := if due then 0 else e.unacked + 1
      ctl := if due then e.ctl ++ e.acks q else e.ctl
      parts := r.1 }
    match r.2 with
    | some m => s.cameIn die l m
    | none => s
  else if (e.rxSeq + 511 - q) % 512 < 384 then s.linkCtl die l (.ack ((e.rxSeq + 511) % 512))
  else s.linkNak die l

/-- DIE_LINK_FLIT: the next flit of the partner arrives, with the bits of `noise` inverted on the way. -/
def State.dieLinkFlit (s : State) (die l : Nat) (noise : BitVec 544) : State :=
  match partner die l with
  | none => s
  | some (d, m) =>
    if !s.linkUp die l then s
    else
      match s.linkSend d m with
      | none => s
      | some (w, s) => s.linkReceive die l (w ^^^ noise)

/-- The control flit of one kind that the partner sends next, arriving undamaged. -/
def State.linkCtlFlit (s : State) (die l : Nat) (pred : Ctl → Bool) : State :=
  match partner die l with
  | none => s
  | some (d, m) =>
    match (s.link d m).ctl with
    | c :: _ => if pred c then s.dieLinkFlit die l 0 else s
    | [] => s

def State.flitAck (s : State) (die l : Nat) : State :=
  s.linkCtlFlit die l (fun c => match c with | .ack _ => true | _ => false)

def State.flitNak (s : State) (die l : Nat) : State :=
  s.linkCtlFlit die l (fun c => match c with | .nak _ => true | _ => false)

/-- ABORT: the partner ends its message by an ABORT next. -/
def State.abortFlit (s : State) (die l : Nat) : State :=
  match partner die l with
  | none => s
  | some (d, m) =>
    let e := s.link d m
    let next := if e.ctl = [] ∧ e.next = e.replay.length then e.tx.step (s.linkOutlet d m) s.hc else none
    match next with
    | some r => if r.abort.isSome then s.dieLinkFlit die l 0 else s
    | none => s

/-- CREDIT_RETURN: the partner's next flit returns credits of a VC to the sender (die, l) (R339). -/
def State.creditReturn (s : State) (die l vc : Nat) : State :=
  s.linkCtlFlit die l (fun c => match c with | .credit v => decide (v = vc) | _ => false)

/-- ACK_DUE: the receiver acknowledges what it has accepted (R340). -/
def State.ackDue (s : State) (die l : Nat) : State :=
  let e := s.link die l
  if 0 < e.unacked ∧ s.linkUp die l then
    s.setLink die l { e with unacked := 0, ctl := e.ctl ++ e.acks ((e.rxSeq + 511) % 512) }
  else s

/-- The WIDTH code that a link trains at: full, less one for each time it has degraded (R341). -/
def State.linkWidth (s : State) (die l : Nat) : Nat := fullWidth die l - (s.link die l).halves.length

/-- LINK_TRAINING_DONE: `low` and `high` say which halves of the lanes in use have a failing lane. The link goes on in the half
without one, the lower where none is known (log entry 177), and keeps to it until a cold reset (R341). -/
def State.linkTrained (s : State) (die l : Nat) (low high : Bool) : State :=
  match partner die l with
  | none => s
  | some (d, m) =>
    let halve := (s.link die l).halve
    if s.linkState die l ≠ 1 then s
    else if low && high then s.linkLost die l
    else
      let lose := halve || low || high
      let keep (e : LinkEnd) : LinkEnd := { e with
        next := 0, halve := false, halves := if lose then e.halves ++ [low] else e.halves }
      let s := (s.setLink die l (keep (s.link die l))).setLink d m (keep (s.link d m))
      let w := s.linkWidth die l
      if w = 0 then s.linkLost die l
      else
        let s := if lose && !halve then (s.fabErr die 9 {} l).fabErr d 9 {} m else s
        s.setLinkState die l (if w = fullWidth die l then 2 else 3) w

/-! ## Ports: what leaves (R357 to R359, R467) -/

/-- The 68 bytes of a unit (R357). -/
def LFlit.unitBytes (f : LFlit) : List Byte :=
  toBytes 4 (f.vl % 2 * 65536 + f.vc % 4 * 32 + f.kind % 4 * 8 + f.stream % 8) ++ toBytes 64 f.data.toNat

/-- The last SEQ that goes out as ACK. -/
def flitHead (ack : Nat) (nak ctrl : Bool) (seq cvc cvl credits : Nat) : List Byte :=
  toBytes 2 (ack % 128 * 512 + b2n nak * 256 + b2n ctrl * 128 + seq % 128) ++
  toBytes 2 (cvc % 4 * 16384 + cvl % 2 * 8192 + credits % 8192)

/-- A whole ILP flit: head, 248 bytes, CRC over bytes 0 to 251. -/
def ilpFlit (head body : List Byte) : BitVec 2048 :=
  let bs := head ++ body ++ List.replicate (248 - body.length) 0#8
  BitVec.ofNat 2048 (ofBytes (bs ++ toBytes 4 (crc32 bs)))

/-- The first VC and VL with credits to return, and how many. -/
def PortEnd.credits (e : PortEnd) : Nat × Nat × Nat :=
  match e.owed with
  | (k, n) :: _ => (k % 4, k / 4, min n 8191)
  | [] => (0, 0, 0)

/-- Both link dies hold the keys; the key of one direction of a port (R466). -/
def State.portKey (s : State) (slot : Nat) (nonces : BitVec 256) (pkgTx portTx pkgRx portRx : Nat) : List Byte :=
  let info := [0x49#8, 0x4C#8, 0x50#8, 0x31#8] ++ toBytes 2 pkgTx ++ toBytes 2 portTx ++ toBytes 2 pkgRx ++ toBytes 2 portRx
  hkdf384 (toBytes 32 nonces.toNat) (Tab.get [] s.linkKeys slot) info

/-- The port number that a port sends at training: 16 to 31 on LD1. -/
def portNo (die p : Nat) : Nat := 16 * (die - 36) + p

/-- The 96-bit IV of a window (R467). -/
def windowIv (w : Nat) : List Byte := toBytes 8 w ++ toBytes 4 0

/-- Flits in a window (R470). -/
def State.winLen (s : State) (die p : Nat) : Nat := 8 * (s.fld die .lnkSec 62 61 p + 1)

/-- The flits that an end has not sent since the last NAK or training go out on the line, with the ACK and NAK of now (R359). -/
def PortEnd.push (e : PortEnd) : PortEnd :=
  let flits := (e.replay.drop e.next).zipIdx.map (fun x =>
    ilpFlit (toBytes 2 (e.acked % 128 * 512 + b2n (e.nakDue && decide (x.2 = 0)) * 256 + x.1.1 % 128) ++ toBytes 2 x.1.2.1) x.1.2.2)
  if flits = [] then e
  else { e with line := e.line ++ flits, next := e.replay.length, nakDue := false, ackSent := e.acked }

/-- A control flit goes out: it is not sequenced and never retried (R357). -/
def PortEnd.control (e : PortEnd) (bs : List Byte) : PortEnd :=
  let flit := ilpFlit (flitHead e.acked e.nakDue true 0 0 0 0) bs
  { e with line := e.line ++ [flit], nakDue := false, ackSent := e.acked }

/-- A control flit that is kept until the next ACK, so that it can be sent again. -/
def PortEnd.keep (e : PortEnd) (bs : List Byte) : PortEnd :=
  let e := e.control bs
  { e with ctl := e.ctl ++ e.line.drop (e.line.length - 1) }

/-- Send one sequenced flit with 248 stream bytes. -/
def State.portEmit (s : State) (die p : Nat) (body : List Byte) : State :=
  let e := s.port die p
  let (cvc, cvl, n) := e.credits
  let h1 := cvc % 4 * 16384 + cvl % 2 * 8192 + n % 8192
  let e := { e with owed := if n = 0 then e.owed else Tab.upd 0 e.owed (4 * cvl + cvc) (fun k => k - n) }
  if !e.sec then
    s.setPort die p ({ e with replay := e.replay ++ [(e.txSeq, h1, body)], txSeq := (e.txSeq + 1) % 128 } : PortEnd).push
  else
    -- a new window takes the nonces of now, and from KSTEP on the other slot (R469)
    let fresh := decide (e.txBytes = [])
    let slotReg := s.fld die .lnkSec 60 60 p
    let kstep := s.fld die .lnkSec 55 0 p
    let turn := fresh && e.keyArmed && decide (kstep ≤ (s.die die).wagV.toNat)
    let slot := if turn then 1 - slotReg else e.txSlot
    let nonces := if fresh then e.nonceTx ++ e.nonceRx else e.txNonces
    let s := if turn then s.setFld die .lnkSec 60 60 slot p else s
    let key := s.portKey slot nonces (s.pkgId die) (portNo die p) e.peer e.peerPort
    let ct := gcmCrypt key (windowIv e.txWin) e.txBytes.length body
    let all := e.txBytes ++ ct
    let e := ({ e with
      replay := e.replay ++ [(e.txSeq, h1, ct)]
      txSeq := (e.txSeq + 1) % 128
      txSlot := slot
      keyArmed := e.keyArmed && !turn
      txNonces := nonces } : PortEnd).push
    if all.length < 248 * s.winLen die p then s.setPort die p { e with txBytes := all }
    else
      let e := e.keep ([0x01#8, BitVec.ofNat 8 slot, 0#8, 0#8] ++ toBytes 8 e.txWin ++ gcmTag key (windowIv e.txWin) all)
      s.setPort die p { e with
        txBytes := []
        txWin := e.txWin + 1
        macs := e.macs ++ [((e.txSeq + 127) % 128, e.ctl.getLastD 0)] }

/-- The weight of an input of a port: 0 to 15 ports, 16 the die links together (R381). -/
def State.lnkW (s : State) (die p i : Nat) : Nat := s.fld die .lnkArbw 9 0 p (if 16 ≤ i ∧ i < 32 then i - 16 else 16)

/-- The inputs of a port: the 16 ports, then the die links as one (R369). -/
def portInputs : List Nat := (List.range 16).map (fun i => 16 + i) ++ [32]

/-- Units of receive buffer of a VC and VL at the other end of a port: at least the 64 flits of 248 bytes that a port has
under way at its full rate (R357, R359; log entry 114). -/
def portBuffer (key : Nat) : Nat := Config.portRoom key + 234

/-- The arbiter of a port: its inputs are the 16 ports, then the die links, served in rotation as one (R369). -/
def State.portOutlet (s : State) (die p : Nat) : Outlet where
  inputs := portInputs
  cls := fun i => if 16 ≤ i then i else 32
  weight := s.lnkW die p
  credit := fun vc vl => decide (Tab.get 0 (s.port die p).used (4 * vl + vc) < portBuffer (4 * vl + vc))
  byVl := true

/-- What a port with nothing more to send still sends: a flit of fillers that returns credits, or a control flit with a due
ACK or NAK (R357, R359; log entry 43). -/
def State.portIdle (s : State) (die p : Nat) : State :=
  let e := s.port die p
  if e.owed ≠ [] then
    (s.setPort die p { e with carry := (68 - (248 - e.carry) % 68) % 68 }).portEmit die p (List.replicate 248 0#8)
  else if e.nakDue ∨ e.acked ≠ e.ackSent then s.setPort die p (e.control [])
  else s

/-- A port sends what it can: units fill flits while the replay buffer has room; a last flit, and under encryption the
rest of a window, are filled with filler units (log entry 43). -/
def State.portFill (s : State) (die p : Nat) : Nat → State
  | 0 => s
  | n + 1 =>
    let e := s.port die p
    if !s.portUp die p || decide (64 ≤ e.replay.length) then s
    else if 248 ≤ e.carry + e.stream.length then
      let body := List.replicate (min e.carry 248) 0#8 ++ e.stream.take (248 - e.carry)
      let s := s.setPort die p { e with carry := e.carry - 248, stream := e.stream.drop (248 - e.carry) }
      (s.portEmit die p body).portFill die p n
    else
      match e.tx.step (s.portOutlet die p) s.hc with
      | some r =>
        match r.flit with
        | none => (s.setPort die p { e with tx := r.tx }).portFill die p n
        | some f =>
          let stream := e.stream ++ f.unitBytes
          let q := (e.txSeq + (e.carry + stream.length - 1) / 248) % 128
          (s.setPort die p { e with
            tx := r.tx
            stream
            flying := match r.done with | some x => e.flying ++ [(q, x)] | none => e.flying
            used := Tab.upd 0 e.used (4 * f.vl + f.vc) (fun u => u + 1) }).portFill die p n
      | none =>
        if e.stream ≠ [] ∨ (e.sec ∧ e.txBytes ≠ []) then
          -- fillers: whole 68-byte units of zeros, the last of which may run on
          let short := 248 - e.carry - e.stream.length
          let body := List.replicate e.carry 0#8 ++ e.stream ++ List.replicate short 0#8
          let s := s.setPort die p { e with carry := (68 - short % 68) % 68, stream := [] }
          (s.portEmit die p body).portFill die p n
        else if e.owed ≠ [] ∨ e.nakDue ∨ e.acked ≠ e.ackSent then (s.portIdle die p).portFill die p n
        else s

/-- Flits that must be sent again go out first, then what a port can send (R359). -/
def State.portRun (s : State) (die p n : Nat) : State :=
  if s.portUp die p then (s.setPort die p (s.port die p).push).portFill die p n else s

/-- The most steps that filling a replay buffer can take. -/
def fillFuel : Nat := 600

/-- Every message queued at the ports of the link dies begins to leave. -/
def State.portsRun (s : State) (die : Nat) : State :=
  if die = 36 ∨ die = 37 then (List.range 16).foldl (fun s p => s.portRun die p fillFuel) s else s

/-! ## Ports: what arrives (R359, R360, R467, R468) -/

/-- Degrade a port: 4 lanes to 2, to 1, to DOWN; the lanes left stay until EN raises them again (R360). -/
def State.portDegrade (s : State) (die p : Nat) : State :=
  let n := s.fld die .lnkPstat 28 26 p
  if n ≤ 1 then s.portDown die p
  else
    let s := (s.setPortState die p 1 (n / 2)).setPort die p { s.port die p with width := n / 2 }
    s.fabErr die 9 {} (16 + p)

/-- A flit that is not accepted: NAK; the sixteenth in a row degrades the port. -/
def State.portNak (s : State) (die p : Nat) : State :=
  let e := s.port die p
  let n := e.naks + 1
  let s := (s.setPort die p { e with nakDue := true, naks := if n = 16 then 0 else n }).addFld die .lnkPcnt 47 32 1 p
  if n = 16 then s.portDegrade die p else s

/-- The ACK and NAK of an arriving flit: acknowledged flits leave the replay buffer, and after a NAK the rest is sent again
(R359). -/
def State.portAck (s : State) (die p ack : Nat) (nak : Bool) : State :=
  let e := s.port die p
  let e : PortEnd := match e.replay.findIdx? (fun x => decide (x.1 = ack)) with
    | none => e
    | some i =>
      let gone : List Nat := (e.replay.take (i + 1)).map (fun x => x.1)
      { e with
        replay := e.replay.drop (i + 1)
        next := e.next - (i + 1)
        flying := e.flying.filter (fun x => !gone.contains x.1)
        macs := e.macs.filter (fun x => !gone.contains x.1)
        ctl := [] }
  let n := if nak then e.naksRx + 1 else 0
  let s := s.setPort die p { e with next := if nak then 0 else e.next, naksRx := if n = 16 then 0 else n }
  if n = 16 then s.portDegrade die p else s

/-- One unit of the stream: a filler, or a fabric flit that joins its message. -/
def State.portUnit (s : State) (die p : Nat) (u : List Byte) : State :=
  let tag := numAt u 0 4
  let vc := bits tag 6 5
  if vc = 0 then s
  else
    let vl := bits tag 16 16
    let f : LFlit := { vc, kind := bits tag 4 3, stream := bits tag 2 0, vl,
                       data := BitVec.ofNat 512 (numAt u 4 64) }
    let e := s.port die p
    let r := joinFlit e.parts (32 * vl + 8 * vc + f.stream) f
    let s := s.setPort die p { e with parts := r.1, owed := Tab.upd 0 e.owed (4 * vl + vc) (fun n => n + 1) }
    match r.2 with
    | some m => s.cameIn die (16 + p) m
    | none => s

/-- Cut whole units off a stream. -/
def State.portUnits (s : State) (die p : Nat) : Nat → List Byte → State
  | 0, bs => s.setPort die p { s.port die p with rest := bs }
  | n + 1, bs =>
    if bs.length < 68 then s.setPort die p { s.port die p with rest := bs }
    else (s.portUnit die p (bs.take 68)).portUnits die p n (bs.drop 68)

/-- Stream bytes that are released to the die. -/
def State.portStream (s : State) (die p : Nat) (bs : List Byte) : State :=
  let all := (s.port die p).rest ++ bs
  s.portUnits die p (all.length / 68 + 1) all

/-- A MAC flit: the window is released when its tag verifies; a failing tag takes the port DOWN; one that names a window
already released is harmless (R468). -/
def State.macFlit (s : State) (die p slot win : Nat) (tag : BitVec 128) : State :=
  let e := s.port die p
  if !e.sec || decide (win ≠ e.rxWin) || decide (e.rxBytes.length ≠ 248 * s.winLen die p) then s
  else
    let key := s.portKey slot e.rxNonces e.peer e.peerPort (s.pkgId die) (portNo die p)
    if gcmTag key (windowIv win) e.rxBytes ≠ (toBytes 16 tag.toNat) then
      (s.setFld die .lnkSec 59 59 1 p).portDown die p
    else
      let plain := gcmCrypt key (windowIv win) 0 e.rxBytes
      let s := s.setPort die p { e with rxBytes := [], rxWin := win + 1, acked := (e.rxSeq + 127) % 128 }
      s.portStream die p plain

/-- A sequenced flit that is accepted: under encryption its window is held (R468). -/
def State.portAccept (s : State) (die p : Nat) (body : List Byte) : State :=
  let e := s.port die p
  let q := e.rxSeq
  let e := { e with rxSeq := (q + 1) % 128, naks := 0 }
  if e.sec then
    s.setPort die p { e with
      rxNonces := if e.rxBytes = [] then e.nonceRx ++ e.nonceTx else e.rxNonces
      rxBytes := e.rxBytes ++ body }
  else (s.setPort die p { e with acked := q }).portStream die p body

/-- MAC_RESEND: no ACK 4 µs after a window's MAC flit: it is sent again (R468). -/
def State.macResend (s : State) (die p : Nat) : State :=
  let e := s.port die p
  match e.macs with
  | [] => s
  | (_, f) :: _ => s.setPort die p { e with ctl := e.ctl ++ [f], line := e.line ++ [f] }

/-- KEY_CHANGE: the waggle copy has reached KSTEP; the next window uses the other slot (R469). -/
def State.keyChange (s : State) (die p : Nat) : State :=
  let e := s.port die p
  let kstep := s.fld die .lnkSec 55 0 p
  if e.sec && e.keyArmed && decide (e.txBytes = []) && decide (kstep ≤ (s.die die).wagV.toNat) then
    let slot := 1 - s.fld die .lnkSec 60 60 p
    (s.setFld die .lnkSec 60 60 slot p).setPort die p { e with txSlot := slot, keyArmed := false }
  else s

/-- A port begins training (R360, R470). -/
def State.portTrain (s : State) (die p lanes : Nat) : State :=
  s.setPortState die p 1 lanes

/-- A write of LNK_PCFG.EN: 0 takes the port out of use with its traffic held, 1 after it trains it to full width (R360). -/
def State.portEnable (s : State) (die p : Nat) (en : Bool) : State :=
  let was := s.fld die .lnkPcfg 31 31 p
  let s := s.setFld die .lnkPcfg 31 31 (b2n en) p
  if en then
    (if was = 0 then (s.setPort die p { s.port die p with width := 4 }).portTrain die p 4 else s)
  else s.setPortState die p 0 0

/-- PORT_TRAINING_DONE: `peer` and `peerPort` are what the other end sent, `nonce` its nonce (R360, R361, R466). -/
def State.portTrained (s : State) (die p peer peerPort : Nat) (nonce : BitVec 128) : State :=
  if s.portState die p ≠ 1 then s
  else
    let cfg := s.reg die .lnkPcfg p
    if peer ≠ bits cfg 11 0 ∨ peerPort % 16 ≠ bits cfg 15 12 then (s.portDown die p).fabErr die 12 {} (16 + p)
    else
      let (r, s) := s.drawRandom
      let e := s.port die p
      let s := s.setPort die p { e with
        nonceTx := r.setWidth 128
        nonceRx := nonce
        peer
        peerPort
        sec := bit (s.reg die .lnkSec p) 63
        txSlot := s.fld die .lnkSec 60 60 p
        next := 0
        line := []
        naks := 0
        naksRx := 0 }
      let n := s.fld die .lnkPstat 28 26 p
      let s := s.setPortState die p (if n = 4 then 2 else 3) n
      s.portRun die p fillFuel

/-- PORT_LANE_LOSS: a lane loses lock (R360). -/
def State.portLaneLoss (s : State) (die p : Nat) : State :=
  if s.portState die p = 2 ∨ s.portState die p = 3 then s.portDegrade die p else s

/-- LINK_STALL: at hclk time `h` some VC with flits waiting has not moved for LSTALL µs; `l` is a die link, or 16 + p a port.
What the link or port loses has the lower bits of PFAB_ERR (R367, R376). -/
def State.linkStall (s : State) (die l h : Nat) : State :=
  let due (t : Tx) (vc : Nat) : Bool := decide (Tab.get 0 t.since vc + 100 * s.fld die .pfabTmo 15 0 ≤ h)
  let stalled (t : Tx) : Bool := t.q.any (fun x => due t x.msg.vc)
  if l < 16 then
    let e := s.link die l
    if s.linkState die l ≠ 4 ∧ (stalled e.tx ∨ (e.replay.drop e.next).any (fun x => due e.tx x.2.vc)) then
      ((s.toHc h).linkLost die l).fabErr die 11 {} l
    else s
  else
    let e := s.port die (l - 16)
    if s.portState die (l - 16) ≠ 4 ∧ stalled e.tx then
      ((s.toHc h).portDown die (l - 16)).fabErr die 11 {} l
    else s

end Sys2Proof.Machine
end

