-- ==== Sys2Proof/Machine/Operands.lean ====
section
/-!
DEFINITION. The instruction word of a core (R125 to R128) and what makes one illegal (R126, R130, R143): every operand
form of the core instruction set.
-/

namespace Sys2Proof.Machine

/-- The fields of an instruction word (R125). -/
structure IWord where
  op : Nat
  d : Nat
  a : Nat
  b : Nat
  c : Nat
  p : Nat
  pn : Bool
  x : Nat
  deriving DecidableEq, Repr

/-- Split a 64-bit word into its fields (R125). -/
def IWord.ofNat (w : Nat) : IWord :=
  { op := bits w 63 56, d := bits w 55 51, a := bits w 50 46, b := bits w 45 41, c := bits w 40 36,
    p := bits w 35 33, pn := bit w 32, x := bits w 31 0 }

/-- The fields D, A, B, C that an opcode uses, and the bits of X it uses: X has the layout of R127 for opcodes 0x40 to
0x5A, where the mask given is that of FUNC. None: the opcode is not in the map of R134. -/
def opFields (op : Nat) : Option ((Bool × Bool × Bool × Bool) × Nat) :=
  let all := 0xFFFFFFFF
  match op with
  | 0x01 | 0x02 | 0x03 | 0x04 | 0x05 | 0x06 | 0x07 | 0x08 | 0x09 | 0x0A | 0x0B => some ((true, true, true, false), 0)
  | 0x0C => some ((true, true, false, false), all)
  | 0x0D => some ((true, false, false, false), all)
  | 0x0E => some ((true, true, true, false), 7)
  | 0x0F => some ((true, true, false, false), all)
  | 0x10 => some ((true, true, true, false), 3)
  | 0x11 => some ((true, true, false, false), all)
  | 0x12 => some ((false, true, true, false), all)
  | 0x13 => some ((true, false, false, false), 0)
  | 0x20 => some ((false, false, false, false), 0xFFF)
  | 0x21 => some ((true, false, false, false), 0xFFF)
  | 0x22 => some ((false, true, false, false), 0)
  | 0x23 => some ((false, true, false, false), 0xFFF)
  | 0x24 => some ((false, false, false, false), 0)
  | 0x30 => some ((true, true, true, true), all)
  | 0x31 => some ((true, true, false, false), 0xFF)
  | 0x32 => some ((true, false, false, false), 0)
  | 0x40 => some ((true, true, true, true), 0)
  | 0x41 | 0x42 | 0x43 | 0x44 | 0x45 | 0x46 | 0x47 | 0x48 | 0x49 | 0x4A | 0x4B | 0x4C | 0x4D =>
    some ((true, true, true, false), 0)
  | 0x4E => some ((true, true, true, false), 7)
  | 0x4F => some ((true, true, true, false), 0)
  | 0x50 => some ((true, true, true, true), 0)
  | 0x51 => some ((true, true, false, false), 0)
  | 0x52 => some ((true, true, true, false), 0)
  | 0x53 => some ((true, true, true, false), 7)
  | 0x54 => some ((true, true, true, true), 3)
  | 0x55 => some ((true, true, false, false), 3)
  | 0x56 => some ((true, true, false, false), 7)
  | 0x57 => some ((true, true, true, false), 0)
  | 0x58 => some ((true, true, false, false), 0)
  | 0x59 => some ((true, true, true, false), 0x3FFF)
  | 0x5A => some ((true, true, true, true), 0x3FFF)
  | 0x60 | 0x61 => some ((true, true, false, false), 0xFFFF)
  | 0x62 => some ((false, true, true, true), 1)
  | 0x70 => some ((true, true, false, false), 0x03FF0107)
  | 0x71 => some ((true, true, true, true), 0x03FF0101)
  | 0x72 => some ((true, true, true, true), 0xFFFF003F)
  | 0x73 => some ((false, false, false, false), 0xFFFF)
  | 0x78 => some ((false, true, false, false), 0xFFFF)
  | 0x79 => some ((false, true, false, false), 0xFF)
  | 0x7A => some ((false, true, false, false), 0)
  | 0x7B => some ((false, true, false, false), 0x1FFFF)
  | 0x7C => some ((false, false, false, false), 0)
  | 0x7E => some ((false, true, false, false), 0xFFFFFF00)
  | _ => none

/-- Whether an opcode is a vector instruction with the X layout of R127. -/
def isVectorOp (op : Nat) : Bool := decide (0x40 ≤ op) && decide (op ≤ 0x5A)

/-- Whether operand B of a vector instruction is a vector that SCB may replace (R127). -/
def hasVectorB (op : Nat) : Bool := (decide (0x40 ≤ op) && decide (op ≤ 0x50)) || decide (op = 0x57)

/-- The vector instructions that neither round nor flush, and so use none of RM, FL and DM (R126, R185): the integer
instructions, VSEL, VDOT4, VTOPK. VPART reads its source under FL (R172); VQUANT and GATE ignore the three (R143, R185). -/
def modeless (op : Nat) : Bool :=
  (decide (0x46 ≤ op) && decide (op ≤ 0x4D)) || decide (op = 0x4F) || decide (op = 0x50) || decide (op = 0x59)

/-- FMT and SF of a vector instruction, if their codes are not reserved (R127, R128). -/
def IWord.formats (w : IWord) : Option (Fmt × Fmt) :=
  match Fmt.ofCode (bits w.x 31 28) with
  | none => none
  | some f => if bits w.x 27 24 = 15 then some (f, f) else (Fmt.ofCode (bits w.x 27 24)).map (fun g => (f, g))

/-- RM and FL bits, DM, SCB, SAT, H and FUNC of a vector instruction (R127). -/
def IWord.dm (w : IWord) : Bool := bit w.x 20
def IWord.scb (w : IWord) : Bool := bit w.x 19
def IWord.sat (w : IWord) : Bool := bit w.x 18
def IWord.h (w : IWord) : Nat := bits w.x 17 16
def IWord.func (w : IWord) : Nat := bits w.x 15 0

/-- Elements per instruction of an arithmetic class, by result format (R104). -/
def elemCount (op : Nat) (f : Fmt) : Nat :=
  if op ≤ 0x43 then (if f.bytes = 2 then 128 else 64)
  else if 0x50 ≤ op then 64
  else f.count

/-- The combinations of FMT and SF of R143. -/
def comboOk (op : Nat) (f g : Fmt) : Bool :=
  let flt3 := decide (f = .fp32) || decide (f = .bf16) || decide (f = .fp16)
  if op ≤ 0x43 then
    flt3 && (decide (g = f) || decide (g = .e4m3) || decide (g = .e5m2) ||
      (decide (f = .fp32) && (decide (g = .bf16) || decide (g = .fp16))))
  else if op = 0x44 ∨ op = 0x45 ∨ op = 0x4E ∨ op = 0x4F then decide (g = f)
  else if op ≤ 0x4D then !f.isFloat && decide (g = f)
  else if op = 0x50 then decide (f = .int32) && decide (g = .int8)
  else if op = 0x51 then true
  else if op = 0x55 then (flt3 || decide (f = .int32)) && decide (g = f)
  else if op = 0x56 then
    flt3 && (if f = .fp32 then decide (g = .fp32) || decide (g = .bf16) || decide (g = .fp16)
      else decide (g = f) || decide (g = .fp32))
  else decide (f = .fp32) && decide (g = .fp32)

/-- The largest H allowed (R130): the narrower register's element count over n, less 1; VTRAN on 16-bit elements of
both sides also allows 1. -/
def maxH (op : Nat) (f g : Fmt) : Nat :=
  if op = 0x50 then 0
  else if f.bytes = g.bytes then (if op = 0x56 ∧ f.bytes = 2 then 1 else 0)
  else 256 / min f.bytes g.bytes / elemCount op f - 1

/-- What makes a vector instruction illegal beyond its unused fields (R127, R128, R130, R135, R143). -/
def IWord.vectorBad (w : IWord) : Bool :=
  match w.formats with
  | none => true
  | some (f, g) =>
    (w.dm && decide (bits w.x 23 21 ≠ 0)) ||
    (modeless w.op && decide (bits w.x 23 20 ≠ 0)) ||
    (w.scb && !hasVectorB w.op) ||
    (w.sat && !(decide (w.op = 0x51) && (decide (f = .e4m3) || decide (f = .e5m2)))) ||
    !comboOk w.op f g ||
    decide (maxH w.op f g < w.h) ||
    (decide (w.op = 0x4E) && (decide (5 < w.func % 8) || (decide (3 < w.func % 8) && f.isFloat)))

/-- Whether an instruction word is illegal (R126): opcode not in the map, an unused field that is not zero, a reserved
code, an index out of the range its instruction states. -/
def IWord.illegal (w : IWord) : Bool :=
  match opFields w.op with
  | none => true
  | some ((ud, ua, ub, uc), mask) =>
    (!ud && decide (w.d ≠ 0)) || (!ua && decide (w.a ≠ 0)) || (!ub && decide (w.b ≠ 0)) || (!uc && decide (w.c ≠ 0)) ||
    (if isVectorOp w.op then decide (w.func - (w.func &&& mask) ≠ 0) || w.vectorBad
      else decide (w.x - (w.x &&& mask) ≠ 0)) ||
    ((decide (w.op = 0x0E) || decide (w.op = 0x0F)) && decide (5 < w.x % 8)) ||
    ((decide (w.op = 0x0E) || decide (w.op = 0x0F) || decide (w.op = 0x10) || decide (w.op = 0x4E)) && decide (7 < w.d)) ||
    (decide (w.op = 0x10) && (decide (7 < w.a) || decide (7 < w.b))) ||
    ((decide (w.op = 0x30) || decide (w.op = 0x32) || decide (w.op = 0x70)) && decide (15 < w.d)) ||
    ((decide (w.op = 0x54) || decide (w.op = 0x55)) && decide (w.func % 4 = 3)) ||
    (decide (w.op = 0x5A) && bit w.func 13 && decide (w.b ≠ 0)) ||
    (decide (w.op = 0x73) && decide (bits w.x 15 8 = 0)) ||
    (decide (w.op = 0x7B) && !bit w.x 16 && decide (bits w.x 15 8 ≠ 0)) ||
    (decide (w.op = 0x7E) && decide (2 < bits w.x 11 8))

/-- The register-group errors of code 0x02 (R161): an odd D or A where even is required, a group past the last
register. -/
def IWord.regError (w : IWord) : Bool :=
  (decide (w.op = 0x13) && decide (w.d % 2 = 1)) ||
  ((decide (w.op = 0x7A) || decide (w.op = 0x54)) && decide (w.a % 2 = 1)) ||
  (decide (w.op = 0x5A) && (decide (28 < w.a) || (!bit w.func 13 && decide (28 < w.b)))) ||
  (decide (w.op = 0x59) && decide (31 < w.a + w.func % 256 / 64))

/-- The precise exceptions that the word alone decides at issue, besides illegality (R114, R144, R161). -/
def IWord.formErrors (w : IWord) : List Nat :=
  (if w.regError then [0x02] else []) ++
  (if w.op = 0x53 ∧ 15 < w.d then [0x0A] else []) ++
  (if w.op = 0x5A ∧ bits w.func 7 0 < bits w.func 10 8 then [0x0C] else []) ++
  (if w.op = 0x59 ∧ bits w.func 7 0 < bits w.func 13 8 then [0x0D] else [])

/-- The instructions whose guard acts element by element (R131). -/
def elementwise (op : Nat) : Bool :=
  (decide (0x40 ≤ op) && decide (op ≤ 0x4E)) || decide (op = 0x50) || decide (op = 0x51) || decide (op = 0x52) ||
  decide (op = 0x53) || decide (op = 0x56) || decide (op = 0x57) || decide (op = 0x58)

/-- The vector registers that an instruction reads. -/
def IWord.vectorsRead (w : IWord) : List Nat :=
  let b := if w.scb then [] else [w.b]
  if w.op = 0x40 ∨ w.op = 0x50 then w.a :: b ++ [w.c]
  else if (0x41 ≤ w.op ∧ w.op ≤ 0x4F) ∨ w.op = 0x57 then w.a :: b
  else if w.op = 0x51 ∨ w.op = 0x53 ∨ w.op = 0x55 ∨ w.op = 0x56 ∨ w.op = 0x58 then [w.a]
  else if w.op = 0x54 then [w.a, w.a + 1]
  else if w.op = 0x59 then (List.range (w.func % 256 / 64 + 1)).map (fun i => w.a + i)
  else if w.op = 0x5A then (List.range 4).map (fun i => w.a + i) ++ (if bit w.func 13 then [] else (List.range 4).map (fun i => w.b + i))
  else if w.op = 0x61 then [w.d]
  else []

end Sys2Proof.Machine
end

