-- ==== Sys2Proof/Machine/Sequencer.lean ====
section
/-!
DEFINITION. The sequencer of a core (R108, R129 to R137, R148 to R164): the register files, the issue of one
instruction, waits, the core's states, stops, the send port.
-/

namespace Sys2Proof.Machine

/-! ## Register files (R123) -/

/-- s[i]; s0 reads zero. -/
def Core.sreg (c : Core) (i : Nat) : Nat := if i = 0 then 0 else (Tab.get 0#32 c.s i).toNat

/-- s[i] := v; a write to s0 is discarded. -/
def Core.setS (c : Core) (i v : Nat) : Core :=
  if i = 0 then c else { c with s := Tab.set 0#32 c.s i (BitVec.ofNat 32 v) }

/-- v[i] as a 2,048-bit number. -/
def Core.vreg (c : Core) (i : Nat) : Nat := (Tab.get 0#2048 c.v i).toNat

/-- v[i] := v; the register's parity is right again (log entry 166). -/
def Core.setV (c : Core) (i v : Nat) : Core :=
  { c with v := Tab.set 0#2048 c.v i (BitVec.ofNat 2048 v), vBad := c.vBad.filter (fun x => decide (x ≠ i)) }

/-- All 256 predicate bits. -/
def allOnes : Nat := 2 ^ 256 - 1

/-- p[i]; p0 reads all ones. -/
def Core.preg (c : Core) (i : Nat) : Nat := if i = 0 then allOnes else (Tab.get 0#256 c.p i).toNat

/-- p[i] := v; a write to p0 is discarded. -/
def Core.setP (c : Core) (i v : Nat) : Core :=
  if i = 0 then c else { c with p := Tab.set 0#256 c.p i (BitVec.ofNat 256 v) }

/-- The guard of an instruction, after PN (R131). -/
def Core.guard (c : Core) (w : IWord) : Nat := if w.pn then allOnes - c.preg w.p else c.preg w.p

def Core.arr (c : Core) (i : Nat) : Nat := (Tab.get 0#16 c.a i).toNat
def Core.cred (c : Core) (i : Nat) : Nat := (Tab.get 0#8 c.c i).toNat
def Core.entry (c : Core) (i : Nat) : PQ := Tab.get {} c.pq i

/-- Update one core. -/
def State.onCore (s : State) (cd k : Nat) (f : Core → Core) : State := s.setCore cd k (f (s.core cd k))

/-! ## Partial-queue entries (R98, R142, R151) -/

/-- The entry is being sent: a SEND of it has issued and the router has not taken its last word (log entry 31). -/
def Core.sending (c : Core) (e : Nat) : Bool :=
  c.jobs.any (fun j => match j with
    | .pq _ x _ _ _ => decide (x = e)
    | .flits _ _ _ => false)

/-- Passes in flight of a core that name entry `e` and come from an ELD before issue number `before`. -/
def State.passTo (s : State) (cd k e before : Nat) : Bool :=
  (List.range 17).any (fun p => (s.engine cd k p).passes.any (fun ps => decide (ps.pq = e) && decide (ps.seq < before)))

/-- Something that was issued before `before` will still write entry `e`, or was withheld from it (R83, R151). -/
def State.writesTo (s : State) (cd k e before : Nat) : Bool :=
  let c := s.core cd k
  s.passTo cd k e before || c.loads.any (fun ld => decide (ld.pq = e) && decide (ld.seq < before)) ||
  c.withheld.any (fun x => decide (x.1 = e) && decide (x.2 < before))

/-! ## The send port (R149, R198) -/

/-- Flits leave the send port of core `k` into its router. -/
def State.emitFlits (s : State) (cd k : Nat) (fs : List Flit) : State :=
  fs.foldl (fun s f => s.pushFlit cd (k / 8) (5 + k % 8) (match f with | .red _ _ _ _ _ _ _ _ _ _ _ => 0 | _ => 1) f) s

/-- The record of a message that has left the send port: event ring (R619) and trace (R614). -/
def State.sendDoneRecord (s : State) (cd k sub aux entry pc flits : Nat) : State :=
  let s := s.ring cd (.core k) 0x06 (pc + entry <<< 16 + aux <<< 22 + sub <<< 32)
  s.traceCur cd k 4 sub pc aux flits

/-- Formed flits leave in program order up to the next SEND of an entry. -/
def State.drainFlits (s : State) (cd k : Nat) : Nat → State
  | 0 => s
  | n + 1 =>
    match (s.core cd k).jobs with
    | .flits sub aux fs :: rest =>
      let s := s.onCore cd k (fun c => { c with jobs := rest })
      let s := s.emitFlits cd k fs
      State.drainFlits (s.sendDoneRecord cd k sub aux 0 (s.core cd k).pc.toNat fs.length) cd k n
    | _ => s

/-- Append what an instruction sends, in program order with what the port has still to send. -/
def State.queueJob (s : State) (cd k : Nat) (j : Job) : State :=
  let s := s.onCore cd k (fun c => { c with jobs := c.jobs ++ [j] })
  s.drainFlits cd k (s.core cd k).jobs.length

/-- Whether the SEND at the head of the port still waits for its entry (R151). -/
def State.sendWaits (s : State) (cd k : Nat) : Bool :=
  match (s.core cd k).jobs with
  | .pq seq e _ _ _ :: _ => s.writesTo cd k e seq
  | _ => false

/-- SEND_DONE (R98, R151, R198): the entry at the head of the port, with every pass written, is sent and cleared; what
was formed behind it follows. An entry whose loads were all dropped unstarted is sent as it stands (log entry 171). -/
def State.sendDone (s : State) (cd k : Nat) : State :=
  match (s.core cd k).jobs with
  | .pq seq e tag words pc :: rest =>
    if s.writesTo cd k e seq then s
    else
      let s := s.pqRead cd k e
      let c := s.core cd k
      let fs := sendFlits k tag words (c.entry e)
      let s := s.setCore cd k { c with jobs := rest, pq := Tab.set {} c.pq e {} }
      let s := s.emitFlits cd k fs
      let s := s.sendDoneRecord cd k 0 tag e pc fs.length
      s.drainFlits cd k rest.length
  | _ => s

/-! ## Waits (R129, R142, R149 to R159) -/

/-- What the next instruction waits for: SUB of R614 (0 WAITA, 1 WAITC, 2 WAITW, 3 WAITL, 4 a send credit), 5 GRANT,
6 a partial-queue entry; its counter, its target, whether it is met. -/
structure Wait where
  sub : Nat
  idx : Nat
  target : Nat
  met : Bool
  deriving DecidableEq, Repr

/-- The count of a GATE record at `a` of the core buffer, at most 8 (R146). -/
def State.gateCount (s : State) (cd k a : Nat) : Nat := min 8 (s.readByte (pkgAddr cd (coreBuf k + a))).toNat

/-- The wait condition of an instruction, if it has one that is still open for this instance. -/
def State.waitOf (s : State) (cd k : Nat) (w : IWord) : Option Wait :=
  let c := s.core cd k
  match w.op with
  | 0x78 => some ⟨0, w.a, w.x % 65536, decide (w.x % 65536 ≤ c.arr w.a)⟩
  | 0x79 => some ⟨1, w.a, w.x % 256, decide (w.x % 256 ≤ c.cred w.a)⟩
  | 0x7A =>
    let t := c.sreg w.a + 2 ^ 32 * c.sreg (w.a + 1)
    some ⟨2, w.a, t, decide (t ≤ (s.die cd).wagV.toNat)⟩
  | 0x7C => some ⟨3, 0, 0, !s.ownLandings cd k⟩
  | 0x70 =>
    if c.sending w.d then some ⟨6, w.d, 0, false⟩
    else if bit w.x 8 then none
    else some ⟨4, w.a, 1, decide (1 ≤ c.cred w.a)⟩
  | 0x71 => if bit w.x 8 then none else some ⟨4, w.c, 1, decide (1 ≤ c.cred w.c)⟩
  | 0x72 =>
    let n := s.gateCount cd k (c.sreg w.c)
    if bit w.x 5 ∨ n = 0 then none else some ⟨4, bits w.x 4 0, n, decide (n ≤ c.cred (bits w.x 4 0))⟩
  | 0x73 =>
    some ⟨5, 0, 0, decide (c.loads = []) && !c.jobs.any (fun j => match j with
      | .pq _ _ _ _ _ => false
      | .flits sub _ _ => decide (sub = 1) || decide (sub = 2))⟩
  | 0x32 => some ⟨6, w.d, 0, !(c.sending w.d || s.passTo cd k w.d (c.seq + 1))⟩
  | 0x53 => if c.sending w.d then some ⟨6, w.d, 0, false⟩ else none
  | _ => none

/-! ## Checks at issue (R140, R148, R151) -/

/-- An alignment check and a range check of one address (R148): `code` is the alignment exception. -/
def checkAt (code align size a n : Nat) : List Nat :=
  (if a % align = 0 then [] else [code]) ++ (if a + n ≤ size then [] else [0x04])

/-- Sizes of R148. -/
def coreBufSize : Nat := 65536
def clusterBufSize : Nat := 1048576

/-- s[A] + X, modulo 2^32 (log entry 36). -/
def addrAX (c : Core) (w : IWord) : Nat := (c.sreg w.a + w.x) % 2 ^ 32

/-- The logical engines that an ELD names, ascending (R139). -/
def eldEngines (w : IWord) : List Nat := onesFrom 16 (w.x % 65536) 0

/-- Element and exponent addresses of the load of rank m (R139). -/
def eldElement (c : Core) (w : IWord) (m : Nat) : Nat := c.sreg w.a + 128 * bits w.x 29 26 * m
def eldExponent (c : Core) (w : IWord) (m : Nat) : Nat := c.sreg w.c + bits w.x 29 26 * m

/-- The precise exceptions that operands decide at issue, beyond those of the word alone. -/
def State.operandErrors (s : State) (cd k : Nat) (w : IWord) : List Nat :=
  let c := s.core cd k
  match w.op with
  | 0x11 | 0x12 => checkAt 0x06 4 coreBufSize (addrAX c w) 4
  | 0x60 | 0x61 => checkAt 0x06 32 coreBufSize (addrAX c w) 256
  | 0x22 => if c.sreg w.a < 4096 then [] else [0x03]
  | 0x30 =>
    let n := (eldEngines w).length
    if n = 0 then []
    else
      (if bit w.x 30 ∧ 15 < w.d + n - 1 then [0x0A] else []) ++
      (if c.sreg w.a % 128 = 0 then [] else [0x05]) ++
      (if eldElement c w (n - 1) + 128 ≤ coreBufSize ∧ eldExponent c w (n - 1) < coreBufSize then [] else [0x04])
  | 0x31 => if 1 ≤ w.x % 256 ∧ w.x % 256 ≤ 128 ∧ c.sreg w.a + w.x % 256 ≤ coreBufSize then [] else [0x04]
  | 0x52 => checkAt 0x06 32 coreBufSize (c.sreg w.a) 384 ++ checkAt 0x06 2 coreBufSize (c.sreg w.b) 2
  | 0x54 =>
    let mode := w.func % 4
    checkAt 0x06 (if mode = 0 then 128 else 32) coreBufSize (c.sreg w.b) (if mode = 2 then 64 else 128) ++
    checkAt 0x06 1 coreBufSize (c.sreg w.c) (if mode = 0 then 1 else 4)
  | 0x59 => checkAt 0x06 8 coreBufSize (c.sreg w.d) (8 * (bits w.func 13 8 + 1))
  | 0x5A => checkAt 0x06 8 coreBufSize (c.sreg w.d) 72
  | 0x62 =>
    let n := c.sreg w.c
    let a := c.sreg w.a
    let b := c.sreg w.b
    -- a move of 0 bytes touches no byte of a buffer
    (if a % 64 = 0 ∧ b % 64 = 0 ∧ n % 64 = 0 then [] else [0x07]) ++
    (if n = 0 ∨ (a + n ≤ (if bit w.x 0 then clusterBufSize else coreBufSize) ∧
        b + n ≤ (if bit w.x 0 then coreBufSize else clusterBufSize)) then [] else [0x04])
  | 0x70 =>
    let e := c.entry w.d
    if e.used ∨ c.sending w.d ∨ s.writesTo cd k w.d (c.seq + 1) then [] else [0x0B]
  | 0x71 =>
    let n := c.sreg w.b
    checkAt 0x06 32 (if bit w.x 0 then clusterBufSize else coreBufSize) (c.sreg w.a) n ++
    (if 1 ≤ n ∧ n ≤ 65536 then [] else [0x04])
  | 0x72 =>
    let n := c.sreg w.b
    checkAt 0x06 32 coreBufSize (c.sreg w.a) n ++ (if 1 ≤ n ∧ n ≤ 65536 then [] else [0x04]) ++
    checkAt 0x06 8 coreBufSize (c.sreg w.c) 72 ++ checkAt 0x06 8 coreBufSize (bits w.x 31 16) 2048
  | _ => []

/-! ## Fetch and the core's state -/

/-- The instruction word at index `i` of a core's program store (R125). -/
def State.fetch (s : State) (cd k i : Nat) : IWord :=
  IWord.ofNat (ofBytes (s.readMem cd (progStore k + 8 * i) 8))

/-- The instruction that a core would issue next. -/
def State.nextWord (s : State) (cd k : Nat) : IWord := s.fetch cd k (s.core cd k).pc.toNat

/-- Whether an instruction's guard stops it whole (R131): not those whose guard acts element by element, and not VSEL,
whose P is a selector. -/
def State.guardedOff (s : State) (cd k : Nat) (w : IWord) : Bool :=
  !elementwise w.op && decide (w.op ≠ 0x4F) && !bit ((s.core cd k).guard w) 0

/-- Every precise exception of the next instruction, lowest first by code. -/
def State.issueErrors (s : State) (cd k : Nat) (w : IWord) : List Nat :=
  if w.illegal then [0x01] else w.formErrors ++ s.operandErrors cd k w

/-- The wait of the next instruction that is not met, if it waits. -/
def State.openWait (s : State) (cd k : Nat) (w : IWord) : Option Wait :=
  if w.illegal ∨ s.guardedOff cd k w ∨ s.issueErrors cd k w ≠ [] then none
  else
    match s.waitOf cd k w with
    | some x => if x.met then none else some x
    | none => none

/-- CORE_STATUS.STATE (R108, R137): 0 STOPPED, 1 EXCEPTION, 2 HELD, 3 WAITING, 4 RUNNING. -/
def State.coreState (s : State) (cd k : Nat) : Nat :=
  let c := s.core cd k
  match c.run with
  | .stopped => 0
  | .exception => if c.stopping then 4 else 1
  | .active =>
    if c.stopping then 4
    else
      let held := match c.loads with
        | ld :: _ => (s.holdCause cd k (s.die cd).cc ld).isSome
        | [] => false
      if held then 2
      else
        match s.openWait cd k (s.nextWord cd k) with
        | some x => if x.sub ≤ 5 then 3 else 4
        | none => 4

/-- The hclk cycles that the core has spent in WAITING or HELD without issuing (R164). -/
def Core.waited (c : Core) (hc : Nat) : Nat :=
  c.waitAcc + (match c.waitHc with | some h => hc - h | none => 0)

/-- Keep that count with the core's present state. -/
def State.noteWait (s : State) (cd k : Nat) : State :=
  let c := s.core cd k
  let st := s.coreState cd k
  if st = 2 ∨ st = 3 then
    (match c.waitHc with
     | some _ => s
     | none => s.setCore cd k { c with waitHc := some s.hc })
  else
    match c.waitHc with
    | some _ => s.setCore cd k { c with waitHc := none, waitAcc := c.waited s.hc }
    | none => s

/-- Do `f`, then record a STATE entry in the ring of every listed core whose state it changed (R619), and keep its count of
time without issue. -/
def State.watch (s : State) (cd : Nat) (ks : List Nat) (f : State → State) : State :=
  let t := f s
  ks.foldl (fun t k =>
    let n := t.coreState cd k
    let t := t.noteWait cd k
    if n = s.coreState cd k then t else t.ring cd (.core k) 0x01 ((t.core cd k).pc.toNat + n <<< 16) true) t

/-! ## Issue (R129, R131, R136, R161) -/

/-- The next instruction starts to wait: its WAIT entry, once (R619). -/
def State.startWait (s : State) (cd k : Nat) (x : Wait) : State :=
  let c := s.core cd k
  match c.waitFrom with
  | some _ => s
  | none =>
    let s := s.setCore cd k { c with waitFrom := some (s.die cd).cc }
    if x.sub ≤ 4 then
      s.ring cd (.core k) 0x02 (c.pc.toNat + x.idx <<< 16 + x.sub <<< 21 + (x.target % 65536) <<< 32)
    else s

/-- A wait has ended as its instruction issues: WAIT_DONE and the WAIT_CC sample (R614, R623), and LATE_STEP for a
WAITW that never waited (R159). -/
def State.endWait (s : State) (cd k pc : Nat) (from_ : Option Nat) (x : Wait) : State :=
  if 4 < x.sub then s
  else
    let n := match from_ with
      | some t => (s.die cd).cc - t
      | none => 0
    let late := decide (x.sub = 2) && decide (from_ = none)
    let s := if late then s.ring cd (.core k) 0x03 (pc + (x.target % 2 ^ 32) <<< 16) else s
    let s := s.traceCur cd k 2 x.sub pc x.idx n
    s.sample cd 1 (n : Int) (some (s.core cd k).curLayer) none (k + 1)

/-- The PC moves on after the instruction at `pc`: to a branch target, or to the next index; fetching past 4,095 raises
PC_RANGE (R136). -/
def State.advance (s : State) (cd k pc : Nat) (target : Option Nat) : State :=
  let c := s.core cd k
  match target with
  | some t => if c.run = .active then s.setCore cd k { c with pc := BitVec.ofNat 12 t } else s
  | none =>
    if pc = 4095 ∧ c.run = .active ∧ !c.stopping then s.raiseCore cd k [0x03] 4095 else s

/-- An instruction issues: PC, issue number, and a new count of the time it may wait (R164). -/
def Core.issued (c : Core) (pc : Nat) : Core :=
  { c with pc := BitVec.ofNat 12 (pc + 1), seq := c.seq + 1, waitHc := none, waitAcc := 0, waitFrom := none }

/-- The parity check of the vector registers that an instruction reads as it issues (R113). -/
def State.readVectors (s : State) (cd k : Nat) (w : IWord) : State :=
  if w.vectorsRead.any (fun i => (s.core cd k).vBad.contains i) then s.parityFault cd k else s

/-- Issue the next instruction of a core if its opcode is `op`. `go` is the instruction's effect and its branch
target. A word that is illegal raises ILLEGAL; a guarded-off instruction only moves on (R131); a check that fails
raises its exceptions and has no effect; an open wait leaves the instruction unissued. -/
def State.issue (s : State) (cd k op : Nat) (go : IWord → State → State × Option Nat) : State :=
  let c := s.core cd k
  if c.run ≠ .active ∨ c.stopping then s
  else
    let pc := c.pc.toNat
    let w := s.fetch cd k pc
    if w.op ≠ op then s
    else if w.illegal then s.raiseCore cd k [0x01] pc
    else if s.guardedOff cd k w then (s.onCore cd k (fun c => c.issued pc)).advance cd k pc none
    else if s.issueErrors cd k w ≠ [] then s.raiseCore cd k (s.issueErrors cd k w) pc
    else
      match s.waitOf cd k w with
      | some x =>
        if !x.met then s.startWait cd k x
        else
          let s := (s.endWait cd k pc c.waitFrom x).onCore cd k (fun c => c.issued pc)
          let r := go w (s.readVectors cd k w)
          r.1.advance cd k pc r.2
      | none =>
        let r := go w ((s.onCore cd k (fun c => c.issued pc)).readVectors cd k w)
        r.1.advance cd k pc r.2

/-- Whether core `k` of compute die `cd` exists (R10, R94). -/
def isCore (cd k : Nat) : Bool := decide (cd < 32) && decide (k < 512)

/-- A command of one core. -/
def onCoreCmd (cd k : Nat) (s : State) (f : State → State) : Out :=
  if isCore cd k then .next (s.watch cd [k] f) else .fault .noSuchUnit

/-- The row of one instruction. -/
def instrRow (cd k op : Nat) (s : State) (go : IWord → State → State × Option Nat) : Out :=
  onCoreCmd cd k s (fun s => s.issue cd k op go)

/-! ## Run, stop, timeout (R118, R137, R162 to R164, R636) -/

/-- CORE_RUN (R118): in STOPPED, fetch starts at instruction 0. -/
def State.coreRun (s : State) (cd k : Nat) : State :=
  let c := s.core cd k
  if c.run = .stopped then
    s.setCore cd k { c with run := .active, pc := 0, stopping := false, waitFrom := none, waitHc := none, waitAcc := 0 }
  else s

/-- Abandon the ELD of the oldest load that has not started: its loads are dropped, and PC names it (R137). -/
def Core.abandon (c : Core) : Core :=
  match c.loads with
  | ld :: rest => { c with loads := rest.filter (fun x => decide (x.seq ≠ ld.seq)), pc := BitVec.ofNat 12 ld.pc }
  | [] => c

/-- CORE_STOP (R137, R163): issue stops. In HELD the held ELD is abandoned; in EXCEPTION every load not started is dropped,
and PC names the ELD of the oldest. -/
def State.coreStop (s : State) (cd k : Nat) : State :=
  let c := s.core cd k
  if c.run = .stopped then s
  else
    let c' := if c.run = .exception then { c.abandon with loads := [] }
      else if s.coreState cd k = 2 then c.abandon else c
    (s.setFld cd .coreCtl 30 30 1 k).setCore cd k { c' with stopping := true, waitFrom := none }

/-- The loads that a stop waits for will never start: the oldest names an engine that is not ACTIVE (R71, R571). -/
def State.starved (s : State) (cd k : Nat) : Bool :=
  match (s.core cd k).loads with
  | ld :: _ => decide (s.holdCause cd k (s.die cd).cc ld = some 0xC)
  | [] => true

/-- The work issued before a stop has completed: no load that can start, no pass in flight, nothing left to send but a SEND
that withheld partials or such loads hold for ever (R83; log entry 108). -/
def State.drained (s : State) (cd k : Nat) : Bool :=
  let c := s.core cd k
  let never := match c.jobs with
    | .pq seq e _ _ _ :: _ => c.withheld.any (fun x => decide (x.1 = e) && decide (x.2 < seq)) ||
        c.loads.any (fun ld => decide (ld.pq = e) && decide (ld.seq < seq))
    | _ => false
  s.starved cd k && !(List.range 17).any (fun p => decide ((s.engine cd k p).passes ≠ [])) &&
  (decide (c.jobs = []) || never)

/-- CORE_STOPPED (R137): a stop or HALT whose issued work has completed ends in STOPPED; the STOP bit clears. -/
def State.coreStopped (s : State) (cd k : Nat) : State :=
  let c := s.core cd k
  if c.stopping ∧ c.run ≠ .stopped ∧ s.drained cd k then
    (s.setFld cd .coreCtl 30 30 0 k).setCore cd k { c with run := .stopped, stopping := false, jobs := [], loads := [] }
  else s

/-- WAIT_TIMEOUT (R164): LIMIT µs in WAITING or HELD without issuing. In HELD the loads of the held ELD that have not
started are dropped, and those of later ELDs with them, as if these had not issued (log entry 167). -/
def State.waitTimeout (s : State) (cd k h : Nat) : State :=
  let s := s.toHc h
  let c := s.core cd k
  let lim := s.fld cd .coreWdog 15 0 k
  let st := s.coreState cd k
  if lim = 0 ∨ (st ≠ 2 ∧ st ≠ 3) ∨ c.waited s.hc < 100 * lim then s
  else if st = 2 then
    match c.loads with
    | ld :: _ => (s.setCore cd k { c with loads := [] }).raiseCore cd k [0x0F] ld.pc
    | [] => s
  else s.raiseCore cd k [0x0F] c.pc.toNat

/-! ## Flags and quantization events (R187, R189, R317) -/

/-- CORE_FFLAGS after an instruction at `pc` raised `f` (R187, R189). -/
def State.noteFlags (s : State) (cd k pc : Nat) (f : FFlags) : State :=
  let was := s.reg cd .coreFflags k
  let now := was ||| f.toNat
  let now := if bits was 4 2 = 0 ∧ bits f.toNat 4 2 ≠ 0 then setBits (setBits now 31 31 1) 27 16 pc else now
  s.setReg cd .coreFflags now k

/-- Count quantization events in CORE_QH (R317, R318): POISON [63:48], CLAMP [47:32], EXP_HIGH [31:16], EXP_LOW
[15:0]. -/
def State.qh (s : State) (cd k hi : Nat) (n : Nat := 1) : State := s.addFld cd .coreQh hi (hi - 15) n k

/-- The float mode of a vector instruction (R44, R127, R165). -/
def State.fmode (s : State) (cd k : Nat) (w : IWord) : FMode :=
  if w.dm then { rm := s.fld cd .coreFmode 1 0 k, fl := bit (s.reg cd .coreFmode k) 2, sat := w.sat }
  else { rm := bits w.x 23 22, fl := bit w.x 21, sat := w.sat }

end Sys2Proof.Machine
end

