-- ==== Sys2Proof/Machine/Trans.lean ====
section
/-!
DEFINITION. The transcendental class of R106 with the edge results of R183. Where R183 lists no exact result the spec
gives only a bound, so Config chooses the result among the FP32 values within that bound (log entry 10).
-/

namespace Sys2Proof.Machine

/-- 2^n as an FP32 code, for n from −149 to 127. -/
def pow2Code (n : Int) : Nat :=
  if n < -126 then 2 ^ (n + 149).toNat else (n + 127).toNat * 2 ^ 23

/-- The integer that a value is, if it is one: `(-1)^neg × m × 2^e`. -/
def FVal.toInt? : FVal → Option Int
  | .fin n m e =>
    let (q, lost) := roundScale 1 n m e
    if lost then none else some (if n then -(q : Int) else q)
  | _ => none

/-- The exponent `n` with value = 2^n, if the value is a positive power of two. -/
def FVal.log2? : FVal → Option Int
  | .fin false m e => if m ≠ 0 ∧ 2 ^ Nat.log2 m = m then some (e + (Nat.log2 m : Int)) else none
  | _ => none

/-! ## The exact functions, bracketed

R106 bounds every result against the exact function. The exact value is held between two multiples of 2^-256. The
width of a bracket stays far below every bound of R106, so the codes within the bound are found from it. -/

/-- The exact value of a function: at least `lo` and at most `hi`, in units of 2^-256. -/
structure Bracket where
  lo : Int
  hi : Int
  deriving DecidableEq, Repr

def Bracket.neg (r : Bracket) : Bracket := ⟨-r.hi, -r.lo⟩

/-- One, in units of 2^-256. -/
def fxOne : Nat := 2 ^ 256

/-- ln 2 and π, in units of 2^-256, rounded down. -/
def fxLn2 : Nat := 0xB17217F7D1CF79ABC9E3B39803F2F6AF40F343267298B62D8A0D175B8BAAFA2B
def fxPi : Nat := 0x3243F6A8885A308D313198A2E03707344A4093822299F31D0082EFA98EC4E6C89

/-- m × 2^e in units of 2^-256, exact for e ≥ -256. -/
def fxOf (m : Nat) (e : Int) : Nat := if 0 ≤ e + 256 then m <<< (e + 256).toNat else m >>> (-(e + 256)).toNat

/-- The terms z^k ÷ k! of the exponential series from the k-th on, each between two numbers; `z` lies between `zl` and `zh`. -/
def expTerms (zl zh : Nat) : Nat → Nat → Nat → Nat → List (Nat × Nat)
  | 0, _, _, _ => []
  | n + 1, k, tl, th =>
    (tl, th) :: expTerms zl zh n (k + 1) (tl * zl / (fxOne * (k + 1))) (th * zh / (fxOne * (k + 1)) + 1)

/-- The sum of the terms whose index satisfies `p`, with 1 above for the rest of the series. -/
def sumTerms (p : Nat → Bool) : List (Nat × Nat) → Nat → Nat → Nat → Nat × Nat
  | [], _, lo, hi => (lo, hi + 1)
  | (a, b) :: t, k, lo, hi => if p k then sumTerms p t (k + 1) (lo + a) (hi + b) else sumTerms p t (k + 1) lo hi

/-- 72 terms for z below 2: the rest is below 2^-256. -/
def expSeries (zl zh : Nat) (p : Nat → Bool) : Nat × Nat :=
  sumTerms p (expTerms zl zh 72 0 fxOne fxOne) 0 0 0

/-- 2^x for x = y × 2^-256. -/
def exp2Bracket (y : Int) : Bracket :=
  let n := y.fdiv fxOne
  let f := (y.fmod fxOne).toNat
  let (lo, hi) := expSeries (f * fxLn2 / fxOne) (f * (fxLn2 + 1) / fxOne + 1) (fun _ => true)
  if 0 ≤ n then ⟨((lo <<< n.toNat : Nat) : Int), ((hi <<< n.toNat : Nat) : Int)⟩
  else ⟨((lo >>> (-n).toNat : Nat) : Int), (((hi >>> (-n).toNat) + 1 : Nat) : Int)⟩

/-- 1 ÷ (1 + e^y) for y ≥ 0 in units of 2^-256. -/
def logisticBracket (y : Nat) : Bracket :=
  -- e^-300 is below 2^-256
  if 300 * fxOne ≤ y then ⟨0, 1⟩
  else
    let n := y / (fxLn2 + 1)
    let r := y - n * (fxLn2 + 1)
    let (lo, hi) := expSeries r (r + n) (fun _ => true)
    ⟨((fxOne * fxOne / (fxOne + hi <<< n) : Nat) : Int), ((fxOne * fxOne / (fxOne + lo <<< n) + 1 : Nat) : Int)⟩

/-- sin(πt) and cos(πt) for t = y × 2^-256 of at most 1/2. -/
def sinBracket (y : Nat) : Bracket :=
  let z := y * fxPi / fxOne
  let zh := y * (fxPi + 1) / fxOne + 1
  let up := expSeries z zh (fun k => decide (k % 4 = 1))
  let down := expSeries z zh (fun k => decide (k % 4 = 3))
  ⟨(up.1 : Int) - down.2, min (fxOne : Int) ((up.2 : Int) - down.1)⟩

def cosBracket (y : Nat) : Bracket :=
  let z := y * fxPi / fxOne
  let zh := y * (fxPi + 1) / fxOne + 1
  let up := expSeries z zh (fun k => decide (k % 4 = 0))
  let down := expSeries z zh (fun k => decide (k % 4 = 2))
  ⟨(up.1 : Int) - down.2, min (fxOne : Int) ((up.2 : Int) - down.1)⟩

/-- The series 2 × (z + z^3/3 + z^5/5 + …) for z of at most 1/3: `n` terms from the power `zl`, `zh` of odd exponent `k` on. -/
def atanhGo (ql qh : Nat) : Nat → Nat → Nat → Nat → Nat → Nat → Nat × Nat
  | 0, _, _, _, lo, hi => (lo, hi + 1)
  | n + 1, k, tl, th, lo, hi =>
    atanhGo ql qh n (k + 2) (tl * ql / fxOne) (th * qh / fxOne + 1) (lo + 2 * tl / k) (hi + 2 * th / k + 1)

/-- log2 of m × 2^e. -/
def log2Bracket (m : Nat) (e : Int) : Bracket :=
  let p := 2 ^ Nat.log2 m
  let n : Int := e + (Nat.log2 m : Int)
  -- ln(m ÷ p) = 2 atanh((m - p) ÷ (m + p))
  let z := (m - p) * fxOne / (m + p)
  let (lo, hi) := atanhGo (z * z / fxOne) ((z + 1) * (z + 1) / fxOne + 1) 84 1 z (z + 1) 0 0
  ⟨n * fxOne + ((lo * fxOne / (fxLn2 + 1) : Nat) : Int), n * fxOne + ((hi * fxOne / fxLn2 + 1 : Nat) : Int)⟩

/-- sin(πx) and cos(πx) for x = y × 2^-256, by the half of the half-turn that it lies in. -/
def sinPiBracket (neg : Bool) (y : Nat) : Bracket :=
  let t := y % fxOne
  let r := if 2 * t ≤ fxOne then sinBracket t else sinBracket (fxOne - t)
  if neg != decide (y / fxOne % 2 = 1) then r.neg else r

def cosPiBracket (y : Nat) : Bracket :=
  let t := y % fxOne
  let r := if 2 * t ≤ fxOne then cosBracket t else (cosBracket (fxOne - t)).neg
  if y / fxOne % 2 = 1 then r.neg else r

/-- The function of code `fn` (R144) at (-1)^neg × m × 2^e, where R183 lists no exact result. -/
def exactBracket (fn : Nat) (neg : Bool) (m : Nat) (e : Int) : Bracket :=
  let y := fxOf m e
  match fn with
  | 0 => exp2Bracket (if neg then -(y : Int) else y)
  | 1 => log2Bracket m e
  | 2 =>
    let q := 2 ^ (256 - e).toNat * fxOne / (m * fxOne)
    if neg then Bracket.neg ⟨(q : Int), (q + 1 : Nat)⟩ else ⟨(q : Int), (q + 1 : Nat)⟩
  | 3 => let q := isqrtGo 400 (2 ^ (512 - e).toNat / m) 0; ⟨(q : Int), (q + 1 : Nat)⟩
  | 4 =>
    let q := logisticBracket y
    if neg then q else ⟨fxOne - q.hi, fxOne - q.lo⟩
  | 5 =>
    let q := logisticBracket (2 * y)
    let r : Bracket := ⟨fxOne - 2 * q.hi, fxOne - 2 * q.lo⟩
    if neg then r.neg else r
  | 6 => sinPiBracket neg y
  | _ => cosPiBracket y

/-! ## The codes within the bound -/

/-- An ulp of a value: a unit of the last place of the FP32 values around it, at least 2^-149, in units of 2^-256. -/
def fxUlp (r : Bracket) : Nat :=
  let a := min r.lo.natAbs r.hi.natAbs
  2 ^ (max 107 (Nat.log2 a - 23))

/-- R106's bound for function `fn` at (-1)^neg × m × 2^e, in units of 2^-256; none where R106 states none. -/
def tranBound (fn m : Nat) (e : Int) (r : Bracket) : Option Nat :=
  let top : Int := e + (Nat.log2 m : Int)
  match fn with
  | 0 => some (fxUlp r)
  | 1 => if top < -126 then none else if -1 ≤ top ∧ top < 1 then some (2 ^ 234) else some (fxUlp r)
  | 2 | 3 => if top < -126 then none else some (fxUlp r)
  | 4 => some (2 ^ 233)
  | 5 => some (2 ^ 234)
  | 6 => if top < -4 then some (2 * fxUlp r) else some (2 ^ 233)
  | _ => some (2 ^ 233)

/-- The place of an FP32 code in the order of the values, 0 for both zeros. -/
def codePlace (c : Nat) : Int := if c < 2 ^ 31 then c else -((c - 2 ^ 31 : Nat) : Int)

/-- The greatest FP32 value of at most `v` units of 2^-256 (`rm` 2), or the least of at least `v` (`rm` 3), as its place. -/
def placeOf (rm : Nat) (v : Int) : Int :=
  codePlace (roundTo .fp32 { rm } (decide (v < 0)) v.natAbs (-256)).1

/-- A result that R183 does not list (log entry 10). Config chooses one of the FP32 values within R106's bound; where R106
states no bound, one of the finite values. It raises NX; where the exact value is tiny, also UF, and the flush bit makes
it a zero of its sign (R106, R171, R183). A subnormal value within the bound is flushed too. -/
def freeResult (fl : Bool) (fn x : Nat) (neg : Bool) (m : Nat) (e : Int) : Nat × FFlags :=
  let r := exactBracket fn neg m e
  let sign := decide (r.lo < 0)
  let nought := Fmt.signed .fp32 sign 0
  let tiny := (roundTo .fp32 { fl := true } sign (min r.lo.natAbs r.hi.natAbs) (-256)).2.uf
  let flags : FFlags := if tiny then .underflow else .inexact
  if tiny && fl then (nought, flags)
  else
    let (a, b) : Int × Int := match tranBound fn m e r with
      | some w => (placeOf 3 (r.hi - w), placeOf 2 (r.lo + w))
      | none => (-0x7F7FFFFF, 0x7F7FFFFF)
    let i := a + (((Config.transcendental fn (BitVec.ofNat 32 x)).toNat % (b - a + 1).toNat : Nat) : Int)
    if i = 0 ∨ (fl ∧ i.natAbs < 2 ^ 23) then (if i < 0 then Fmt.signed .fp32 true 0 else if i = 0 then nought else 0, flags)
    else (Fmt.signed .fp32 (decide (i < 0)) i.natAbs, flags)

/-- The same for a value. -/
def FVal.free (v : FVal) (fl : Bool) (fn x : Nat) : Nat × FFlags :=
  match v with
  | .fin n m e => freeResult fl fn x n m e
  | _ => (Fmt.nan .fp32, .none)

/-- VTRAN's FP32 computation on one FP32 value (R183): `x` is the code, `fl` the flush bit; RM is ignored (R106). -/
def transcend (fl : Bool) (fn : Nat) (x : Nat) : Nat × FFlags :=
  let v := FVal.decode .fp32 fl x
  let nan := Fmt.nan .fp32
  let inf (n : Bool) := Fmt.signed .fp32 n (Fmt.inf .fp32)
  let one : Nat := 0x3F800000
  if v.isNan then (nan, .none)
  else
    let isZero := match v with | .fin _ 0 _ => true | _ => false
    let isInf := match v with | .inf _ => true | _ => false
    let neg := v.neg
    match fn with
    | 0 => -- EXP2
      if isZero then (one, .none)
      else if isInf then (if neg then 0 else inf false, .none)
      else
        match v.toInt? with
        | some n =>
          if 128 ≤ n then (inf false, .overflow)
          else if n ≤ -150 then (0, .underflow)
          else if fl ∧ n < -126 then (0, .underflow)
          else (pow2Code n, .none)
        | none =>
          if v.lt false (.fin true 150 0) then (0, .underflow)
          else if (FVal.fin false 128 0).lt false v then (inf false, .overflow)
          else v.free fl fn x
    | 1 => -- LOG2
      if isZero then (inf true, .divZero)
      else if neg then (nan, .invalid)
      else if isInf then (inf false, .none)
      else
        match v.log2? with
        | some n => ((roundTo .fp32 {} (decide (n < 0)) n.natAbs 0).1, .none)
        | none => v.free fl fn x
    | 2 => -- RCP
      if isZero then (inf neg, .divZero)
      else if isInf then (Fmt.signed .fp32 neg 0, .none)
      else
        match v with
        | .fin _ m e =>
          let top : Int := e + (Nat.log2 m : Int)
          let pow := decide (2 ^ Nat.log2 m = m)
          if top < -128 ∨ (top = -128 ∧ pow) then (inf neg, .overflow)
          else if pow ∧ top ≤ 126 then ((roundTo .fp32 {} neg 1 (-top)).1, .none)
          -- |x| > 2^126 is tiny: UF and NX (R183's row); at 2^127 the value itself is exact
          else if pow then (if fl then Fmt.signed .fp32 neg 0 else (roundTo .fp32 {} neg 1 (-top)).1, .underflow)
          else v.free fl fn x
        | _ => (nan, .none)
    | 3 => -- RSQRT
      if isZero then (inf neg, .divZero)
      else if neg then (nan, .invalid)
      else if isInf then (0, .none)
      else
        match v with
        | .fin _ m e =>
          let top : Int := e + (Nat.log2 m : Int)
          if 2 ^ Nat.log2 m = m ∧ top % 2 = 0 then ((roundTo .fp32 {} false 1 (-(top / 2))).1, .none) else v.free fl fn x
        | _ => (nan, .none)
    | 4 => -- SIGM
      if isZero then (0x3F000000, .none)
      else if isInf then (if neg then 0 else one, .none)
      else v.free fl fn x
    | 5 => -- TANH
      if isZero then (Fmt.signed .fp32 neg 0, .none)
      else if isInf then (Fmt.signed .fp32 neg one, .none)
      else v.free fl fn x
    | 6 => -- SINPI
      if isZero then (Fmt.signed .fp32 neg 0, .none)
      else if isInf then (nan, .invalid)
      else
        match v.toInt? with
        | some _ => (Fmt.signed .fp32 neg 0, .none)
        | none =>
          match (match v with | .fin n m e => FVal.toInt? (.fin n m (e + 1)) | w => w.toInt?) with
          | some h => (Fmt.signed .fp32 (decide ((h - 1) / 2 % 2 = 1)) one, .none)
          | none => v.free fl fn x
    | _ => -- COSPI
      if isZero then (one, .none)
      else if isInf then (nan, .invalid)
      else
        match v.toInt? with
        | some n => (Fmt.signed .fp32 (decide (n % 2 = 1)) one, .none)
        | none =>
          match (match v with | .fin n m e => FVal.toInt? (.fin n m (e + 1)) | w => w.toInt?) with
          | some _ => (0, .none)
          | none => v.free fl fn x

end Sys2Proof.Machine
end

