-- ==== Sys2Proof/Machine/Vector.lean ====
section
/-!
DEFINITION. The vector instructions of a core (R103 to R106, R124, R127, R130, R131, R143 to R146, chapter 06).
-/

namespace Sys2Proof.Machine

/-! ## Elements -/

/-- The place of element `i` in a register of width `own` bytes beside one of width `other` (R130). -/
def lanePos (own other n h i : Nat) : Nat := if own < other then i + n * h else i

/-- Write the result elements whose guard bit is 1 (R124, R131): `n` elements of `wd` bytes at `pos i`. -/
def laneMap (n wd : Nat) (pos : Nat → Nat) (guard old : Nat) (f : Nat → Nat × FFlags) : Nat × FFlags :=
  (List.range n).foldl (fun acc i =>
    let p := pos i
    if bit guard (wd * p) then
      let r := f i
      (setElem acc.1 (8 * wd) p r.1, acc.2.or r.2)
    else acc) (old, .none)

/-- FMT and SF of a legal vector instruction. -/
def IWord.fmts (w : IWord) : Fmt × Fmt := (w.formats).getD (.fp32, .fp32)

/-- Element `p` of operand B in format `g`: of v[B], or the low bits of s[B] broadcast (R127). -/
def operandB (c : Core) (w : IWord) (g : Fmt) (p : Nat) : Nat :=
  if w.scb then c.sreg w.b % 2 ^ g.width else elem (c.vreg w.b) g.width p

/-- A vector instruction that maps elements of A, B (in SF) and C (in FMT) to elements of D (in FMT). -/
def vecMapGo (cd k pc : Nat) (f : Fmt → FMode → Nat → Nat → Nat → Nat × FFlags) (w : IWord) (s : State) :
    State × Option Nat :=
  let c := s.core cd k
  let (fd, fs) := w.fmts
  let md := s.fmode cd k w
  let n := elemCount w.op fd
  let src (i : Nat) : Nat := lanePos fs.bytes fd.bytes n w.h i
  let dst (i : Nat) : Nat := lanePos fd.bytes fs.bytes n w.h i
  let r := laneMap n fd.bytes dst (c.guard w) (c.vreg w.d) (fun i =>
    f fs md (elem (c.vreg w.a) fs.width (src i)) (operandB c w fs (src i)) (elem (c.vreg w.c) fd.width i))
  ((s.setCore cd k (c.setV w.d r.1)).noteFlags cd k pc r.2, none)

/-! ## Arithmetic (R175) -/

/-- VFMA, VADD, VSUB, VMUL on element codes: sources in `g`, addend and result in `f`. -/
def floatElem (op : Nat) (f g : Fmt) (md : FMode) (a b c : Nat) : Nat × FFlags :=
  let x := FVal.decode g md.fl a
  let y := FVal.decode g md.fl b
  match op with
  | 0x40 => fFma f md x y (FVal.decode f md.fl c)
  | 0x41 => fAdd f md x y
  | 0x42 => fSub f md x y
  | _ => fMul f md x y

def floatGo (cd k op pc : Nat) (w : IWord) (s : State) : State × Option Nat :=
  vecMapGo cd k pc (fun g md a b c => floatElem op w.fmts.1 g md a b c) w s

def execVfma (cd k : Nat) (s : State) : Out := instrRow cd k 0x40 s (floatGo cd k 0x40 (s.core cd k).pc.toNat)
def execVadd (cd k : Nat) (s : State) : Out := instrRow cd k 0x41 s (floatGo cd k 0x41 (s.core cd k).pc.toNat)
def execVsub (cd k : Nat) (s : State) : Out := instrRow cd k 0x42 s (floatGo cd k 0x42 (s.core cd k).pc.toNat)
def execVmul (cd k : Nat) (s : State) : Out := instrRow cd k 0x43 s (floatGo cd k 0x43 (s.core cd k).pc.toNat)

/-- VMIN and VMAX (R134, R176). -/
def minMaxElem (isMax : Bool) (f : Fmt) (md : FMode) (a b : Nat) : Nat :=
  if f.isFloat then fMinMax f md isMax a b
  else if decide (signed f.width a ≤ signed f.width b) != isMax then a else b

def minMaxGo (cd k : Nat) (isMax : Bool) (pc : Nat) (w : IWord) (s : State) : State × Option Nat :=
  vecMapGo cd k pc (fun g md a b _ => (minMaxElem isMax g md a b, .none)) w s

def execVmin (cd k : Nat) (s : State) : Out := instrRow cd k 0x44 s (minMaxGo cd k false (s.core cd k).pc.toNat)
def execVmax (cd k : Nat) (s : State) : Out := instrRow cd k 0x45 s (minMaxGo cd k true (s.core cd k).pc.toNat)

/-- The integer instructions 0x46 to 0x4D on `w`-bit elements, wrapping; a shift count is the low log2(w) bits of b
(R134, R185). -/
def intElem (op w a b : Nat) : Nat :=
  match op with
  | 0x46 => (a + b) % 2 ^ w
  | 0x47 => (a + (2 ^ w - b)) % 2 ^ w
  | 0x48 => a &&& b
  | 0x49 => a ||| b
  | 0x4A => a ^^^ b
  | 0x4B => (a <<< (b % w)) % 2 ^ w
  | 0x4C => a >>> (b % w)
  | _ => unsigned w (signed w a / ((2 ^ (b % w) : Nat) : Int))

def intGo (cd k op pc : Nat) (w : IWord) (s : State) : State × Option Nat :=
  vecMapGo cd k pc (fun g _ a b _ => (intElem op g.width a b, .none)) w s

def execViadd (cd k : Nat) (s : State) : Out := instrRow cd k 0x46 s (intGo cd k 0x46 (s.core cd k).pc.toNat)
def execVisub (cd k : Nat) (s : State) : Out := instrRow cd k 0x47 s (intGo cd k 0x47 (s.core cd k).pc.toNat)
def execVand (cd k : Nat) (s : State) : Out := instrRow cd k 0x48 s (intGo cd k 0x48 (s.core cd k).pc.toNat)
def execVor (cd k : Nat) (s : State) : Out := instrRow cd k 0x49 s (intGo cd k 0x49 (s.core cd k).pc.toNat)
def execVxor (cd k : Nat) (s : State) : Out := instrRow cd k 0x4A s (intGo cd k 0x4A (s.core cd k).pc.toNat)
def execVshl (cd k : Nat) (s : State) : Out := instrRow cd k 0x4B s (intGo cd k 0x4B (s.core cd k).pc.toNat)
def execVshr (cd k : Nat) (s : State) : Out := instrRow cd k 0x4C s (intGo cd k 0x4C (s.core cd k).pc.toNat)
def execVsra (cd k : Nat) (s : State) : Out := instrRow cd k 0x4D s (intGo cd k 0x4D (s.core cd k).pc.toNat)

/-- VCMP (R124, R135, R176): all bits of element i of p[D] take its result. -/
def vcmpGo (cd k pc : Nat) (w : IWord) (s : State) : State × Option Nat :=
  let c := s.core cd k
  let (f, _) := w.fmts
  let md := s.fmode cd k w
  let g := c.guard w
  let r := (List.range f.count).foldl (fun (acc : Nat × FFlags) i =>
    if bit g (f.bytes * i) then
      let a := elem (c.vreg w.a) f.width i
      let b := operandB c w f i
      let x := if f.isFloat then fCompare (w.func % 8) (FVal.decode f md.fl a) (FVal.decode f md.fl b)
        else (iCompare f.width (w.func % 8) a b, .none)
      (setElem acc.1 f.bytes i (if x.1 then 2 ^ f.bytes - 1 else 0), acc.2.or x.2)
    else acc) (c.preg w.d, .none)
  ((s.setCore cd k (c.setP w.d r.1)).noteFlags cd k pc r.2, none)

def execVcmp (cd k : Nat) (s : State) : Out := instrRow cd k 0x4E s (vcmpGo cd k (s.core cd k).pc.toNat)

/-- VSEL: P, after PN, selects element by element (R131). -/
def vselGo (cd k : Nat) (w : IWord) (s : State) : State × Option Nat :=
  let c := s.core cd k
  let (f, _) := w.fmts
  let r := laneMap f.count f.bytes (fun i => i) allOnes (c.vreg w.d) (fun i =>
    (if bit (c.guard w) (f.bytes * i) then elem (c.vreg w.a) f.width i else operandB c w f i, .none))
  (s.setCore cd k (c.setV w.d r.1), none)

def execVsel (cd k : Nat) (s : State) : Out := instrRow cd k 0x4F s (vselGo cd k)

/-- VDOT4 (R104): acc + the sum of four INT8 products, modulo 2^32. -/
def vdot4Go (cd k : Nat) (w : IWord) (s : State) : State × Option Nat :=
  let c := s.core cd k
  let r := laneMap 64 4 (fun i => i) (c.guard w) (c.vreg w.d) (fun l =>
    let dot := sumInt ((List.range 4).map (fun m =>
      signed 8 (elem (c.vreg w.a) 8 (4 * l + m)) * signed 8 (operandB c w .int8 (4 * l + m))))
    (unsigned 32 (signed 32 (elem (c.vreg w.c) 32 l) + dot), .none))
  (s.setCore cd k (c.setV w.d r.1), none)

def execVdot4 (cd k : Nat) (s : State) : Out := instrRow cd k 0x50 s (vdot4Go cd k)

/-! ## Conversion, sum words, partials -/

/-- VCVT (R177 to R181, R633). -/
def vcvtGo (cd k pc : Nat) (w : IWord) (s : State) : State × Option Nat :=
  vecMapGo cd k pc (fun g md a _ _ => fConvert w.fmts.1 g md a) w s

def execVcvt (cd k : Nat) (s : State) : Out := instrRow cd k 0x51 s (vcvtGo cd k (s.core cd k).pc.toNat)

/-- VSWC (R41, R144, R182): 64 sum words at s[A] under the header at s[B]. -/
def vswcGo (cd k pc : Nat) (w : IWord) (s : State) : State × Option Nat :=
  let c := s.core cd k
  let md := s.fmode cd k w
  let (hb, s) := s.coreRead cd k (c.sreg w.b) 2
  let (ws, s) := s.coreRead cd k (c.sreg w.a) 384
  let hdr := ofBytes hb
  let sums := ofBytes ws
  let c := s.core cd k
  let r := laneMap 64 4 (fun i => i) (c.guard w) (c.vreg w.d) (fun i =>
    sumToFp32 md (bit hdr 15) (hdr % 1024) (elem sums 48 i))
  let s := s.setCore cd k (c.setV w.d r.1)
  let s := if bit hdr 15 then s.qh cd k 63 else s
  let s := if bit hdr 14 then s.qh cd k 47 else s
  (s.noteFlags cd k pc r.2, none)

def execVswc (cd k : Nat) (s : State) : Out := instrRow cd k 0x52 s (vswcGo cd k (s.core cd k).pc.toNat)

/-- VPART (R40, R97, R98, R144): FP32 elements as partials into entry D. -/
def vpartGo (cd k pc : Nat) (w : IWord) (s : State) : State × Option Nat :=
  let c := s.core cd k
  let hdr := c.sreg w.b
  let ev := hdr % 1024
  let g := bits hdr 19 16
  let fl := (s.fmode cd k w).fl
  let ps := (List.range 64).map (fun i =>
    if bit (c.guard w) (4 * i) then fp32ToPartial fl (elem (c.vreg w.a) 32 i) ev g else (0, false, false))
  let poison := ps.any (fun p => p.2.1)
  let clamp := ps.any (fun p => p.2.2)
  let s := if poison then s.qh cd k 63 else s
  let s := if clamp then s.qh cd k 47 else s
  let s := s.pqRead cd k w.d
  match (c.entry w.d).accept ev g (ps.map (fun p => p.1)) (64 * (w.func % 8)) poison clamp with
  | some q => (s.onCore cd k (fun c => { c with pq := Tab.set {} c.pq w.d q }), none)
  | none => (s.raiseCore cd k [0x09] pc, none)

def execVpart (cd k : Nat) (s : State) : Out := instrRow cd k 0x53 s (vpartGo cd k (s.core cd k).pc.toNat)

/-- The bytes of a block's elements: INT8, or KV4 nibbles packed two to a byte, even index low (R48). -/
def blockBytes (kv4 : Bool) (b : Block) : Nat :=
  if kv4 then pack 4 (b.q.map (unsigned 4)) else pack 8 (b.q.map (unsigned 8))

/-- VQUANT (R33, R45 to R48, R144). -/
def vquantGo (cd k : Nat) (w : IWord) (s : State) : State × Option Nat :=
  let c := s.core cd k
  let mode := w.func % 4
  let us := (List.range 128).map (fun i =>
    if i < 64 then elem (c.vreg w.a) 32 i else elem (c.vreg (w.a + 1)) 32 (i - 64))
  let blocks := if mode = 0 then [quantBlock 6 127 us]
    else (List.range 4).map (fun b =>
      quantBlock (if mode = 1 then 6 else 2) (if mode = 1 then 127 else 7) ((us.drop (32 * b)).take 32))
  let bytesPer := if mode = 0 then 128 else if mode = 1 then 32 else 16
  let elems := blocks.flatMap (fun b => toBytes bytesPer (blockBytes (decide (mode = 2)) b))
  let exps := blocks.map (fun b => b.e)
  let top := (exps.filter (fun e => decide (e ≠ 0xFF))).foldl max (c.sreg w.d % 256)
  let s := s.writeMem cd (coreBuf k + c.sreg w.b) elems
  let s := s.writeMem cd (coreBuf k + c.sreg w.c) (exps.map (BitVec.ofNat 8))
  let s := s.onCore cd k (fun c => c.setS w.d top)
  let s := s.qh cd k 63 (blocks.filter (fun b => b.poison)).length
  let s := s.qh cd k 31 (blocks.filter (fun b => b.expHigh)).length
  let s := s.qh cd k 15 (blocks.filter (fun b => b.expLow)).length
  let s := if mode = 0 then
      exps.foldl (fun s e => if e = 0xFF then s else s.sample cd 3 (e : Int) (some c.curLayer) none (k + 1)) s
    else s
  (s, none)

def execVquant (cd k : Nat) (s : State) : Out := instrRow cd k 0x54 s (vquantGo cd k)

/-! ## Reduction, functions, division -/

/-- One level of the pairing tree (R105): element i with element i + m/2. -/
def pairLevel (f : Nat → Nat → Nat × FFlags) (l : List Nat) : List Nat × FFlags :=
  let h := l.length / 2
  let rs := (List.range h).map (fun i => f (l.getD i 0) (l.getD (i + h) 0))
  (rs.map (fun r => r.1), rs.foldl (fun a r => a.or r.2) .none)

/-- The pairing tree of R105, `levels` levels. -/
def pairTree (f : Nat → Nat → Nat × FFlags) : Nat → List Nat → Nat × FFlags
  | 0, l => (l.getD 0 0, .none)
  | n + 1, l =>
    let r := pairLevel f l
    let t := pairTree f n r.1
    (t.1, r.2.or t.2)

/-- VRED's combination of two elements (R105, R176, R184, R185). -/
def redElem (kind : Nat) (f : Fmt) (md : FMode) (a b : Nat) : Nat × FFlags :=
  if kind = 0 then
    (if f.isFloat then fAdd f md (FVal.decode f md.fl a) (FVal.decode f md.fl b) else ((a + b) % 2 ^ f.width, .none))
  else (minMaxElem (decide (kind = 1)) f md a b, .none)

def vredGo (cd k pc : Nat) (w : IWord) (s : State) : State × Option Nat :=
  let c := s.core cd k
  let (f, _) := w.fmts
  let md := s.fmode cd k w
  let es := (List.range f.count).map (fun i => elem (c.vreg w.a) f.width i)
  let r := pairTree (redElem (w.func % 4) f md) (Nat.log2 f.count) es
  ((s.setCore cd k (c.setS w.d r.1)).noteFlags cd k pc r.2, none)

def execVred (cd k : Nat) (s : State) : Out := instrRow cd k 0x55 s (vredGo cd k (s.core cd k).pc.toNat)

/-- One VTRAN element (R106, R143, R183): computed in FP32, a 16-bit destination rounded once more by the mode. -/
def tranElem (fd fs : Fmt) (md : FMode) (fn a : Nat) : Nat × FFlags :=
  let a32 := if fs = .fp32 then a else ((FVal.decode fs md.fl a).encode .fp32 {}).1
  let r := transcend md.fl fn a32
  if fd = .fp32 then r
  else
    let t := (FVal.decode .fp32 false r.1).encode fd md
    (t.1, r.2.or t.2)

/-- VTRAN: 64 elements; those of a register of 16-bit elements lie at i + 64 H (R130). -/
def vtranGo (cd k pc : Nat) (w : IWord) (s : State) : State × Option Nat :=
  let c := s.core cd k
  let (fd, fs) := w.fmts
  let md := s.fmode cd k w
  let place (f : Fmt) (i : Nat) : Nat := if f.bytes = 2 then i + 64 * w.h else i
  let r := laneMap 64 fd.bytes (place fd) (c.guard w) (c.vreg w.d) (fun i =>
    tranElem fd fs md (w.func % 8) (elem (c.vreg w.a) fs.width (place fs i)))
  ((s.setCore cd k (c.setV w.d r.1)).noteFlags cd k pc r.2, none)

def execVtran (cd k : Nat) (s : State) : Out := instrRow cd k 0x56 s (vtranGo cd k (s.core cd k).pc.toNat)

/-- VDIV (R183). -/
def vdivGo (cd k pc : Nat) (w : IWord) (s : State) : State × Option Nat :=
  vecMapGo cd k pc (fun g md a b _ => fDiv md (FVal.decode g md.fl a) (FVal.decode g md.fl b)) w s

def execVdiv (cd k : Nat) (s : State) : Out := instrRow cd k 0x57 s (vdivGo cd k (s.core cd k).pc.toNat)

/-- VSQRT (R183). -/
def vsqrtGo (cd k pc : Nat) (w : IWord) (s : State) : State × Option Nat :=
  vecMapGo cd k pc (fun g md a _ _ => fSqrt md (FVal.decode g md.fl a)) w s

def execVsqrt (cd k : Nat) (s : State) : Out := instrRow cd k 0x58 s (vsqrtGo cd k (s.core cd k).pc.toNat)

/-! ## Top-k and gate -/

/-- Insert candidate `p` (position, code) into a list sorted by value, descending; equal values keep the lower
position first, a NaN ranks below −∞ (R145). -/
def rankInsert (p : Nat × Nat) : List (Nat × Nat) → List (Nat × Nat)
  | [] => [p]
  | q :: t =>
    let a := FVal.decode .fp32 false p.2
    let b := FVal.decode .fp32 false q.2
    if (b.isNan && !a.isNan) || b.lt false a then p :: q :: t else q :: rankInsert p t

/-- Candidates in the order of R145. -/
def ranked (l : List (Nat × Nat)) : List (Nat × Nat) := l.foldl (fun acc p => rankInsert p acc) []

/-- Element `i` of the FP32 values in v[a], v[a + 1], and so on. -/
def vecFp32 (c : Core) (a i : Nat) : Nat := elem (c.vreg (a + i / 64)) 32 (i % 64)

/-- VTOPK (R144, R145). -/
def vtopkGo (cd k : Nat) (w : IWord) (s : State) : State × Option Nat :=
  let c := s.core cd k
  let n := w.func % 256 + 1
  let kk := bits w.func 13 8 + 1
  let order := (ranked ((List.range n).map (fun i => (i, vecFp32 c w.a i)))).take kk
  let bs := order.flatMap (fun p => toBytes 8 ((c.sreg w.b + p.1) % 2 ^ 32 + p.2 <<< 32))
  (s.writeMem cd (coreBuf k + c.sreg w.d) bs, none)

def execVtopk (cd k : Nat) (s : State) : Out := instrRow cd k 0x59 s (vtopkGo cd k)

/-- Experts in the order of R114: x + b compared exactly, ties to the lower index. -/
def gateInsert (p : Nat × FVal) : List (Nat × FVal) → List (Nat × FVal)
  | [] => [p]
  | q :: t => if q.2.lt false p.2 then p :: q :: t else q :: gateInsert p t

/-- The selected experts, ascending, of `x_i + b_i`; none when one of them has no value (R114). -/
def gateSelect (keys : List FVal) (k : Nat) : List Nat :=
  if keys.any (fun v => v.isNan) then []
  else
    let order := ((keys.zipIdx.map (fun p => (p.2, p.1))).foldl (fun acc p => gateInsert p acc) []).take k
    let sel := order.map (fun p => p.1)
    (List.range keys.length).filter (fun i => sel.contains i)

/-- FP32 operations of the gate, round to nearest, flush clear (R115). -/
def gAdd (a b : Nat) : Nat := (fAdd .fp32 .rne (FVal.decode .fp32 false a) (FVal.decode .fp32 false b)).1
def gSub (a b : Nat) : Nat := (fSub .fp32 .rne (FVal.decode .fp32 false a) (FVal.decode .fp32 false b)).1
def gMul (a b : Nat) : Nat := (fMul .fp32 .rne (FVal.decode .fp32 false a) (FVal.decode .fp32 false b)).1
def gDiv (a b : Nat) : Nat := (fDiv .rne (FVal.decode .fp32 false a) (FVal.decode .fp32 false b)).1

/-- The exponential of R115: EXP2 of RNE(x − m) × log2 e. -/
def expDiff (x m : Nat) : Nat := (transcend false 0 (gMul (gSub x m) 0x3FB8AA3B)).1

/-- The weights of the selected experts (R115), before the routing scale. -/
def gateWeights (mode : Nat) (xs : List Nat) (sel : List Nat) : List Nat :=
  let x (i : Nat) : Nat := xs.getD i 0
  let pool := if mode = 1 then List.range xs.length else sel
  let m := match pool with
    | [] => 0
    | i :: t => t.foldl (fun a j => fMinMax .fp32 .rne true a (x j)) (x i)
  let e (i : Nat) : Nat := if mode < 2 then expDiff (x i) m else (transcend false 4 (x i)).1
  if mode = 3 then sel.map e
  else
    let total := pool.foldl (fun a i => gAdd a (e i)) 0
    sel.map (fun i => gDiv (e i) total)

/-- GATE (R114, R115, R146): the 72-byte record. -/
def gateGo (cd k : Nat) (w : IWord) (s : State) : State × Option Nat :=
  let c := s.core cd k
  let nE := w.func % 256 + 1
  let kk := bits w.func 10 8 + 1
  let xs := (List.range nE).map (vecFp32 c w.a)
  let bias (i : Nat) : Nat := if bit w.func 13 then 0 else vecFp32 c w.b i
  let keys := xs.zipIdx.map (fun p =>
    ((FVal.decode .fp32 false p.1).add 0 (FVal.decode .fp32 false (bias p.2))).1)
  let sel := gateSelect keys kk
  let ws := (gateWeights (bits w.func 12 11) xs sel).map (fun v => gMul v (c.sreg w.c))
  let entries := (List.range 8).flatMap (fun j =>
    toBytes 8 (if j < sel.length then sel.getD j 0 + ws.getD j 0 <<< 32 else 0xFFFF))
  let hdr := toBytes 8 (sel.length + 256 * b2n (decide (sel = [])))
  let s := s.writeMem cd (coreBuf k + c.sreg w.d) (hdr ++ entries)
  (if sel = [] then s.qh cd k 63 else s, none)

def execGate (cd k : Nat) (s : State) : Out := instrRow cd k 0x5A s (gateGo cd k)

end Sys2Proof.Machine
end

