-- ==== Sys2Proof/Machine/MemDie.lean ====
section
/-!
DEFINITION. A memory die: HBM reads with their ECC, regions, page slots, request tables, appends, page summaries and the
assembly of commands (R227 to R246, R256 to R259, R263 to R271).
-/

namespace Sys2Proof.Machine

/-! ## Errors -/

/-- What a command is about, for error records (R268). -/
structure MdCtx where
  op : Nat := 0
  slot : Nat := 0
  layer : Nat := 0
  sender : Nat := 0
  deriving DecidableEq, Repr

/-- Raise bit `b` of MDA_ERR with its record and its event (R267, R268, R619). -/
def State.mdErr (s : State) (md b : Nat) (x : MdCtx) : State :=
  (s.ring md (.unit 16) 0x10 (b + x.slot <<< 16 + x.sender <<< 32)).firstError md .mdaErr .mdaErrinfo (2 ^ b)
    (2 ^ 63 + b <<< 59 + x.op <<< 48 + x.slot <<< 34 + x.layer <<< 22 + x.sender <<< 16)

/-- Words in error of one codeword are one outcome: errors in two words exceed what the code corrects (R228). -/
def mergeWords : List (Nat × Nat) → List (Nat × Nat)
  | [] => []
  | (o, k) :: t =>
    match mergeWords t with
    | (p, l) :: r => if o = p then (o, 2) :: r else (o, k) :: (p, l) :: r
    | [] => [(o, k)]

/-- The stored errors in the 32-byte codewords that a read touches (R228): (offset, kind) of each codeword in error, kind 1 for
an error that it corrects, 2 for one that it detects. -/
def State.hbmErrs (s : State) (md off n : Nat) : List (Nat × Nat) :=
  let lo := pkgAddr md (off / 32 * 32)
  let hi := pkgAddr md ((off + n + 31) / 32 * 32)
  let words := s.memErr.filter (fun e => decide (lo ≤ 8 * e.1) && decide (8 * e.1 < hi))
  mergeWords (words.map (fun e => (8 * e.1 / 32 * 32 - pkgAddr md 0, e.2)))

/-- An uncorrectable codeword lies under a read. -/
def State.hbmBad (s : State) (md off n : Nat) : Bool := (s.hbmErrs md off n).any (fun e => decide (e.2 = 2))

/-- Record the ECC outcome of a read in MDA_ECC (R228, R265). -/
def State.noteEcc (s : State) (md off n : Nat) : State :=
  match s.hbmErrs md off n with
  | [] => s
  | e :: es =>
    let all := e :: es
    let was := s.reg md .mdaEcc
    let s := if bits was 63 62 = 0 then s.setFld md .mdaEcc 39 0 (e.1 / 64) else s
    let s := if all.any (fun x => decide (x.2 = 2)) then s.setFld md .mdaEcc 63 63 1 else s
    let ce := (all.filter (fun x => decide (x.2 = 1))).length
    if ce = 0 then s else (s.setFld md .mdaEcc 62 62 1).addFld md .mdaEcc 55 40 ce

/-- Read `n` bytes of HBM: the bytes as stored, whether they are uncorrectable, and the state with the outcome noted. -/
def State.hbmRead (s : State) (md off n : Nat) : List Byte × Bool × State :=
  (s.readMem md off n, s.hbmBad md off n, s.noteEcc md off n)

/-! ## Regions and page slots (R230, R232, R264) -/

/-- Base and size in bytes of the enabled region of a kind. -/
def State.region (s : State) (md kind : Nat) : Option (Nat × Nat) :=
  (List.range 5).findSome? (fun i =>
    let r := s.reg md .mdaRgn i
    if bit r 59 && decide (bits r 63 60 = kind) then some (bits r 29 0 * 65536, bits r 49 30 * 65536) else none)

/-- Whether `n` bytes from `off` on lie wholly inside a region. -/
def insideRegion (r : Option (Nat × Nat)) (off n : Nat) : Bool :=
  match r with
  | some (b, z) => decide (b ≤ off) && decide (off + n ≤ b + z)
  | none => false

/-- The size of a page slot: pool 0 KV8, 1 KV4. -/
def slotSize (pool : Nat) : Nat := if pool = 0 then 67584 else 34816

/-- The offset of slot `n` of a pool. -/
def State.slotAt (s : State) (md pool n : Nat) : Nat :=
  (match s.region md (2 + pool) with | some (b, _) => b | none => 0) + slotSize pool * n

/-- How many slots a pool holds. -/
def State.poolTotal (s : State) (md pool : Nat) : Nat :=
  match s.region md (2 + pool) with | some (_, z) => z / slotSize pool | none => 0

/-- Slots of a pool that are allocated. -/
def MdSt.allocated (m : MdSt) (pool : Nat) : Nat :=
  (m.pages.filter (fun p => decide (p.1 / 2 ^ 22 = pool))).length

/-- Load TOTAL and FREE of a pool from the region and the allocation. -/
def State.loadPool (s : State) (md pool : Nat) : State :=
  let t := s.poolTotal md pool
  s.setReg md .mdaPool (t <<< 32 + (t - (s.md md).allocated pool)) pool

/-- The first key from `k` on that a table does not list. -/
def firstFree : Nat → Tab Nat → Nat
  | k, [] => k
  | k, (j, _) :: t => if j < k then firstFree k t else if j = k then firstFree (k + 1) t else k

/-- Allocate the lowest free slot of a pool to a request (log entry 50); none when all are taken. -/
def State.takeSlot (s : State) (md pool rq : Nat) : Option (Nat × State) :=
  let m := s.md md
  let k := firstFree (2 ^ 22 * pool) m.pages
  if s.poolTotal md pool ≤ k % 2 ^ 22 ∨ k / 2 ^ 22 ≠ pool then none
  else
    let s := s.setMd md { m with pages := Tab.set 0 m.pages k (rq + 1) }
    some (k % 2 ^ 22, s.loadPool md pool)

/-! ## Layer table and request table (R233 to R235, R270, R271) -/

/-- One entry of MDA_LTAB. -/
structure Layer where
  valid : Bool
  kv4 : Bool
  selected : Bool
  hkv : Nat
  gq : Nat
  win : Nat
  sink : Nat
  ksel : Nat
  lslot : Nat
  csc : Nat
  sout : Nat
  swin : Nat
  deriving DecidableEq, Repr

def State.layer (s : State) (md L : Nat) : Layer :=
  let w0 := s.reg md .mdaLtab L 0
  let w1 := s.reg md .mdaLtab L 1
  { valid := bit w0 63, kv4 := bit w0 62, selected := bit w0 61, hkv := bits w0 60 56, gq := bits w0 55 49,
    win := bits w0 48 43, sink := bits w0 42 40, ksel := bits w0 39 30 + 1, lslot := bits w0 29 22,
    csc := bits w1 63 32, sout := bits w1 31 0, swin := bits (s.reg md .mdaLtab L 2) 24 0 }

/-- HK and HV of head `h` of a layer-table entry. -/
def State.layerScales (s : State) (md L h : Nat) : Nat × Nat :=
  let w := s.reg md .mdaLtab L (8 + h / 2)
  (bits w (32 * (h % 2) + 15) (32 * (h % 2)), bits w (32 * (h % 2) + 31) (32 * (h % 2) + 16))

/-- The layers whose entry is VALID, ascending: read from the registers that differ from their reset value zero. -/
def State.layers (s : State) (md : Nat) : List Nat :=
  let base := pkgAddr md (Reg.off ⟨.mdaLtab, 0, 0⟩)
  s.csr.filterMap (fun e =>
    if base ≤ e.1 ∧ e.1 < base + 0x80000 ∧ (e.1 - base) % 0x80 = 0 ∧ e.2.getLsbD 63 then some ((e.1 - base) / 0x80) else none)

/-- The ordinal of KV head 0 of a layer (R233). -/
def State.ordinal (s : State) (md L : Nat) : Nat :=
  let me := (s.layer md L).lslot
  (s.layers md).foldl (fun a K => let y := s.layer md K; if y.lslot < me then a + y.hkv else a) 0

/-- The number of (layer, KV head) pairs that a memory die holds. -/
def State.pairCount (s : State) (md : Nat) : Nat := (s.layers md).foldl (fun a K => a + (s.layer md K).hkv) 0

/-- All pairs: layer, head, ordinal. -/
def State.pairs (s : State) (md : Nat) : List (Nat × Nat × Nat) :=
  (s.layers md).flatMap (fun K =>
    let j0 := s.ordinal md K
    (List.range (s.layer md K).hkv).map (fun h => (K, h, j0 + h)))

/-- One entry of MDA_RQT. -/
structure Rq where
  valid : Bool
  tree : Bool
  ctx : Nat
  np : Nat
  pt : Nat
  deriving DecidableEq, Repr

def State.rq (s : State) (md slot : Nat) : Rq :=
  let w0 := s.reg md .mdaRqt slot 0
  { valid := bit w0 63, tree := bit w0 62, ctx := bits w0 61 52, np := bits w0 51 36 + 1,
    pt := bits (s.reg md .mdaRqt slot 1) 45 0 }

/-- The remaining reservation of a request in a pool. -/
def State.resv (s : State) (md slot pool : Nat) : Nat :=
  s.fld md .mdaRqt (if pool = 0 then 21 else 53) (if pool = 0 then 0 else 32) slot 2

/-- Take one slot from a request's reservation, and from the pool's sum (R264). -/
def State.chargeResv (s : State) (md slot pool : Nat) : State :=
  let n := s.resv md slot pool
  let s := s.setFld md .mdaRqt (if pool = 0 then 21 else 53) (if pool = 0 then 0 else 32) (n - 1) slot 2
  s.setReg md .mdaRsv (s.reg md .mdaRsv pool - 1) pool

/-- Addresses of the table area (R233). -/
def dirAt (r : Rq) (j : Nat) : Nat := r.pt + 32 * j
def pteAt (r : Rq) (J j i : Nat) : Nat := r.pt + 32 * J + 272 * r.np * j + 16 * i
def summaryAt (r : Rq) (J j i : Nat) : Nat := r.pt + 32 * J + 272 * r.np * j + 16 * r.np + 256 * i

/-- A directory entry (R234). -/
structure Dir where
  tbase : Nat
  fill : Nat
  tmask : Nat
  tsv : Bool
  tslot : Nat
  deriving DecidableEq, Repr

def Dir.ofBytes (b : List Byte) : Dir :=
  let w0 := numAt b 0 8
  let w2 := numAt b 16 8
  { tbase := bits w0 56 32, fill := bits w0 24 0, tmask := numAt b 8 8, tsv := bit w2 63, tslot := bits w2 21 0 }

def Dir.toBytes (d : Dir) : List Byte :=
  Machine.toBytes 8 ((d.tbase % 2 ^ 25) <<< 32 + d.fill % 2 ^ 25) ++ Machine.toBytes 8 d.tmask ++
  Machine.toBytes 8 (b2n d.tsv <<< 63 + d.tslot % 2 ^ 22) ++ Machine.toBytes 8 0

/-- Read a directory entry; none when it is uncorrectable. -/
def State.readDir (s : State) (md slot j : Nat) : Option Dir × State :=
  let (b, bad, s') := s.hbmRead md (dirAt (s.rq md slot) j) 32
  (if bad then none else some (Dir.ofBytes b), s')

/-- FILL of directory entry 0 of a slot, for a completion record: zero when it cannot be read (R242). -/
def State.fill0 (s : State) (md slot : Nat) : Nat := match (s.readDir md slot 0).1 with | some d => d.fill | none => 0

/-- Read several directory entries; none when one of them is uncorrectable. -/
def State.readDirs (s : State) (md slot : Nat) : List Nat → Option (List Dir) × State
  | [] => (some [], s)
  | j :: js =>
    let (d, s) := s.readDir md slot j
    let (ds, s) := s.readDirs md slot js
    (match d, ds with | some d, some ds => some (d :: ds) | _, _ => none, s)

def State.writeDir (s : State) (md slot j : Nat) (d : Dir) : State := s.writeMem md (dirAt (s.rq md slot) j) d.toBytes

/-- A page-table entry (R235). -/
structure Pte where
  hv : Nat
  hk : Nat
  ctx : Nat
  slot : Nat
  deriving DecidableEq, Repr

def Pte.ofBytes (b : List Byte) : Pte :=
  { hv := numAt b 10 2, hk := numAt b 8 2, ctx := bits (numAt b 0 4) 31 22, slot := bits (numAt b 0 4) 21 0 }

def Pte.toBytes (p : Pte) : List Byte :=
  Machine.toBytes 4 (p.ctx % 1024 * 2 ^ 22 + p.slot % 2 ^ 22) ++ Machine.toBytes 4 0 ++ Machine.toBytes 2 p.hk ++
  Machine.toBytes 2 p.hv ++ Machine.toBytes 4 0

/-- Read page-table entry `i` of pair `j`: its entry, or the status that a failing check gives (R259). -/
def State.readPte (s : State) (md slot j i : Nat) : Except Nat Pte × State :=
  let r := s.rq md slot
  let (b, bad, s') := s.hbmRead md (pteAt r (s.pairCount md) j i) 16
  let p := Pte.ofBytes b
  (if bad then .error 0x0B else if p.ctx ≠ r.ctx then .error 0x03 else .ok p, s')

/-! ## Tokens (R45, R46, R232, R237) -/

/-- Bytes of one token of one KV head. -/
def tokenSize (kv4 : Bool) : Nat := if kv4 then 136 else 264

/-- The three places of token index `x` in a slot: (offset, bytes, start in the token). -/
def tokenParts (kv4 : Bool) (x : Nat) : List (Nat × Nat × Nat) :=
  if kv4 then [(64 * x, 64, 0), (16384 + 64 * x, 64, 64), (32768 + 8 * x, 8, 128)]
  else [(128 * x, 128, 0), (32768 + 128 * x, 128, 128), (65536 + 8 * x, 8, 256)]

/-- The bytes of token index `x` of the slot at `base`. -/
def State.tokenBytes (s : State) (md base : Nat) (kv4 : Bool) (x : Nat) : List Byte :=
  (tokenParts kv4 x).flatMap (fun p => s.readMem md (base + p.1) p.2.1)

/-- Whether any part of a token is uncorrectable. -/
def State.tokenBad (s : State) (md base : Nat) (kv4 : Bool) (x : Nat) : Bool :=
  (tokenParts kv4 x).any (fun p => s.hbmBad md (base + p.1) p.2.1)

/-- Note the ECC outcome of reading a token; an uncorrectable one is HBM_UE (R259). -/
def State.noteToken (s : State) (md base : Nat) (kv4 : Bool) (x : Nat) (c : MdCtx) : State :=
  if s.memErr = [] then s
  else
    let bad := s.tokenBad md base kv4 x
    let s := (tokenParts kv4 x).foldl (fun s p => s.noteEcc md (base + p.1) p.2.1) s
    if bad then s.mdErr md 10 c else s

def State.writeToken (s : State) (md base : Nat) (kv4 : Bool) (x : Nat) (t : List Byte) : State :=
  (tokenParts kv4 x).foldl (fun s p => s.writeMem md (base + p.1) ((t.drop p.2.2).take p.2.1)) s

/-- Whether what a key is read from is uncorrectable: its elements, or its exponent bytes (R238). -/
def State.keyBad (s : State) (md base : Nat) (kv4 : Bool) (x : Nat) : Bool :=
  ((tokenParts kv4 x).filter (fun p => decide (p.2.2 ≠ tokenSize kv4 / 2 - 4))).any (fun p => s.hbmBad md (base + p.1) p.2.1)

/-- A token as the summary of its page reads it: its key with exponent 0xFF where that is uncorrectable. -/
def State.keyToken (s : State) (md base : Nat) (kv4 : Bool) (x : Nat) : List Byte :=
  let b := s.tokenBytes md base kv4 x
  if s.keyBad md base kv4 x then b.take (b.length - 8) ++ List.replicate 8 0xFF#8 else b

/-- Note the ECC outcome of reading the keys of a slot, each codeword once; an uncorrectable one is HBM_UE (R238). -/
def State.noteKeys (s : State) (md base : Nat) (kv4 : Bool) (c : MdCtx) : State :=
  if s.memErr = [] then s
  else
    let (n, ex) := if kv4 then (256 * 64, 32768) else (256 * 128, 65536)
    let bad := s.hbmBad md base n || s.hbmBad md (base + ex) 2048
    let s := (s.noteEcc md base n).noteEcc md (base + ex) 2048
    if bad then s.mdErr md 10 c else s

/-- A token as read: an uncorrectable one has every block's exponent 0xFF (R259). -/
def State.token (s : State) (md base : Nat) (kv4 : Bool) (x : Nat) : List Byte :=
  let b := s.tokenBytes md base kv4 x
  if s.tokenBad md base kv4 x then b.take (b.length - 8) ++ List.replicate 8 0xFF#8 else b

/-- Key element `e` of a token: its integer and exponent byte. -/
def keyElem (kv4 : Bool) (t : List Byte) (e : Nat) : Int × Nat :=
  if kv4 then (signed 4 (byteAt t (e / 2) / 16 ^ (e % 2)), byteAt t (128 + e / 32))
  else (signed 8 (byteAt t e), byteAt t (256 + e / 32))

/-- Value element `e` of a token. -/
def valElem (kv4 : Bool) (t : List Byte) (e : Nat) : Int × Nat :=
  if kv4 then (signed 4 (byteAt t (64 + e / 2) / 16 ^ (e % 2)), byteAt t (132 + e / 32))
  else (signed 8 (byteAt t (128 + e)), byteAt t (260 + e / 32))

/-- The exact value of integer `q` under exponent byte `e`. -/
def scaledVal (q : Int) (e : Nat) : FVal :=
  if e = 0xFF then .nan else .fin (decide (q < 0)) q.natAbs ((e : Int) - 127)

/-! ## Page summaries (R238) -/

/-- An FP32 code of an exact value, to nearest even. -/
def toFp32 (v : FVal) : Nat := (v.encode .fp32 .rne).1

/-- The 256 bytes of a page's summary: `tok` gives the token at each index, `hk` the page's FP16 key scale. -/
def summary (kv4 : Bool) (hk : Nat) (tok : Nat → List Byte) : List Byte :=
  let toks := (List.range 256).map tok
  (List.range 128).flatMap (fun e =>
    let vs := toks.map (fun t =>
      let (q, x) := keyElem kv4 t e
      let v := scaledVal q x
      toFp32 (if kv4 then (v.mul (FVal.decode .fp16 false hk)).1 else v))
    let sum := (pairTree (fun a b => (gAdd a b, .none)) 8 vs).1
    let mean := gMul sum 0x3B800000
    toBytes 2 ((FVal.decode .fp32 false mean).encode .bf16 .rne).1)

/-! ## Appends (R236, R237) -/

/-- The scales of page `k` of pair `j`: those of its entry when the page is open, else the layer's (R250). -/
def State.pageScales (s : State) (md slot j L h k fill : Nat) : Nat × Nat :=
  if 256 * k < fill then
    let p := Pte.ofBytes (s.readMem md (pteAt (s.rq md slot) (s.pairCount md) j k) 16)
    (p.hk, p.hv)
  else s.layerScales md L h

/-- Open the page that holds position `t`: a status, or the state with the entry written (R236). -/
def State.openPage (s : State) (md slot L h j t : Nat) : Except Nat State :=
  let r := s.rq md slot
  let y := s.layer md L
  let pool := b2n y.kv4
  if s.resv md slot pool = 0 then .error 0x06
  else if r.np ≤ t / 256 then .error 0x0A
  else
    match s.takeSlot md pool slot with
    | none => .error 0x06
    | some (n, s) =>
      let (hk, hv) := if y.kv4 then s.layerScales md L h else (0, 0)
      let s := s.chargeResv md slot pool
      .ok (s.writeMem md (pteAt r (s.pairCount md) j (t / 256)) (Pte.toBytes { hv, hk, ctx := r.ctx, slot := n }))

/-- Close page `i`: compute and write its summary (R238). -/
def State.closePage (s : State) (md slot L j i : Nat) (c : MdCtx) : State :=
  let r := s.rq md slot
  let kv4 := (s.layer md L).kv4
  let J := s.pairCount md
  let p := Pte.ofBytes (s.readMem md (pteAt r J j i) 16)
  let base := s.slotAt md (b2n kv4) p.slot
  let out := summary kv4 p.hk (fun x => s.keyToken md base kv4 x)
  (s.noteKeys md base kv4 c).writeMem md (summaryAt r J j i) out

/-- Append a token at position `t` of pair `j` (layer `L`, head `h`): the failing status, or the new state. -/
def State.append (s : State) (md slot L h j t : Nat) (tok : List Byte) (c : MdCtx) : Except (Nat × State) State :=
  let kv4 := (s.layer md L).kv4
  match s.readDir md slot j with
  | (none, s) => .error (0x0B, s)
  | (some d, s) =>
    if d.fill < t ∨ 16777216 ≤ t then .error (0x04, s)
    else if t < d.fill then
      match s.readPte md slot j (t / 256) with
      | (.error e, s) => .error (e, s)
      | (.ok p, s) =>
        let base := s.slotAt md (b2n kv4) p.slot
        let was := s.token md base kv4 (t % 256)
        let s := s.noteToken md base kv4 (t % 256) c
        if was = tok then .ok s else .error (0x05, s)
    else
      match (if t % 256 = 0 then s.openPage md slot L h j t else .ok s) with
      | .error e => .error (e, s)
      | .ok s =>
        match s.readPte md slot j (t / 256) with
        | (.error e, s) => .error (e, s)
        | (.ok p, s) =>
          let s := s.writeToken md (s.slotAt md (b2n kv4) p.slot) kv4 (t % 256) tok
          let s := s.writeDir md slot j { d with fill := t + 1 }
          .ok (if (t + 1) % 256 = 0 then s.closePage md slot L j (t / 256) c else s)

/-- Append node `i` of the current tree of pair `j`, whose directory entry is `d` (R237, R246). -/
def State.appendNode (s : State) (md slot L j i : Nat) (tok : List Byte) (c : MdCtx) : Except (Nat × State) State :=
  let kv4 := (s.layer md L).kv4
  match s.readDir md slot j with
  | (none, s) => .error (0x0B, s)
  | (some d, s) =>
    let base := s.slotAt md (b2n kv4) d.tslot
    if bit d.tmask i then
      let was := s.token md base kv4 i
      let s := s.noteToken md base kv4 i c
      if was = tok then .ok s else .error (0x05, s)
    else
      let s := s.writeToken md base kv4 i tok
      .ok (s.writeDir md slot j { d with tmask := d.tmask + 2 ^ i })

/-- Run appends in order until one fails. -/
def appendAll (f : Nat → State → Except (Nat × State) State) : List Nat → State → Except (Nat × State) State
  | [], s => .ok s
  | i :: is, s =>
    match f i s with
    | .error e => .error e
    | .ok s => appendAll f is s

/-! ## Command headers (R239 to R243) -/

/-- A command's header. -/
structure CmdHdr where
  op : Nat
  kind : Nat
  rows : Nat
  slot : Nat
  layer : Nat
  count : Nat
  pos : Nat
  rgroup : Nat
  rdie : Nat
  caddr : Nat
  deriving DecidableEq, Repr

def CmdHdr.of (b : List Byte) : CmdHdr :=
  { op := byteAt b 0, kind := byteAt b 1 / 64, rows := byteAt b 1 % 64 + 1, slot := numAt b 2 2 % 16384,
    layer := numAt b 4 2 % 4096, count := byteAt b 6, pos := numAt b 8 4 % 2 ^ 24, rgroup := numAt b 12 2 % 1024,
    rdie := byteAt b 14 % 64, caddr := numAt b 32 8 }

/-- The bits of a header that a command does not use, as the bytes that must be zero under a mask (R241, R243 to
R245). -/
def headerMask (op : Nat) : List (Nat × Nat) :=
  let always : List (Nat × Nat) := [(3, 0xC0), (7, 0xFF), (15, 0xFF)] ++ (List.range 24).map (fun i => (40 + i, 0xFF))
  let lay : List (Nat × Nat) := [(4, 0xFF), (5, 0xFF)]
  let poss : List (Nat × Nat) := [(8, 0xFF), (9, 0xFF), (10, 0xFF), (11, 0xFF)]
  let ret : List (Nat × Nat) := [(12, 0xFF), (13, 0xFF), (14, 0xFF)]
  let tail (n : Nat) : List (Nat × Nat) := (List.range (32 - n)).map (fun i => (n + i, 0xFF))
  match op with
  | 1 => always ++ [(5, 0xF0), (11, 0xFF), (13, 0xFC), (14, 0xC0)] ++ tail 16
  | 2 => always ++ [(1, 0xFF), (11, 0xFF)] ++ lay ++ ret
  | 3 => always ++ [(1, 0x7F), (6, 0xFF), (17, 0xFC), (25, 0xC0), (20, 0x1F), (28, 0xC0), (31, 0xC0)] ++ lay ++ poss ++ ret
  | 4 => always ++ [(1, 0xFF), (6, 0xFF)] ++ lay ++ poss ++ ret ++ tail 16
  | _ => always ++ [(1, 0xC0), (6, 0xFF), (13, 0xFC), (14, 0xC0)] ++ lay ++ poss ++ tail 28

/-- Whether a header is well formed (FORMAT otherwise): OP, KIND, reserved bits and the ranges of its fields. -/
def headerOk (b : List Byte) : Bool :=
  let h := CmdHdr.of b
  decide (1 ≤ h.op) && decide (h.op ≤ 5) &&
  (headerMask h.op).all (fun m => decide (byteAt b m.1 &&& m.2 = 0)) &&
  (match h.op with
   | 1 => decide (h.kind ≤ 1) && decide (h.count ≤ 64) && decide (h.rgroup + h.rows ≤ 1024)
   | 2 => decide (h.count ≤ 16) && (List.range h.count).all (fun d => decide (byteAt b (16 + d) ≤ 63))
   | 5 => decide (1 ≤ numAt b 24 4) && decide (numAt b 24 4 ≤ 65536)
   | _ => true)

/-- How long a command is, once its header is there (R239, R240, R241, R245). -/
inductive CmdLen where
  | bytes (n : Nat)
  /-- No length can be formed: the OP is unknown. -/
  | badOp
  /-- No length can be formed: the layer entry is not VALID. -/
  | noLayer
  deriving DecidableEq, Repr

def State.cmdLen (s : State) (md : Nat) (b : List Byte) : CmdLen :=
  let h := CmdHdr.of b
  match h.op with
  | 1 =>
    let y := s.layer md h.layer
    if !y.valid then .noLayer
    else .bytes (64 + (if h.kind = 1 then 8 * h.rows else 0) + h.rows * (y.hkv * y.gq * 129) +
      h.count * (y.hkv * tokenSize y.kv4))
  | 2 | 3 | 4 => .bytes 64
  | 5 => .bytes (64 + 4 * h.rows)
  | _ => .badOp

/-! ## Results (R242) -/

/-- The completion record is a write of the memory die's command engine to CADDR; 0 sends none. -/
def State.sendRecord (s : State) (md : Nat) (h : CmdHdr) (status fill : Nat) : State :=
  if h.caddr = 0 then s
  else
    let m : Msg := { type := 2, priv := true, dpkg := bits h.caddr 63 52, ddie := bits h.caddr 51 46,
                     addr := bits h.caddr 45 0, len := 8,
                     data := toBytes 4 (status + h.op <<< 8 + h.slot <<< 16) ++ toBytes 4 fill }
    s.requestWait md 5 .quiet m

/-- The command engine's CMD event: a status, or 0xFF when the command is taken (R619). -/
def State.cmdEvent (s : State) (md : Nat) (h : CmdHdr) (status sender : Nat) : State :=
  s.ring md (.unit 16) 0x13 (h.op + h.slot <<< 8 + status <<< 22 + sender <<< 30)

/-- An activation vector of `n` blocks whose every exponent is 0xFF. -/
def poisonVector (n : Nat) : List Byte := List.replicate (128 * n) 0#8 ++ List.replicate n 0xFF#8

/-- The largest exponent byte other than 0xFF; 0x00 when there is none. -/
def emaxOf (es : List Byte) : Nat := (es.filter (fun e => e ≠ 0xFF#8)).foldl (fun a e => max a e.toNat) 0

/-- A command that succeeds: its event and its completion record. -/
def State.doneCmd (s : State) (md sender : Nat) (h : CmdHdr) (fill : Nat) : State :=
  (s.cmdEvent md h 0 sender).sendRecord md h 0 fill

/-- A command that fails: its error bit, the poisoned rows of an ATTEND whose layer is VALID, its completion record
(R242, R259). `fill` is what bytes 4 to 7 of the record hold. -/
def State.failCmd (s : State) (md sender : Nat) (b : List Byte) (status fill : Nat) : State :=
  let h := CmdHdr.of b
  let s := (s.cmdEvent md h status sender).mdErr md (status - 1) { op := h.op, slot := h.slot, layer := h.layer, sender }
  let y := s.layer md h.layer
  let s := if h.op = 1 ∧ y.valid ∧ status ≠ 0x09 ∧ 64 ≤ b.length then
      (List.range h.rows).foldl (fun s r =>
        if h.rgroup + r ≤ 1023 then s.postVector md h.rdie (h.rgroup + r) 0 (poisonVector (y.hkv * y.gq)) false h.slot else s) s
    else s
  s.sendRecord md h status fill

/-! ## Assembly (R239) -/

/-- The next bytes of a sender's command, at window offset `off` (none: an MCV, which continues). -/
def State.mdBytes (s : State) (md : Nat) (sd : Sender) (off : Option Nat) (bs : List Byte) : State :=
  let m := s.md md
  let cur := match m.asm.find? (fun a => decide (a.sender = sd)) with | some a => a.bytes | none => []
  let others := m.asm.filter (fun a => decide (a.sender ≠ sd))
  let all := cur ++ bs
  let gap := match off with | some o => decide (o ≠ cur.length) | none => false
  let ends : State := s.setMd md { m with asm := others }
  let take : State := s.setMd md { m with asm := others, cmds := m.cmds ++ [{ sender := sd, bytes := all }] }
  -- the bytes of the offending message are discarded: with nothing under assembly there is no header
  if gap then ends.failCmd md sd.sdie cur 0x01 0
  else if all.length < 64 then s.setMd md { m with asm := others ++ [{ sender := sd, bytes := all }] }
  else
    match s.cmdLen md all with
    | .badOp => ends.failCmd md sd.sdie all 0x01 0
    | .noLayer => take
    | .bytes n =>
      if n < all.length then ends.failCmd md sd.sdie all 0x01 0
      else if n = all.length then take
      else s.setMd md { m with asm := others ++ [{ sender := sd, bytes := all }] }

/-- Take command `n` out of the queue, if it is of the opcode and no earlier command of the same slot and sender waits;
an RQ_RELEASE waits for every earlier command of its slot, and every later one for it (R239, R243). -/
def State.takeCmd (s : State) (md n op : Nat) : Option (MdCmd × State) :=
  let m := s.md md
  match m.cmds[n]? with
  | none => none
  | some c =>
    let h := CmdHdr.of c.bytes
    let before := (m.cmds.take n).filter (fun x => decide ((CmdHdr.of x.bytes).slot = h.slot))
    if h.op ≠ op then none
    else if (if op = 4 then before ≠ [] else before.any (fun x => decide (x.sender = c.sender) || decide ((CmdHdr.of x.bytes).op = 4))) then none
    else some (c, s.setMd md { m with cmds := m.cmds.eraseIdx n })

end Sys2Proof.Machine
end

