-- ==== Sys2Proof/Machine/Attention.lean ====
section
/-!
DEFINITION. The commands of a memory die: ATTEND, COMMIT, RQ_OPEN, RQ_RELEASE and GATHER, with the attention procedure
(R240 to R254, R259, R635).
-/

namespace Sys2Proof.Machine

/-! ## Float steps with their flags (R186) -/

def v32 (a : Nat) : FVal := FVal.decode .fp32 false a
def aAdd (a b : Nat) : Nat × FFlags := fAdd .fp32 .rne (v32 a) (v32 b)
def aSub (a b : Nat) : Nat × FFlags := fSub .fp32 .rne (v32 a) (v32 b)
def aMul (a b : Nat) : Nat × FFlags := fMul .fp32 .rne (v32 a) (v32 b)
def aFma (a b c : Nat) : Nat × FFlags := fFma .fp32 .rne (v32 a) (v32 b) (v32 c)
def aExp2 (a : Nat) : Nat × FFlags := transcend false 0 a

/-- A step of a chain: the second result and both flag sets. -/
def thenF (r : Nat × FFlags) (f : Nat → Nat × FFlags) : Nat × FFlags :=
  let t := f r.1
  (t.1, r.2.or t.2)

/-! ## Scores and pages (R249, R250) -/

/-- What a page's token is when read: its bytes, for each attended position of a row. -/
structure Attended where
  pos : Nat
  tok : List Byte
  deriving DecidableEq, Repr

/-- The score of one attended token (R249): `q` the 128 query elements, `eq` their exponent byte. -/
def score (kv4 : Bool) (hk csc eq : Nat) (q : List Int) (t : List Byte) : Nat × FFlags :=
  let part (b : Nat) : FVal :=
    let dot := sumInt ((List.range 32).map (fun i => q.getD (32 * b + i) 0 * (keyElem kv4 t (32 * b + i)).1))
    scaledVal dot (keyElem kv4 t (32 * b)).2
  let p0 := fAdd .fp32 .rne (part 0) (part 1)
  let p1 := fAdd .fp32 .rne (part 2) (part 3)
  let s := aAdd p0.1 p1.1
  let s := (s.1, (p0.2.or p1.2).or s.2)
  let s := thenF s (fun a => fMul .fp32 .rne (v32 a) (scaledVal 1 eq))
  let s := if kv4 then thenF s (fun a => fMul .fp32 .rne (v32 a) (FVal.decode .fp16 false hk)) else s
  thenF s (fun a => aMul a csc)

/-- Nearest integer of an FP32 code, ties to even, at most 255; 0 for a NaN (log entry 51). -/
def weight255 (a : Nat) : Nat :=
  match v32 a with
  | .fin false m e => min 255 (roundScale 0 false m e).1
  | .inf false => 255
  | _ => 0

/-- One page's terms: m_k, L_k and the 128 A_k (R250). -/
structure PageTerms where
  m : Nat
  l : Nat
  a : List Nat
  fl : FFlags

/-- The terms of a page from its attended tokens (R250). -/
def pageTerms (kv4 : Bool) (hk hv csc eq : Nat) (q : List Int) (ts : List Attended) : PageTerms :=
  let sc := ts.map (fun t => (t, score kv4 hk csc eq q t.tok))
  let fl0 := sc.foldl (fun a x => a.or x.2.2) FFlags.none
  let m := match sc with
    | [] => 0xFF800000
    | x :: xs => xs.foldl (fun a y => fMinMax .fp32 .rne true a y.2.1) x.2.1
  let qs := sc.map (fun x =>
    let r := thenF (thenF (aSub x.2.1 m) aExp2) (fun e => aMul e 0x437F0000)
    (x.1, weight255 r.1, r.2))
  let fl1 := qs.foldl (fun a x => a.or x.2.2) fl0
  let at_ (x : Nat) : Option (Attended × Nat × FFlags) := qs.find? (fun y => decide (y.1.pos % 256 = x))
  let cells := (List.range 256).map at_
  let as := (List.range 128).map (fun e =>
    let terms := cells.map (fun c =>
      match c with
      | none => (0, FFlags.none)
      | some (t, w, _) =>
        let (v, x) := valElem kv4 t.tok e
        (scaledVal (w * v) x).encode .fp32 .rne)
    let sum := pairTree aAdd 8 (terms.map (fun t => t.1))
    let r := (sum.1, terms.foldl (fun f t => f.or t.2) sum.2)
    if kv4 then thenF r (fun a => fMul .fp32 .rne (v32 a) (FVal.decode .fp16 false hv)) else r)
  { m, l := qs.foldl (fun a x => a + x.2.1) 0, a := as.map (fun r => r.1),
    fl := as.foldl (fun f r => f.or r.2) fl1 }

/-- The running fold of R251. -/
structure Fold where
  m : Nat := 0xFF800000
  l : Nat := 0
  acc : List Nat := List.replicate 128 0
  fl : FFlags := .none

/-- Fold one page. -/
def Fold.page (f : Fold) (p : PageTerms) : Fold :=
  let mn := fMinMax .fp32 .rne true f.m p.m
  let ro := thenF (aSub f.m mn) aExp2
  let rk := thenF (aSub p.m mn) aExp2
  let lk := aMul (roundTo .fp32 .rne false p.l 0).1 rk.1
  let l := aFma f.l ro.1 lk.1
  let acc := List.zipWith (fun a k => let t := aMul k rk.1; let u := aFma a ro.1 t.1; (u.1, t.2.or u.2)) f.acc p.a
  { m := mn, l := l.1, acc := acc.map (fun r => r.1),
    fl := acc.foldl (fun x r => x.or r.2) (f.fl.or (p.fl.or (ro.2.or (rk.2.or (lk.2.or l.2))))) }

/-- What one row and query head gives: its output block, and what it counts (R251 to R253). -/
structure HeadOut where
  block : Block
  fl : FFlags
  empty : Bool
  nan : Bool

def headOut (sout : Nat) (pages : List PageTerms) : HeadOut :=
  if pages.length = 0 then
    let us := List.replicate 128 (aMul 0 sout).1
    { block := quantBlock 6 127 us, fl := .none, empty := true, nan := false }
  else
    let f := pages.foldl Fold.page {}
    let os := f.acc.map (fun a => fDiv .rne (v32 a) (v32 f.l))
    let us := os.map (fun o => aMul o.1 sout)
    { block := quantBlock 6 127 (us.map (fun u => u.1))
      fl := us.foldl (fun x u => x.or u.2) (os.foldl (fun x o => x.or o.2) f.fl)
      empty := false
      nan := os.any (fun o => (v32 o.1).isNan) }

/-! ## Block selection (R247, R248) -/

/-- The score of a candidate page for the query heads of one group: (elements, exponent) of each head, ascending. -/
def pageScore (heads : List (List Int × Nat)) (sum : List Byte) : Nat :=
  let d (h : List Int × Nat) : Nat :=
    let ps := (List.range 128).map (fun e =>
      let q := h.1.getD e 0
      toFp32 ((FVal.fin (decide (q < 0)) q.natAbs 0).mul (FVal.decode .bf16 false (numAt sum (2 * e) 2))).1)
    let t := (pairTree aAdd 7 ps).1
    (fMul .fp32 .rne (v32 t) (scaledVal 1 h.2)).1
  match heads.map d with
  | [] => 0
  | x :: xs => xs.foldl (fun a y => (aAdd a y).1) x

/-- Insert a candidate (page, score): NaN first, then by score descending, the lower page first among equals. -/
def candInsert (p : Nat × Nat) : List (Nat × Nat) → List (Nat × Nat)
  | [] => [p]
  | q :: t =>
    let a := v32 p.2
    let b := v32 q.2
    if (a.isNan && !b.isNan) || b.lt false a then p :: q :: t else q :: candInsert p t

/-- The selected pages of a row at position P (R247). -/
def selectedPages (y : Layer) (P : Nat) (scoreOf : Nat → Nat) : List Nat :=
  let c := P / 256
  let w0 := c + 1 - y.win
  let sinks := min y.sink w0
  let cands := (List.range (w0 - y.sink)).map (fun i => y.sink + i)
  let chosen := if cands.length ≤ y.ksel then cands
    else ((cands.foldl (fun acc i => candInsert (i, scoreOf i) acc) []).take y.ksel).map (fun x => x.1)
  (List.range (c + 1)).filter (fun i => decide (w0 ≤ i) || decide (i < sinks) || chosen.contains i)

/-! ## ATTEND (R241, R242, R246) -/

/-- The parts of an ATTEND: masks, query rows, tokens. -/
structure AttendCmd where
  h : CmdHdr
  tree : Bool
  masks : List Nat
  rows : List (List Byte)
  toks : List (List Byte)

def AttendCmd.of (y : Layer) (b : List Byte) : AttendCmd :=
  let h := CmdHdr.of b
  let tree := decide (h.kind = 1)
  let o1 := 64 + (if tree then 8 * h.rows else 0)
  let rl := y.hkv * y.gq * 129
  let o2 := o1 + h.rows * rl
  let tl := y.hkv * tokenSize y.kv4
  { h, tree
    masks := if tree then (List.range h.rows).map (fun i => numAt b (64 + 8 * i) 8) else []
    rows := (List.range h.rows).map (fun i => (b.drop (o1 + rl * i)).take rl)
    toks := (List.range h.count).map (fun i => (b.drop (o2 + tl * i)).take tl) }

/-- The token of head `h` inside the appended token. -/
def headToken (kv4 : Bool) (h : Nat) (t : List Byte) : List Byte := (t.drop (tokenSize kv4 * h)).take (tokenSize kv4)

/-- Query head `a` of a row of `n` heads: elements and exponent byte. -/
def queryHead (n a : Nat) (row : List Byte) : List Int × Nat :=
  (((row.drop (128 * a)).take 128).map (fun b => signed 8 b.toNat), byteAt row (128 * n + a))

/-- Check 5 of R246: every mask is a root-to-node chain. -/
def chainOk (masks : List Nat) : Bool :=
  (List.range masks.length).all (fun i =>
    let m := masks.getD i 0
    bit m i && decide (m < 2 ^ (i + 1)) && decide (popcount 64 m ≤ 16) &&
    (onesFrom 64 m 0).all (fun j => decide (masks.getD j 0 = m % 2 ^ (j + 1))))

/-- The first failing check of an ATTEND after FORMAT, NO_SLOT and LAYER, before any append (R246); `ds` are the directory
entries of the layer's pairs, and a check fails when one of them fails it. -/
def attendCheck (a : AttendCmd) (r : Rq) (ds : List Dir) : Option Nat :=
  if !a.tree then
    if ds.any (fun d => decide (d.fill < a.h.pos)) then some 0x04
    else if ds.any (fun d => decide (max d.fill (a.h.pos + a.h.count) ≤ a.h.pos + a.h.rows - 1)) then some 0x04
    else if 16777216 < a.h.pos + a.h.count then some 0x04
    else none
  else if !r.tree then some 0x07
  else if a.h.count ≠ 0 ∧ a.h.count ≠ a.h.rows then some 0x07
  else if ds.any (fun d => decide (d.fill ≠ a.h.pos)) then some 0x08
  else if 16777215 < a.h.pos + 15 then some 0x04
  else if !chainOk a.masks then some 0x07
  else
    let have_ (d : Dir) : Nat := if d.tbase = a.h.pos then d.tmask else 0
    if a.h.count = 0 ∧ ds.any (fun d => !(a.masks.all (fun m => decide (m &&& have_ d = m)))) then some 0x07
    else none

/-- The position of tree row `i`. -/
def nodePos (C : Nat) (masks : List Nat) (i : Nat) : Nat := C + popcount 64 (masks.getD i 0) - 1

/-- What a row attends: for each page, ascending, its attended positions, each with the tree node that holds it (none: a
stored token) (R246). -/
def rowPositions (y : Layer) (a : AttendCmd) (fill i : Nat) (pages : Option (List Nat)) :
    List (Nat × List (Nat × Option Nat)) :=
  let P := if a.tree then nodePos a.h.pos a.masks i else a.h.pos + i
  let nodes : List (Nat × Nat) := if a.tree then
      (onesFrom 64 (a.masks.getD i 0) 0).map (fun j => (nodePos a.h.pos a.masks j, j)) else []
  let lo := if y.swin = 0 then 0 else P + 1 - y.swin
  let top := if a.tree then P + 1 else min (P + 1) fill
  let which (t : Nat) : Option (Nat × Option Nat) :=
    if a.tree ∧ a.h.pos ≤ t then
      (nodes.find? (fun n => decide (n.1 = t))).map (fun n => (t, some n.2))
    else if t < fill then some (t, none) else none
  let ks := match pages with | some l => l | none => List.range (P / 256 + 1)
  ks.filterMap (fun k =>
    let ts := (List.range 256).filterMap (fun x =>
      let t := 256 * k + x
      if lo ≤ t ∧ t < top then which t else none)
    if ts = [] then none else some (k, ts))

/-- Reading one page for a command (R259): a failing status, or nothing. -/
def State.pageFails (s : State) (md slot j k fill : Nat) (stored : Bool) : Option Nat × State :=
  if stored || decide (256 * k < fill) then
    match s.readPte md slot j k with
    | (.error e, s) => (some e, s)
    | (.ok _, s) => (none, s)
  else (none, s)

/-- The first failing page of a list, with every page's reads noted. -/
def firstFail (f : Nat → State → Option Nat × State) : List Nat → State → Option Nat × State
  | [], s => (none, s)
  | k :: ks, s =>
    match f k s with
    | (some e, s) => (some e, s)
    | (none, s) => firstFail f ks s

/-- The candidate pages of a row at position `P` that are ranked: all, when there are more than KSEL (R247). -/
def rankedPages (y : Layer) (P : Nat) : List Nat :=
  let w0 := P / 256 + 1 - y.win
  if y.selected ∧ y.ksel < w0 - y.sink then (List.range (w0 - y.sink)).map (fun i => y.sink + i) else []

/-- The position of row `i` of an ATTEND. -/
def AttendCmd.posOf (a : AttendCmd) (i : Nat) : Nat := if a.tree then nodePos a.h.pos a.masks i else a.h.pos + i

/-- The selected set of a row for KV head `h`, or every page. A summary that cannot be read has NaN elements, so that its page
is selected (log entry 178). -/
def State.rowPages (s : State) (md : Nat) (y : Layer) (a : AttendCmd) (j h i : Nat) : Option (List Nat) :=
  if !y.selected then none
  else
    let n := y.hkv * y.gq
    let heads := (List.range y.gq).map (fun g => queryHead n (y.gq * h + g) (a.rows.getD i []))
    let r := s.rq md a.h.slot
    let J := s.pairCount md
    let sum (k : Nat) : List Byte :=
      let off := summaryAt r J j k
      if s.hbmBad md off 256 then (List.replicate 128 [0xC0#8, 0x7F#8]).flatten else s.readMem md off 256
    some (selectedPages y (a.posOf i) (fun k => pageScore heads (sum k)))

/-- Note the HBM outcome of the summaries that the rows of a head rank, each once per command (R228, R255, R265). -/
def State.noteSummaries (s : State) (md : Nat) (y : Layer) (a : AttendCmd) (j : Nat) (c : MdCtx) : State :=
  if s.memErr = [] then s
  else
    let r := s.rq md a.h.slot
    let J := s.pairCount md
    (((List.range a.h.rows).flatMap (fun i => rankedPages y (a.posOf i))).eraseDups).foldl (fun s k =>
      let off := summaryAt r J j k
      let bad := s.hbmBad md off 256
      let s := s.noteEcc md off 256
      if bad then s.mdErr md 10 c else s) s

/-- What a KV head of an ATTEND reads from: its number and ordinal, its fill and tree slot, and each row's pages. -/
structure HeadRead where
  q : Nat
  j : Nat
  fill : Nat
  tslot : Nat
  pages : List (Option (List Nat))

/-- One KV head of an ATTEND, computed whole by one attention unit (R635): its query heads' outputs, by row. -/
def State.attendHead (s : State) (md : Nat) (y : Layer) (a : AttendCmd) (x : HeadRead) : List (List HeadOut) :=
  let { q := h, j, fill, tslot, pages } := x
  let n := y.hkv * y.gq
  let pool := b2n y.kv4
  let tbase := s.slotAt md pool tslot
  let r := s.rq md a.h.slot
  let J := s.pairCount md
  (List.range a.h.rows).map (fun i =>
    let ps := rowPositions y a fill i (pages.getD i none)
    let read := ps.map (fun (k, ts) =>
      let p := Pte.ofBytes (s.readMem md (pteAt r J j k) 16)
      let base := s.slotAt md pool p.slot
      let (hk, hv) := s.pageScales md a.h.slot j a.h.layer h k fill
      (hk, hv, ts.map (fun (t, node) => match node with
        | some nd => ({ pos := t, tok := s.token md tbase y.kv4 nd } : Attended)
        | none => { pos := t, tok := s.token md base y.kv4 (t % 256) })))
    (List.range y.gq).map (fun g =>
      let (q, eq) := queryHead n (y.gq * h + g) (a.rows.getD i [])
      headOut y.sout (read.map (fun (hk, hv, ts) => pageTerms y.kv4 hk hv y.csc eq q ts))))

/-- Note the HBM outcome of every token that some row of a head attends, once per command (R255, R259). -/
def State.noteHead (s : State) (md : Nat) (y : Layer) (a : AttendCmd) (x : HeadRead) (c : MdCtx) : State :=
  if s.memErr = [] then s
  else
    let { q := _, j, fill, tslot, pages } := x
    let all := (List.range a.h.rows).flatMap (fun i =>
      (rowPositions y a fill i (pages.getD i none)).flatMap (fun p => p.2))
    let pool := b2n y.kv4
    let r := s.rq md a.h.slot
    let J := s.pairCount md
    all.eraseDups.foldl (fun s (t, node) =>
      match node with
      | some nd => s.noteToken md (s.slotAt md pool tslot) y.kv4 nd c
      | none =>
        let p := Pte.ofBytes (s.readMem md (pteAt r J j (t / 256)) 16)
        s.noteToken md (s.slotAt md pool p.slot) y.kv4 (t % 256) c) s

/-- Record a head's flags, counts and health events (R252, R253, R319, R635). -/
def State.noteUnit (s : State) (md unit layer : Nat) (os : List HeadOut) : State :=
  os.foldl (fun s o =>
    let s := s.orReg md .mdaFflags o.fl.toNat unit
    let s := if o.empty then s.addFld md .mdaAucnt 15 0 1 unit else s
    let s := if o.nan then s.addFld md .mdaAucnt 31 16 1 unit else s
    let s := if o.block.poison then s.addFld md .mdaQhl 63 48 1 layer else s
    let s := if o.block.expHigh then s.addFld md .mdaQhl 31 16 1 layer else s
    if o.block.expLow then s.addFld md .mdaQhl 15 0 1 layer else s) s

/-- The output row of a list of blocks: elements, then exponent bytes (R29). -/
def rowBytes (os : List HeadOut) : List Byte :=
  os.flatMap (fun o => toBytes 128 (blockBytes false o.block)) ++ os.map (fun o => BitVec.ofNat 8 o.block.e)

/-- The appends of an ATTEND, in token order then head order. -/
def State.attendAppends (s : State) (md : Nat) (y : Layer) (a : AttendCmd) (j0 : Nat) (c : MdCtx) :
    Except (Nat × State) State :=
  let steps := (List.range (a.h.count * y.hkv)).map (fun n => (n / y.hkv, n % y.hkv))
  -- a new tree sets TBASE and empties TMASK first (R246)
  let s := if a.tree ∧ a.h.count ≠ 0 then
      (List.range y.hkv).foldl (fun s h =>
        match s.readDir md a.h.slot (j0 + h) with
        | (some d, s) => if d.tbase = a.h.pos then s else s.writeDir md a.h.slot (j0 + h) { d with tbase := a.h.pos, tmask := 0 }
        | (none, s) => s) s
    else s
  appendAll (fun n s =>
    let (i, h) := steps.getD n (0, 0)
    let tok := headToken y.kv4 h (a.toks.getD i [])
    if a.tree then s.appendNode md a.h.slot a.h.layer (j0 + h) i tok c
    else s.append md a.h.slot a.h.layer h (j0 + h) (a.h.pos + i) tok c) (List.range steps.length) s

/-- ATTEND of command bytes `b`; `units` names the attention unit of each KV head (R635, log entry 52), `cc` the cycles
from its taking to its last row (R623). -/
def State.attend (s : State) (md : Nat) (cmd : MdCmd) (units : List Nat) (cc : Nat) : State :=
  let b := cmd.bytes
  let h := CmdHdr.of b
  let sd := cmd.sender.sdie
  let y := s.layer md h.layer
  let r := s.rq md h.slot
  let c : MdCtx := { op := 1, slot := h.slot, layer := h.layer, sender := sd }
  if !headerOk b then s.failCmd md sd b 0x01 0
  else if !r.valid then s.failCmd md sd b 0x02 0
  else if !y.valid ∨ s.cmdLen md b ≠ .bytes b.length then s.failCmd md sd b 0x09 0
  else
    let a := AttendCmd.of y b
    let j0 := s.ordinal md h.layer
    let fillOf (s : State) (q : Nat) : Nat := (Dir.ofBytes (s.readMem md (dirAt r (j0 + q)) 32)).fill
    let fill0 (s : State) : Nat := if s.hbmBad md (dirAt r j0) 32 then 0 else fillOf s 0
    match s.readDirs md h.slot ((List.range y.hkv).map (j0 + ·)) with
    | (none, s) => s.failCmd md sd b 0x0B (fill0 s)
    | (some ds, s) =>
      match attendCheck a r ds with
      | some e => s.failCmd md sd b e (fill0 s)
      | none =>
        match s.attendAppends md y a j0 c with
        | .error (e, s) => s.failCmd md sd b e (fill0 s)
        | .ok s =>
          -- each KV head has its own fill and tree slot, and each row of it its own pages
          let heads := ds.zipIdx.map (fun (d, q) =>
            ({ q, j := j0 + q, fill := fillOf s q, tslot := d.tslot
               pages := (List.range h.rows).map (fun i => s.rowPages md y a (j0 + q) q i) } : HeadRead))
          let s := heads.foldl (fun s x => s.noteSummaries md y a x.j c) s
          -- every page that some row attends must be readable and the request's own
          let checks := heads.flatMap (fun x =>
            ((List.range h.rows).flatMap (fun i => (rowPositions y a x.fill i (x.pages.getD i none)).map (fun p =>
              (x.j, x.fill, p.1, p.2.any (fun t => t.2.isNone))))).eraseDups)
          match firstFail (fun n s =>
              let (j, fill, k, stored) := checks.getD n (0, 0, 0, false)
              s.pageFails md h.slot j k fill stored) (List.range checks.length) s with
          | (some e, s) => s.failCmd md sd b e (fill0 s)
          | (none, s) =>
            let outs := heads.map (fun x => (x.q, s.attendHead md y a x))
            let s := heads.foldl (fun s x => s.noteHead md y a x c) s
            let s := outs.foldl (fun s (q, os) => s.noteUnit md (units.getD q 0 % 16) h.layer os.flatten) s
            let s := s.cmdEvent md h 0 sd
            let s := s.sample md 4 (cc : Int) (some h.layer) (some r.ctx)
            (List.range h.rows).foldl (fun s i =>
              let os := outs.flatMap (fun x => x.2.getD i [])
              s.postVector md h.rdie (h.rgroup + i) (emaxOf (os.map (fun o => BitVec.ofNat 8 o.block.e))) (rowBytes os) false h.slot) s

/-! ## COMMIT (R244) -/

/-- Whether positions from `C` on of pair `j` hold the bytes of the tree nodes: each page is read through its entry, with the
checks of R259. -/
def State.sameBytes (s : State) (md slot L j C tslot : Nat) (c : MdCtx) : List (Nat × Nat) → Except Nat Bool × State
  | [] => (.ok true, s)
  | (d, node) :: rest =>
    let kv4 := (s.layer md L).kv4
    let t := C + d
    match s.readPte md slot j (t / 256) with
    | (.error e, s) => (.error e, s)
    | (.ok p, s) =>
      let at_ := s.slotAt md (b2n kv4) p.slot
      let tree := s.slotAt md (b2n kv4) tslot
      let same := decide (s.token md at_ kv4 (t % 256) = s.token md tree kv4 node)
      let s := (s.noteToken md at_ kv4 (t % 256) c).noteToken md tree kv4 node c
      if same then s.sameBytes md slot L j C tslot c rest else (.ok false, s)

/-- Whether pair `j` accepts a COMMIT: a status, or its directory entry (R244, R259). -/
def State.commitCheck (s : State) (md slot L j C : Nat) (nodes : List Nat) (c : MdCtx) : Except Nat Dir × State :=
  match s.readDir md slot j with
  | (none, s) => (.error 0x0B, s)
  | (some d, s) =>
    if d.tbase ≠ C ∨ !(nodes.all (fun n => bit d.tmask n)) then (.error 0x08, s)
    else if d.fill = C then (.ok d, s)
    else if d.fill ≠ C + nodes.length then (.error 0x08, s)
    else
      match s.sameBytes md slot L j C d.tslot c (nodes.zipIdx.map (fun x => (x.2, x.1))) with
      | (.error e, s) => (.error e, s)
      | (.ok true, s) => (.ok d, s)
      | (.ok false, s) => (.error 0x08, s)

/-- All pairs accept, or the first failing status. -/
def State.commitChecks (s : State) (md slot C : Nat) (nodes : List Nat) (c : MdCtx) : List (Nat × Nat × Nat) → Option Nat × State
  | [] => (none, s)
  | (L, _, j) :: ps =>
    match s.commitCheck md slot L j C nodes c with
    | (.error e, s) => (some e, s)
    | (.ok _, s) => s.commitChecks md slot C nodes c ps

def State.commitCmd (s : State) (md : Nat) (cmd : MdCmd) : State :=
  let b := cmd.bytes
  let h := CmdHdr.of b
  let sd := cmd.sender.sdie
  let nodes := (List.range h.count).map (fun d => byteAt b (16 + d))
  let fill0 (s : State) : Nat := s.fill0 md h.slot
  let c : MdCtx := { op := 2, slot := h.slot, sender := sd }
  if !headerOk b then s.failCmd md sd b 0x01 0
  else if !(s.rq md h.slot).valid then s.failCmd md sd b 0x02 0
  else if h.count = 0 then s.doneCmd md sd h (fill0 s)
  else
    let ps := s.pairs md
    match s.commitChecks md h.slot h.pos nodes c ps with
    | (some e, s) => s.failCmd md sd b e (fill0 s)
    | (none, s) =>
      let steps := ps.flatMap (fun p => (List.range nodes.length).map (fun d => (p, d)))
      match appendAll (fun n s =>
          let ((L, hd, j), d) := steps.getD n ((0, 0, 0), 0)
          let kv4 := (s.layer md L).kv4
          let dir := Dir.ofBytes (s.readMem md (dirAt (s.rq md h.slot) j) 32)
          let base := s.slotAt md (b2n kv4) dir.tslot
          let tok := s.token md base kv4 (nodes.getD d 0)
          let s := s.noteToken md base kv4 (nodes.getD d 0) c
          s.append md h.slot L hd j (h.pos + d) tok c) (List.range steps.length) s with
      | .error (e, s) => s.failCmd md sd b e (fill0 s)
      | .ok s => s.doneCmd md sd h (fill0 s)

/-! ## RQ_OPEN and RQ_RELEASE (R243) -/

def State.rqOpen (s : State) (md : Nat) (cmd : MdCmd) : State :=
  let b := cmd.bytes
  let h := CmdHdr.of b
  let sd := cmd.sender.sdie
  let tree := bit (byteAt b 1) 7
  let ctx := numAt b 16 2
  let np := numAt b 18 2 + 1
  let pt := numAt b 20 6
  let r8 := numAt b 26 3
  let r4 := numAt b 29 3
  let J := s.pairCount md
  let ps := s.pairs md
  let need (pool : Nat) : Nat := (ps.filter (fun p => decide (b2n (s.layer md p.1).kv4 = pool))).length
  let free (pool : Nat) : Nat := s.fld md .mdaPool 21 0 pool - s.fld md .mdaRsv 21 0 pool
  if !headerOk b then s.failCmd md sd b 0x01 0
  else if (s.rq md h.slot).valid then
    let (_, s) := s.readDir md h.slot 0
    s.failCmd md sd b 0x0D (s.fill0 md h.slot)
  else if !insideRegion (s.region md 1) pt (J * (32 + 272 * np)) then s.failCmd md sd b 0x0A 0
  else if free 0 < r8 ∨ free 1 < r4 ∨ (tree ∧ (r8 < need 0 ∨ r4 < need 1)) then s.failCmd md sd b 0x0C 0
  else
    let s := s.setReg md .mdaRqt (2 ^ 63 + b2n tree <<< 62 + ctx <<< 52 + (np - 1) <<< 36) h.slot 0
    let s := s.setReg md .mdaRqt pt h.slot 1
    let s := s.setReg md .mdaRqt (r4 <<< 32 + r8) h.slot 2
    let s := s.setReg md .mdaRsv (s.reg md .mdaRsv 0 + r8) 0
    let s := s.setReg md .mdaRsv (s.reg md .mdaRsv 1 + r4) 1
    let s := ps.foldl (fun s p =>
      let pool := b2n (s.layer md p.1).kv4
      if tree then
        match s.takeSlot md pool h.slot with
        | some (n, s) =>
          (s.chargeResv md h.slot pool).writeDir md h.slot p.2.2 { tbase := 0, fill := 0, tmask := 0, tsv := true, tslot := n }
        | none => s
      else s.writeDir md h.slot p.2.2 { tbase := 0, fill := 0, tmask := 0, tsv := false, tslot := 0 }) s
    s.doneCmd md sd h 0

def State.rqRelease (s : State) (md : Nat) (cmd : MdCmd) : State :=
  let b := cmd.bytes
  let h := CmdHdr.of b
  let sd := cmd.sender.sdie
  if !headerOk b then s.failCmd md sd b 0x01 0
  else if !(s.rq md h.slot).valid then s.failCmd md sd b 0x02 0
  else
    let m := s.md md
    let s := s.setMd md { m with pages := m.pages.filter (fun p => decide (p.2 ≠ h.slot + 1)) }
    let s := (s.loadPool md 0).loadPool md 1
    let s := s.setReg md .mdaRsv (s.reg md .mdaRsv 0 - s.resv md h.slot 0) 0
    let s := s.setReg md .mdaRsv (s.reg md .mdaRsv 1 - s.resv md h.slot 1) 1
    let s := (List.range 4).foldl (fun s j => s.setReg md .mdaRqt 0 h.slot j) s
    s.doneCmd md sd h 0

/-! ## GATHER (R245) -/

def State.gather (s : State) (md : Nat) (cmd : MdCmd) : State :=
  let b := cmd.bytes
  let h := CmdHdr.of b
  let sd := cmd.sender.sdie
  let c : MdCtx := { op := 5, slot := h.slot, layer := h.layer, sender := sd }
  let base := numAt b 16 8
  let L := numAt b 24 4
  let tail := ceilDiv L 129
  let idx (r : Nat) : Nat := numAt b (64 + 4 * r) 4
  if !headerOk b then s.failCmd md sd b 0x01 0
  else
    match s.region md 4 with
    | none =>
      let s := (List.range h.rows).foldl (fun s _ =>
        s.postVector md h.rdie h.rgroup 0 (List.replicate (L - tail) 0#8 ++ List.replicate tail 0xFF#8) false h.slot) s
      s.failCmd md sd b 0x0A 0
    | some (rb, rz) =>
      let off (r : Nat) : Nat := rb + base + L * idx r
      if !((List.range h.rows).all (fun r => insideRegion (some (rb, rz)) (off r) L)) then
        let s := (List.range h.rows).foldl (fun s _ =>
          s.postVector md h.rdie h.rgroup 0 (List.replicate (L - tail) 0#8 ++ List.replicate tail 0xFF#8) false h.slot) s
        s.failCmd md sd b 0x0A 0
      else
        (List.range h.rows).foldl (fun (s : State) r =>
          let (bs, bad, s) := s.hbmRead md (off r) L
          if bad then
            let s := s.mdErr md 10 c
            s.postVector md h.rdie h.rgroup 0 (bs.take (L - tail) ++ List.replicate tail 0xFF#8) true h.slot
          else s.postVector md h.rdie h.rgroup (emaxOf (bs.drop (L - tail))) bs false h.slot) (s.cmdEvent md h 0 sd)

/-! ## Writes of a layer-table entry (R270) -/

/-- A positive normal FP16 value. -/
def fp16Normal (x : Nat) : Bool := decide (0x0400 ≤ x) && decide (x ≤ 0x7BFF)

/-- Whether the entry `w` (16 words) may not be written at L (R270). The zero entry, which every switch writes first, may be
(R434). -/
def State.ltabRefused (s : State) (md L : Nat) (w : Nat → Nat) : Bool :=
  let w0 := w 0
  let hkv := bits w0 60 56
  let gq := bits w0 55 49
  let scale (h : Nat) : Nat := (w (8 + h / 2)) >>> (32 * (h % 2))
  (List.range 16384).any (fun n => bit (s.reg md .mdaRqt n 0) 63) ||
  ((List.range 16).any (fun i => decide (w i ≠ 0)) &&
    (decide (bits w0 21 0 ≠ 0) || decide (bits (w 2) 63 25 ≠ 0) || (List.range 5).any (fun i => decide (w (3 + i) ≠ 0)) ||
     decide (hkv = 0) || decide (16 < hkv) || decide (gq = 0) || decide (64 < hkv * gq) ||
     (bit w0 61 && (decide (bits w0 48 43 < 2) || decide (32 < bits w0 48 43) || decide (4 < bits w0 42 40))) ||
     (s.layers md).any (fun K => decide (K ≠ L) && decide ((s.layer md K).lslot = bits w0 29 22)) ||
     (bit w0 62 && (List.range hkv).any (fun h => !fp16Normal (scale h % 65536) || !fp16Normal (scale h / 65536 % 65536)))))

/-- Write words `word`, `word` + 1, … of an entry: one word, or the entry whole; anything else is an access error. -/
def State.ltabWrite (s : State) (md L word : Nat) (ws : List Word64) : State :=
  let new (i : Nat) : Nat :=
    if word ≤ i then (match ws[i - word]? with | some v => v.toNat | none => s.reg md .mdaLtab L i) else s.reg md .mdaLtab L i
  if !((ws.length = 1 && decide (word < 16)) || (ws.length = 16 && decide (word = 0))) then s.accessError
  else if s.ltabRefused md L new then s.accessError
  else
    let vals := (List.range 16).map new
    ((List.range 16).foldl (fun s i => s.setReg md .mdaLtab (vals.getD i 0) L i) s).respond 0

/-! ## Rows -/

/-- A command of one memory die (R10). -/
def onMdCmd (md : Nat) (s : State) (f : State → State) : Out :=
  if 32 ≤ md ∧ md < 36 then .next (f s) else .fault .noSuchUnit

/-- Perform taken command `n` when it is of the opcode and its turn has come. -/
def State.runCmd (s : State) (md n op : Nat) (f : State → MdCmd → State) : State :=
  match s.takeCmd md n op with
  | some (c, s) => f s c
  | none => s

def execAttend (md n : Nat) (units : List Nat) (cc : Nat) (s : State) : Out :=
  onMdCmd md s (fun s => s.runCmd md n 1 (fun s c => s.attend md c units cc))
def execCommit (md n : Nat) (s : State) : Out := onMdCmd md s (fun s => s.runCmd md n 2 (fun s c => s.commitCmd md c))
def execRqOpen (md n : Nat) (s : State) : Out := onMdCmd md s (fun s => s.runCmd md n 3 (fun s c => s.rqOpen md c))
def execRqRelease (md n : Nat) (s : State) : Out := onMdCmd md s (fun s => s.runCmd md n 4 (fun s c => s.rqRelease md c))
def execGather (md n : Nat) (s : State) : Out := onMdCmd md s (fun s => s.runCmd md n 5 (fun s c => s.gather md c))

def execLtabWrite (md L word : Nat) (ws : List Word64) (s : State) : Out :=
  if L < 4096 then onMdCmd md s (fun s => s.ltabWrite md L word ws) else .fault .noSuchUnit

/-- MDA_LOCK: setting MDA_CTL.LOCK (R262). -/
def execMdaLock (md : Nat) (s : State) : Out := onMdCmd md s (fun s => s.setFld md .mdaCtl 31 31 1)

end Sys2Proof.Machine
end

