-- ==== Sys2Proof/Machine/HostQ.lean ====
section
/-!
DEFINITION. Host-port basics that every later part uses: who makes an access, access errors and isolation events,
completions, events to the host (R411, R415, R421, R431, R448, R454).
-/

namespace Sys2Proof

/-- A function ID (R411). -/
def fnId (port f : Nat) : Nat := 1024 * port + f
def fnPort (fn : Nat) : Nat := fn / 1024
def fnNo (fn : Nat) : Nat := fn % 1024

/-- The function ID of an accessing function; none for firmware and the BMC. -/
def Who.fn? : Who → Option Nat
  | .pf p => some (fnId p 0)
  | .vf p f => some (fnId p f)
  | _ => none

/-- The code by which SEM_n and SEC_ISO name a requester (R411). -/
def Who.code : Who → Nat
  | .firmware => 0x7FF
  | .bmc => 0x3FF
  | .jtag => 0x3FF
  | .pf p => fnId p 0
  | .vf p f => fnId p f

/-- Whether an access is in view P (R413). -/
def Who.priv : Who → Bool
  | .vf _ _ => false
  | _ => true

/-- The die from which an access enters the package (R10, R410). -/
def Who.die : Who → Nat
  | .pf p => 38 + p
  | .vf p _ => 38 + p
  | _ => 38

end Sys2Proof

namespace Sys2Proof.Machine

/-- The context bound to VF `f` of a port (R441). -/
def State.vfCtx (s : State) (port f : Nat) : Nat := s.fld (38 + port) .cmdVfctx 9 0 (f - 1)

/-- The context of an accessor; none in view P. -/
def State.whoCtx (s : State) : Who → Option Nat
  | .vf p f => some (s.vfCtx p f)
  | _ => none

/-! ## Completions (R421, R435) -/

def State.pair (s : State) (fn q : Nat) : Pair := Tab.get {} s.host.pairs (64 * fn + q)
def State.setPair (s : State) (fn q : Nat) (p : Pair) : State :=
  { s with host := { s.host with pairs := Tab.set {} s.host.pairs (64 * fn + q) p } }

/-- CMD_QCFG of a pair, and its STATE: 0 DISABLED, 1 ACTIVE, 2 ERROR, 3 DRAINING. -/
def State.qcfg (s : State) (fn q : Nat) : Nat := s.reg (38 + fnPort fn) .cmdQcfg (fnNo fn) q
def State.qstate (s : State) (fn q : Nat) : Nat := bits (s.qcfg fn q) 29 28
def State.setQstate (s : State) (fn q st : Nat) : State :=
  s.setFld (38 + fnPort fn) .cmdQcfg 29 28 st (fnNo fn) q
def State.sqSize (s : State) (fn q : Nat) : Nat := 2 ^ bits (s.qcfg fn q) 7 4
def State.cqSize (s : State) (fn q : Nat) : Nat := 2 ^ bits (s.qcfg fn q) 3 0
/-- The pair carries CP1 entries. -/
def State.isCp1 (s : State) (fn q : Nat) : Bool := bit (s.qcfg fn q) 30
def State.entrySize (s : State) (fn q : Nat) : Nat := if s.isCp1 fn q then 64 else 128

/-- Something leaves for a host. -/
def State.toHost (s : State) (o : HostOut) : State := { s with host := { s.host with out := s.host.out ++ [o] } }
def State.hostWrite (s : State) (fn addr : Nat) (bs : List Byte) : State := s.toHost (.write (fnPort fn) addr bs)

/-- The CP1 status and result of a CP2 status and result (R435). -/
def cp1Status (status result : Nat) : Nat × Nat :=
  match status with
  | 0 => (0, result)
  | 1 => (1, result)
  | 2 => (2, result)
  | 3 | 4 => (3, 0)
  | _ => (4, status)

/-- A pair in DRAINING with no command left becomes DISABLED (R422). -/
def State.drainedPair (s : State) (fn q : Nat) : State :=
  if s.qstate fn q = 3 ∧ (s.pair fn q).cmds = [] then s.setQstate fn q 0 else s

/-- Complete command `id` of a pair: its CQ entry, and an interrupt when IE is set (R421). -/
def State.complete (s : State) (fn q id status result : Nat) : State :=
  let p := s.pair fn q
  match p.cmds.find? (fun c => decide (c.id = id)) with
  | none => s
  | some c =>
    let b := c.bytes.getD []
    let cfg := s.qcfg fn q
    let (st, res) := if s.isCp1 fn q then cp1Status status result else (status, result)
    let n := s.cqSize fn q
    let phase := 1 - p.posted / n % 2
    let cq := bits (s.reg (38 + fnPort fn) .cmdCqb (fnNo fn) q) 63 12 * 4096 + 16 * (p.posted % n)
    let bytes := toBytes 8 res ++ toBytes 2 q ++ toBytes 2 ((id + 1) % s.sqSize fn q) ++ toBytes 2 (numAt b 2 2) ++
      toBytes 1 st ++ toBytes 1 phase
    let s := s.hostWrite fn cq bytes
    let s := s.setPair fn q { p with posted := p.posted + 1, cmds := p.cmds.filter (fun x => decide (x.id ≠ id)) }
    let s := s.setFld (38 + fnPort fn) .cmdQstat 11 0 ((p.posted + 1) % n) (fnNo fn) q
    let s := if bit cfg 15 then s.toHost (.msix fn (bits cfg 27 16)) else s
    let s := s.ring (38 + fnPort fn) (.unit 2) 0x13 (byteAt b 0 + status <<< 8 + numAt b 2 2 <<< 16 + (fnNo fn) <<< 32)
    s.drainedPair fn q

/-! ## Events (R431) -/

/-- An event for a function: the oldest waiting EVENT_WAIT completes, else it is held pending. -/
def State.event (s : State) (fn kind detail : Nat) (count : Nat := 1) : State :=
  match s.host.waits.find? (fun w => decide (w.1 = fn)) with
  | some (f, q, id) =>
    let s := { s with host := { s.host with waits := s.host.waits.filter (fun w => w ≠ (f, q, id)) } }
    s.complete f q id 0 (kind + (min count 0xFFFF) <<< 8 + detail <<< 32)
  | none =>
    let k := 8 * fn + kind
    let (n, _) := Tab.get (0, 0) s.host.events k
    { s with host := { s.host with events := Tab.set (0, 0) s.host.events k (n + count, detail) } }

/-- An event for both physical functions. -/
def State.eventBoth (s : State) (kind detail : Nat) : State := (s.event (fnId 0 0) kind detail).event (fnId 1 0) kind detail

/-- ALERT_N is asserted for cause `b` of RAS_ALERTC, and both hosts hear of it (R431, R588). -/
def State.alertHost (s : State) (b : Nat) : State := (s.alert b).eventBoth 3 0

/-! ## Access errors and isolation events (R415, R448, R454) -/

/-- Record an error in CMD_AERR and CMD_AERRA of a function. -/
def State.aerr (s : State) (fn code addr : Nat) (iso : Bool) : State :=
  let d := 38 + fnPort fn
  let f := fnNo fn
  let s := s.addFld d .cmdAerr 47 32 1 f
  if s.fld d .cmdAerr 63 63 f = 1 then s
  else
    let s := ((s.setFld d .cmdAerr 63 63 1 f).setFld d .cmdAerr 62 62 (b2n iso) f).setFld d .cmdAerr 61 58 code f
    s.setReg d .cmdAerra addr f

/-- An isolation event of a virtual function: SEC_ISO, CMD_AERR, the ISOLATION event (R454). -/
def State.isolation (s : State) (who : Who) (addr : Nat) : State :=
  let fn := who.code
  let s := s.addFld 38 .secIso 15 0 1
  let s := if s.fld 38 .secIso 63 63 = 1 then s
    else ((s.setFld 38 .secIso 63 63 1).setFld 38 .secIso 51 41 fn).setFld 38 .secIso 40 31 ((s.whoCtx who).getD 0)
  (s.aerr fn 2 addr true).event fn 4 0

/-- An MMIO access that a rule refuses: it completes, reads zero, and is recorded (R415). -/
def State.mmioError (s : State) (who : Who) (code addr : Nat) : State :=
  let s := match who.fn? with
    | some fn => s.aerr fn code addr false
    | none => s
  s.respond code

end Sys2Proof.Machine
end

