-- ==== Sys2Proof/Machine/Serving.lean ====
section
/-!
DEFINITION. The serving engine: slots, admission, the queue, injections, drafts, output, acknowledgement, the end of a
request (R272 to R285, R291 to R301, R309, R430, R455 to R457).
-/

namespace Sys2Proof.Machine

/-! ## Slots -/

def State.slot (s : State) (k : Nat) : SlotSt := Tab.get {} s.srv.slots k
def State.setSlot (s : State) (k : Nat) (x : SlotSt) : State :=
  { s with srv := { s.srv with slots := Tab.set {} s.srv.slots k x } }
def State.updSlot (s : State) (k : Nat) (f : SlotSt → SlotSt) : State := s.setSlot k (f (s.slot k))

/-- State codes of R274. -/
def State.sstate (s : State) (k : Nat) : Nat := s.fld 38 .srvSlot0 63 61 k
def State.sctx (s : State) (k : Nat) : Nat := s.fld 38 .srvSlot0 60 51 k
def State.spos (s : State) (k : Nat) : Nat := s.fld 38 .srvSlot0 23 0 k
def State.generated (s : State) (k : Nat) : Nat := s.fld 38 .srvSlot1 47 24 k
def State.ackedOf (s : State) (k : Nat) : Nat := s.fld 38 .srvSlot1 23 0 k

/-- Whether a state code counts as open for a quota (R455). -/
def openState (st : Nat) : Bool := decide (1 ≤ st) && decide (st ≤ 6)

/-- Change a slot's state: INUSE of its context and the STATE event follow (R458, R619). -/
def State.setSstate (s : State) (k st : Nat) : State :=
  let was := s.sstate k
  let c := s.sctx k
  let s := s.setFld 38 .srvSlot0 63 61 st k
  let s := if st = 0 then s.freeCopies k else s
  let s := if openState st && !openState was then s.addFld 38 .secQuotaa 14 0 1 c
    else if openState was && !openState st then s.setFld 38 .secQuotaa 14 0 (s.fld 38 .secQuotaa 14 0 c - 1) c else s
  s.ring 38 (.unit 0) 0x01 (k + st <<< 16 + s.fld 38 .srvSlot0 50 43 k <<< 19)

def State.setReason (s : State) (k r : Nat) : State := s.setFld 38 .srvSlot0 50 43 r k

/-- The listed slots, ascending: every slot that was ever allocated. -/
def State.slotList (s : State) : List Nat := s.srv.slots.map (fun e => e.1)

/-- The lowest-numbered FREE slot (R275). -/
def State.freeSlot (s : State) : Option Nat := (List.range 16384).find? (fun k => decide (s.sstate k = 0))

/-! ## The parameter block (R273) -/

def SlotSt.seed (x : SlotSt) : Nat := numAt x.block 0 8
def SlotSt.plen (x : SlotSt) : Nat := numAt x.block 8 4
def SlotSt.maxnew (x : SlotSt) : Nat := numAt x.block 12 4
def SlotSt.topk (x : SlotSt) : Nat := numAt x.block 16 2
def SlotSt.flag (x : SlotSt) (i : Nat) : Bool := bit (byteAt x.block 18) i
def SlotSt.invt2 (x : SlotSt) : Nat := numAt x.block 20 4
def SlotSt.topp (x : SlotSt) : Nat := numAt x.block 24 4
def SlotSt.minp (x : SlotSt) : Nat := numAt x.block 28 4
def SlotSt.ceil (x : SlotSt) : Nat := numAt x.block 32 4
def SlotSt.outmax (x : SlotSt) : Nat := numAt x.block 36 2
def SlotSt.stop (x : SlotSt) (i : Nat) : Nat := numAt x.block (40 + 4 * i) 4
def SlotSt.paddr (x : SlotSt) : Nat := numAt x.block 56 8
def SlotSt.pages (x : SlotSt) : Nat := ceilDiv (x.plen + x.maxnew) 256

/-- The vocabulary size V (R308). -/
def State.vocab (s : State) : Nat := s.fld 38 .smpCfg 17 0 + 1

/-- Whether a block passes PARAM (R273). -/
def State.paramOk (s : State) (x : SlotSt) : Bool :=
  let f := v32 x.topp
  let m := v32 x.minp
  let one : FVal := .fin false 1 0
  let zero : FVal := .fin false 0 0
  decide (1 ≤ x.plen) && decide (x.plen < 2 ^ 24) && decide (1 ≤ x.maxnew) && decide (x.maxnew < 2 ^ 24) &&
  decide (1 ≤ x.topk) && decide (x.topk ≤ 1024) && decide (byteAt x.block 18 < 16) && decide (byteAt x.block 19 = 0) &&
  decide (0x00800000 ≤ x.invt2) && decide (x.invt2 ≤ 0x7F7FFFFF) &&
  zero.lt false f && !(one.lt false f) && !f.isNan && !(m.lt false zero) && m.lt false one &&
  decide ((if x.flag 1 then 16 else 1) ≤ x.outmax) && decide (x.outmax ≤ 4096) && decide (numAt x.block 38 2 = 0) &&
  (List.range 4).all (fun i => decide (x.stop i = 0xFFFFFFFF) || decide (x.stop i < s.vocab)) &&
  decide (x.paddr % 4 = 0)

/-! ## Admission checks (R278 to R280, R301, R455) -/

/-- The pairs of a memory die whose layer uses a pool. -/
def State.pairsOf (s : State) (md pool : Nat) : Nat :=
  (s.layers md).foldl (fun a L => let y := s.layer md L; if b2n y.kv4 = pool then a + y.hkv else a) 0

/-- The reservation of a request on a memory die in a pool (R279). -/
def State.resOf (s : State) (x : SlotSt) (md pool : Nat) : Nat :=
  let j := s.pairsOf md pool
  x.pages * j + (if x.flag 1 then j else 0)

def mdIds : List Nat := [32, 33, 34, 35]

/-- The table area fits under TSZ on every die (R279). -/
def State.areaFits (s : State) (x : SlotSt) : Bool :=
  mdIds.all (fun d => decide (s.pairCount d * (32 + 272 * x.pages) ≤ s.fld 38 .srvCfg 63 48 * 65536))

/-- The reservations fit into what is free and not reserved, or, for `total`, into the pools (R278, R279). -/
def State.kvFits (s : State) (x : SlotSt) (total : Bool) : Bool :=
  mdIds.all (fun d => [0, 1].all (fun p =>
    let room := if total then s.fld d .mdaPool 53 32 p else s.fld d .mdaPool 21 0 p - s.fld d .mdaRsv 21 0 p
    decide (s.resOf x d p ≤ room)))

/-- Loop cost and bottleneck cost of a request (R280). -/
def State.loopCost (s : State) (x : SlotSt) : Nat :=
  s.fld 38 .srvCosta 31 0 + s.fld 38 .srvCosta 63 32 * x.pages
def State.neckCost (s : State) (x : SlotSt) : Nat :=
  s.fld 38 .srvCostb 31 0 + s.fld 38 .srvCostb 63 32 * x.pages

/-- The admitted set: slots from OPENING to ENDING (log entry 62). -/
def State.admitted (s : State) : List Nat :=
  s.slotList.filter (fun k => decide (1 ≤ s.sstate k) && decide (s.sstate k ≤ 5))

/-- The request fails TIME even alone (R280). -/
def State.timeAlone (s : State) (x : SlotSt) : Bool :=
  decide (x.ceil ≠ 0) && (decide (1600 * x.ceil < s.loopCost x) || decide (1600 * x.ceil < s.neckCost x))

/-- TIME passes for the request beside the admitted set (R280, R301). -/
def State.timeFits (s : State) (x : SlotSt) : Bool :=
  let all := x :: (s.admitted.map (fun k => s.slot k))
  let neck := all.foldl (fun a r => a + s.neckCost r) 0
  let pred := max (all.foldl (fun a r => max a (s.loopCost r)) 0) neck
  all.all (fun r => decide (r.ceil = 0) || decide (pred ≤ 1600 * r.ceil)) &&
  (!x.cp1 || decide (ceilDiv x.plen (s.fld 38 .srvCfg 5 0 + 1) * max (s.loopCost x) neck ≤ 1600 * x.deadline))

/-- QUOTA passes for a request of context `c` (R455). -/
def State.quotaFits (s : State) (x : SlotSt) (c : Nat) : Bool :=
  let open_ := s.slotList.filter (fun k => decide (s.sctx k = c) && openState (s.sstate k))
  s.fld 38 .secQuotaa 63 63 c = 1 &&
  decide (s.fld 38 .secQuotaa 14 0 c + 1 ≤ s.fld 38 .secQuotaa 46 32 c) &&
  mdIds.all (fun d => [0, 1].all (fun p =>
    let used := open_.foldl (fun a k => a + s.resv d k p) 0
    decide (used + s.resOf x d p ≤ (if p = 0 then s.fld 38 .secQuotab 21 0 c else s.fld 38 .secQuotab 53 32 c))))

/-- A weight-set switch is pending: its state is not IDLE (R394, R399). -/
def State.switchPending (s : State) : Bool := decide (s.fld 38 .wgtSwstat 31 29 ≠ 0)

/-- The first failing check of QUOTA, KV and TIME after CONFIG, as a REASON code (R277, R278). -/
def State.waitChecks (s : State) (x : SlotSt) (c : Nat) : Option Nat :=
  if s.switchPending then some 0x04
  else if !s.quotaFits x c then some 0x05
  else if !(s.areaFits x && s.kvFits x false) then some 0x06
  else if !s.timeFits x then some 0x07
  else none

/-! ## Commands to the memory dies -/

/-- Where the serving engine takes completion records: an address of the model's own, since the spec names none (log
entry 63). -/
def recordOff : Nat := 0x3F0050F00000

/-- The CADDR of the serving engine's commands. -/
def State.recordAddr (s : State) : Nat := s.pkgId 38 * 2 ^ 52 + pkgAddr s.servingDie recordOff

/-- The lengths of the writes that carry `n` bytes into a command window (R347). -/
def windowPieces : Nat → Nat → Nat → List (Nat × Nat)
  | 0, _, _ => []
  | f + 1, off, n =>
    if n = 0 then []
    else
      let k := if 64 ≤ n ∧ off % 64 = 0 then 64 else if 8 ≤ n then 8 else 4
      (off, k) :: windowPieces f (off + k) (n - k)

/-- Send a command to a memory die's window as writes of the serving engine (R239, R364). -/
def State.sendCmd (s : State) (md : Nat) (bs : List Byte) : State :=
  (windowPieces (bs.length + 1) 0 bs.length).foldl (fun s p =>
    let m : Msg := { type := 2, priv := true, dpkg := s.pkgId 38, ddie := md, addr := 0x3F0044000000 + p.1, len := p.2,
                     data := (bs.drop p.1).take p.2, slot := numAt bs 2 2 % 16384 }
    s.requestWait s.servingDie 3 .quiet m) s

/-- A command header (R241). -/
def cmdHeader (op b1 slot layer count pos rgroup rdie : Nat) (mid : List Byte) (caddr : Nat) : List Byte :=
  toBytes 1 op ++ toBytes 1 b1 ++ toBytes 2 slot ++ toBytes 2 layer ++ toBytes 1 count ++ toBytes 1 0 ++ toBytes 4 pos ++
  toBytes 2 rgroup ++ toBytes 1 rdie ++ toBytes 1 0 ++ (mid ++ List.replicate (16 - mid.length) 0#8).take 16 ++
  toBytes 8 caddr ++ List.replicate 24 0#8

/-- RQ_OPEN of a slot on a memory die (R243, R279). -/
def State.openCmd (s : State) (k md : Nat) : List Byte :=
  let x := s.slot k
  let tb := match s.region md 1 with | some (b, _) => b | none => 0
  let pt := tb + k * (s.fld 38 .srvCfg 63 48) * 65536
  cmdHeader 3 (if x.flag 1 then 128 else 0) k 0 0 0 0 0
    (toBytes 2 (s.sctx k) ++ toBytes 2 (x.pages - 1) ++ toBytes 6 pt ++ toBytes 3 (s.resOf x md 0) ++ toBytes 3 (s.resOf x md 1))
    s.recordAddr

def State.releaseCmd (s : State) (k : Nat) : List Byte := cmdHeader 4 0 k 0 0 0 0 0 [] s.recordAddr

/-! ## Host memory (R439) -/

/-- Replace the first entry equal to `x`. -/
def replaceRead (x y : HostRead) : List HostRead → List HostRead
  | [] => []
  | r :: l => if r = x then y :: l else r :: replaceRead x y l

/-- The lowest tag of a port that is neither outstanding nor in quarantine (R440). -/
def HostSt.freeTag (h : HostSt) (port : Nat) : Option Nat :=
  (List.range 16384).find? (fun t =>
    !h.reads.any (fun r => decide (fnPort r.fn = port) && decide (r.tag = t)) &&
    !h.quar.any (fun q => decide (q.1 = port) && decide (q.2.1 = t)))

/-- Issue waiting reads of a port: at most 512 are outstanding (R410). -/
def State.issueReads (s : State) (port : Nat) : Nat → State
  | 0 => s
  | n + 1 =>
    let mine := s.host.reads.filter (fun r => decide (fnPort r.fn = port))
    if 512 ≤ (mine.filter (fun r => decide (r.tag < 16384))).length then s
    else
      match mine.find? (fun r => decide (r.tag = 16384)), s.host.freeTag port with
      | some r, some t =>
        let reads := replaceRead r { r with tag := t, at_ := s.hc } s.host.reads
        { s with host := { s.host with reads } }.issueReads port n
      | _, _ => s

/-- Read a host's memory. -/
def State.readHost (s : State) (fn addr len : Nat) (use : HostUse) : State :=
  let r : HostRead := { fn, addr, len, at_ := s.hc, use }
  { s with host := { s.host with reads := s.host.reads ++ [r] } }.issueReads (fnPort fn) 1

/-- Read the prompt tokens of a slot's next chunk (R284, R285). -/
def State.readChunk (s : State) (k : Nat) : State :=
  let x := s.slot k
  let n := min (s.fld 38 .srvCfg 5 0 + 1) (x.plen - x.prompt)
  if n = 0 then s else s.readHost x.fn (x.paddr + 4 * x.prompt) (4 * n) (.prompt k)

/-! ## Records to the host (R430) -/

def State.hostRecord (s : State) (k : Nat) (w0 w1 w4 w5 b26 : Nat) : State :=
  let x := s.slot k
  if x.mute then s else
  let e := 2 ^ x.rsz
  let phase := 1 - x.recs / e % 2
  let bs := toBytes 4 (w0 + phase <<< 31) ++ toBytes 4 w1 ++ toBytes 8 (s.die s.servingDie).wagV.toNat ++ toBytes 4 w4 ++
    toBytes 4 w5 ++ toBytes 2 k ++ toBytes 1 b26 ++ toBytes 5 0
  let s := s.hostWrite x.fn (x.ring + 32 * (x.recs % e)) bs
  let s := s.updSlot k (fun x => { x with recs := x.recs + 1 })
  if x.ive then s.toHost (.msix x.fn x.vec) else s

/-- The end record (R430). -/
def State.endRecord (s : State) (k : Nat) : State :=
  s.hostRecord k (1 <<< 28 + s.fld 38 .srvSlot0 50 43 k) (s.generated k) (s.fld 38 .srvSlot2 63 32 k)
    (s.fld 38 .srvSlot2 31 0 k) (b2n (s.slot k).late)

/-! ## Pause (R298) -/

/-- The largest number of tokens that the slot's next injection can deliver. -/
def State.nextTokens (s : State) (k : Nat) (decode : Bool) : Nat :=
  let x := s.slot k
  if decode then (if x.flag 1 then 16 else 1)
  else if x.plen ≤ x.prompt + (s.fld 38 .srvCfg 5 0 + 1) then 1 else 0

def State.roomFor (s : State) (k : Nat) (decode : Bool) : Bool :=
  decide (s.generated k - s.ackedOf k + s.nextTokens k decode ≤ (s.slot k).outmax)

/-- Pause a slot whose next injection R298 blocks, or resume it. -/
def State.pauseCheck (s : State) (k : Nat) : State :=
  let x := s.slot k
  let st := s.sstate k
  if (st = 2 ∨ st = 3) ∧ x.inj = none ∧ x.comWait = 0 ∧ !s.roomFor k (decide (st = 3)) then
    (s.updSlot k (fun x => { x with fromDecode := decide (st = 3) })).setSstate k 4
  else if st = 4 ∧ s.roomFor k x.fromDecode then s.setSstate k (if x.fromDecode then 3 else 2)
  else s

/-! ## Ends (R275 to R277) -/

/-- µs between two hclk times. -/
def usBetween (a b : Nat) : Nat := min ((b - a) / 100) 0xFFFFFFFF

/-- Record an interval between deliveries that ended at hclk time `h` (R299, R300): the tokens of one tree step are one
delivery. -/
def State.noteTbt (s : State) (k h : Nat) : State :=
  let us := usBetween (s.slot k).lastHc h
  let s := s.setFld 38 .srvSlot3 63 32 us k
  let s := s.setFld 38 .srvSlot2 31 0 (max us (s.fld 38 .srvSlot2 31 0 k)) k
  let s := (s.sample 38 10 (us : Int) none (some (s.sctx k))).sampleCtx (s.sctx k) 1 us
  s.updSlot k (fun x => { x with lastHc := h, step := none })

/-- The end record of a request, after its last token record; a tree step that was cut short is a delivery too. -/
def State.finish (s : State) (k : Nat) : State :=
  let s := match (s.slot k).step with | some h => s.noteTbt k h | none => s
  (s.updSlot k (fun x => { x with owed := false })).endRecord k

/-- Whether sampled tokens of a slot are not yet written. -/
def State.sampled (s : State) (k : Nat) : Bool := s.srv.drawn.any (fun d => decide (d.slot = k))

/-- End a request in PREFILL, DECODE or PAUSED: the tokens that it has sampled are still delivered (R276). The REASON of several
causes of one cycle is that of the command that comes first (R277, log entry 180). -/
def State.endRequest (s : State) (k reason : Nat) : State :=
  let st := s.sstate k
  if st = 2 ∨ st = 3 ∨ st = 4 then
    let s := (s.setReason k reason).setSstate k 5
    if s.sampled k then s.updSlot k (fun x => { x with owed := true }) else s.finish k
  else s

/-- The injection in flight is over once no row of it is awaited and no token of it is uncommitted (R284). -/
def State.settle (s : State) (k : Nat) : State :=
  let busy := s.srv.due.any (fun d => decide (d.1 = k)) || s.sampled k
  match (s.slot k).inj with
  | some j =>
    if busy || !(j.last || decide (j.kind = 2)) then s
    else (s.updSlot k (fun x => { x with inj := none, tree := none })).pauseCheck k
  | none => s

/-! ## Submission (R275, R278, R282) -/

/-- Admit a request that already stands in slot `k`: RQ_OPEN goes to all four memory dies. -/
def State.takeIn (s : State) (k : Nat) : State :=
  let s := ((s.setReason k 0).setSstate k 1).addFld 38 .srvAdm 15 0 1
  let s := s.updSlot k (fun x => { x with openWait := 15, openOk := 0, openBad := false })
  mdIds.foldl (fun s d => s.sendCmd d (s.openCmd k d)) s

/-- Put a request into a slot with its registers at the start of their life. -/
def State.fillSlot (s : State) (k c : Nat) (x : SlotSt) : State :=
  let s := s.setSlot k { x with acceptHc := s.hc, lastHc := s.hc }
  let s := s.setReg 38 .srvSlot0 (c <<< 51) k
  let s := s.setReg 38 .srvSlot1 0 k
  let s := s.setReg 38 .srvSlot2 (0xFFFFFFFF <<< 32) k
  s.setReg 38 .srvSlot3 0 k

/-- Count a refusal or queueing by KV or TIME (R306). -/
def State.countRefusal (s : State) (r : Nat) : State :=
  if r = 0x06 then s.addFld 38 .srvAdm 31 16 1 else if r = 0x07 then s.addFld 38 .srvAdm 47 32 1 else s

/-- The head of the queue waits on QUOTA, or not (R456, R477). -/
def State.noteBlocked (s : State) : State :=
  match s.srv.queue with
  | k :: _ =>
    if s.waitChecks (s.slot k) (s.sctx k) = some 0x05 then
      (s.setFld 38 .secIso 62 62 1).setFld 38 .secIso 61 52 (s.sctx k)
    else (s.setFld 38 .secIso 62 62 0).setFld 38 .secIso 61 52 0
  | [] => (s.setFld 38 .secIso 62 62 0).setFld 38 .secIso 61 52 0

/-- A submission: completion status (R426), RESULT, new state. -/
def State.submit (s : State) (x : SlotSt) (c : Nat) : Nat × Nat × State :=
  let refuse (r : Nat) : Nat × Nat × State := (2, r, s.countRefusal r)
  if !s.paramOk x then refuse 0x01
  else if 16777216 < x.plen + x.maxnew then refuse 0x02
  else
    match s.freeSlot with
    | none => refuse 0x03
    | some k =>
      -- no submission is accepted while the waggle state of KD0 is INVALID or ACQUIRING (R495)
      if s.fld 38 .srvCtl 31 31 = 0 ∨ s.fld 38 .wagStat 31 29 < 2 then refuse 0x04
      else
        match s.waitChecks x c with
        | none => (0, k, (s.fillSlot k c x).takeIn k)
        | some r =>
          let never := (decide (r = 0x06) && (!s.areaFits x || !s.kvFits x true)) || (decide (r = 0x07) && s.timeAlone x)
          if x.flag 3 && !never then
            let s := (((s.countRefusal r).fillSlot k c x).setReason k r).setSstate k 7
            (1, k + 65536, ({ s with srv := { s.srv with queue := s.srv.queue ++ [k] } }).noteBlocked)
          else refuse r

/-- Evaluate the queue's head, and every new head after an admission (R282). -/
def State.evalQueue (s : State) : Nat → State
  | 0 => s.noteBlocked
  | n + 1 =>
    match s.srv.queue with
    | [] => s.noteBlocked
    | k :: rest =>
      match s.waitChecks (s.slot k) (s.sctx k) with
      -- REASON of a queued request is the code of the check that it fails (R277)
      | some r => (s.setReason k r).noteBlocked
      | none => (({ s with srv := { s.srv with queue := rest } }).takeIn k).evalQueue n

/-- Evaluate the whole queue. -/
def State.evalAll (s : State) : State := s.evalQueue (s.srv.queue.length + 1)

/-- Send RQ_RELEASE to the memory dies of a mask. With none to send the release is complete at once, and the queue is evaluated
(R275, R282). -/
def State.sendReleases (s : State) (k mask : Nat) : State :=
  let s := (s.updSlot k (fun x => { x with relWait := mask })).setSstate k 6
  let s := (onesFrom 4 mask 0).foldl (fun s i => s.sendCmd (32 + i) (s.releaseCmd k)) s
  if mask = 0 then (s.setSstate k 0).evalAll else s

/-! ## CANCEL and ACK (R275, R276, R297, R309) -/

/-- A write of CANCEL. -/
def State.cancel (s : State) (k : Nat) : State :=
  match s.sstate k with
  | 1 => s.updSlot k (fun x => { x with cancel := true })
  | 7 =>
    let s := (s.setReason k 0x14).endRecord k
    let s := { s with srv := { s.srv with queue := s.srv.queue.filter (fun j => decide (j ≠ k)) } }
    (s.setSstate k 0).noteBlocked
  | 2 | 3 | 4 => s.endRequest k 0x14
  | _ => s

/-- A request that a recovery cannot carry through ends with FAULT (R567, R576, R580). -/
def State.faultSlot (s : State) (k : Nat) : State :=
  match s.sstate k with
  | 1 => s.updSlot k (fun x => { x with cancel := true, cancelWhy := 0x10 })
  | 7 =>
    let s := (s.setReason k 0x10).endRecord k
    ({ s with srv := { s.srv with queue := s.srv.queue.filter (fun j => decide (j ≠ k)) } }).setSstate k 0
  | _ => s.endRequest k 0x10

/-- What is in flight in the pipeline is lost: no injection, no awaited row, no list. A request that has ended writes its end
record now. -/
def State.dropFlight (s : State) : State :=
  let s := s.slotList.foldl (fun s k => s.updSlot k (fun x => { x with inj := none, tree := none })) s
  let s := { s with srv := { s.srv with due := [], drawn := [], lists := [] } }
  s.slotList.foldl (fun s k => if (s.slot k).owed then s.finish k else s) s

/-- An ACK of `n` tokens: false when it is too large. -/
def State.ack (s : State) (k n : Nat) : Bool × State :=
  if s.generated k - s.ackedOf k < n then (false, s)
  else (true, (s.setFld 38 .srvSlot1 23 0 (s.ackedOf k + n) k).pauseCheck k)

/-- Whether an accessor may act on a slot: from view U only on one of its context (R451). -/
def State.mayTouch (s : State) (who : Who) (k : Nat) : Bool :=
  match s.whoCtx who with
  | some c => decide (s.sctx k = c)
  | none => true

/-- The global address of a register of KD0, for records. -/
def State.kd0Addr (s : State) (off : Nat) : Nat := s.pkgId 38 * 2 ^ 52 + pkgAddr 38 off

def execSlotCancel (who : Who) (slot : Nat) (s : State) : Out :=
  if slot < 16384 then
    .next (if s.mayTouch who slot then (s.cancel slot).respond 0
           else (s.isolation who (s.kd0Addr (Reg.off ⟨.srvSlot3, slot, 0⟩))).respond 2)
  else .fault .noSuchUnit

def execSlotAck (who : Who) (slot n : Nat) (s : State) : Out :=
  if slot < 16384 ∧ n < 8192 then
    let a := s.kd0Addr (Reg.off ⟨.srvSlot3, slot, 0⟩)
    .next (if !s.mayTouch who slot then (s.isolation who a).respond 2
           else match s.ack slot n with
             | (true, s) => s.respond 0
             | (false, s) => s.mmioError who 2 a)
  else .fault .noSuchUnit

/-! ## Draft windows (R291, R292) -/

def draftOff (k : Nat) : Nat := 0x3F0053000000 + 0x100 * k

/-- A write to a slot's draft window. -/
def State.draftWrite (s : State) (k off : Nat) (bs : List Byte) : State := s.writeMem 38 (draftOff k + off) bs

def execDraftWindowWrite (who : Who) (slot off : Nat) (bs : List Byte) (s : State) : Out :=
  if slot < 16384 ∧ off + bs.length ≤ 256 then
    .next (if s.mayTouch who slot then (s.draftWrite slot off bs).respond 0
           else (s.isolation who (s.kd0Addr (draftOff slot + off))).respond 2)
  else .fault .noSuchUnit

/-- The masks of a tree's nodes from their parents: node 0 first (R246, R292). -/
def treeMasks (parents : List Nat) : List Nat :=
  parents.foldl (fun ms p => ms ++ [ms.getD p 0 + 2 ^ ms.length]) [1]

/-- Take the armed draft record of a slot (R292): the tree it makes, if it is good. -/
def State.takeDraft (s : State) (k : Nat) : Option (List Nat × List Nat) × State :=
  let w := s.readMem 38 (draftOff k) 256
  let n := byteAt w 3
  if n = 0 then (none, s)
  else
    let s := s.writeMem 38 (draftOff k + 3) [0#8]
    let es := (List.range (min n 63)).map (fun i => numAt w (4 + 4 * i) 4)
    let toks := es.map (fun e => bits e 17 0)
    let parents := es.map (fun e => bits e 23 18)
    let bad := decide (63 < n) || decide (numAt w 0 3 ≠ s.spos k) ||
      (List.range es.length).any (fun i => decide (i + 1 ≤ parents.getD i 0)) ||
      toks.any (fun t => decide (s.vocab ≤ t)) ||
      (treeMasks parents).any (fun m => decide (16 < popcount 64 m))
    if bad then (none, s.addFld 38 .srvAdm 63 48 1) else (some (toks, parents), s)

/-! ## Injection (R283 to R285, R457) -/

/-- Injections in flight: of all slots, of prompt chunks, of a context. -/
def State.inFlight (s : State) (p : Nat → Inj → Bool) : Nat :=
  (s.srv.slots.filter (fun e => match e.2.inj with | some j => p e.1 j | none => false)).length

/-- Whether a slot can be injected now (R284, R298, R457). -/
def State.ready (s : State) (k : Nat) : Bool :=
  let x := s.slot k
  let st := s.sstate k
  let infl := s.fld 38 .secQuotaa 62 48 (s.sctx k)
  (decide (st = 3) || (decide (st = 2) && x.chunk.isSome &&
    decide (s.inFlight (fun _ j => decide (j.kind = 0)) < s.fld 38 .srvCfg 23 16))) &&
  x.inj.isNone && decide (x.comWait = 0) && s.roomFor k (decide (st = 3)) &&
  (decide (infl = 0) || decide (s.inFlight (fun j _ => decide (s.sctx j = s.sctx k)) < infl))

/-- The slot whose turn it is (R284). -/
def State.nextSlot (s : State) : Option Nat :=
  if s.fld 38 .srvCfg 47 32 ≤ s.inFlight (fun _ _ => true) then none
  else
    let l := s.slotList.filter (fun k => s.ready k)
    match l.find? (fun k => decide (s.srv.last < k)) with
    | some k => some k
    | none => l.head?

/-- The injection descriptor (R283). -/
def descriptor (k ctx kind rows pos : Nat) (last : Bool) (masks : List Nat) : List Byte :=
  toBytes 2 k ++ toBytes 1 kind ++ toBytes 1 (rows - 1) ++ toBytes 4 pos ++ toBytes 2 ctx ++ toBytes 1 (b2n last) ++
  toBytes 21 0 ++ masks.flatMap (fun m => toBytes 8 m)

/-- Start an injection of rows whose tokens are given: the GATHER on MD0, then the descriptor. -/
def State.inject (s : State) (k kind pos : Nat) (last : Bool) (toks masks : List Nat) : State :=
  let rows := toks.length
  let mid := toBytes 8 (Config.injection 0) ++ toBytes 4 (Config.injection 1)
  let g := cmdHeader 5 (rows - 1) k 0 0 0 (Config.injection 2 % 1024) (Config.injection 3 % 64) mid s.recordAddr ++
    toks.flatMap (fun t => toBytes 4 t)
  let s := s.sendCmd 32 g
  let s := s.postVector s.servingDie (Config.injection 5 % 64) (Config.injection 4 % 1024) 0 (descriptor k (s.sctx k) kind rows pos last masks)
    false k
  let due := if kind = 2 then (List.range rows).map (fun r => (k, r)) else if last then [(k, rows - 1)] else []
  let s := s.updSlot k (fun x => { x with inj := some { kind, rows, pos, last } })
  { s with srv := { s.srv with last := k, due := s.srv.due ++ due } }

/-- INJECTION: the next ready slot's rows enter the pipeline. -/
def State.injection (s : State) : State :=
  match s.nextSlot with
  | none => s
  | some k =>
    let x := s.slot k
    if s.sstate k = 2 then
      let toks := x.chunk.getD []
      let last := decide (x.plen ≤ x.prompt + toks.length)
      let s := s.inject k 0 x.prompt last toks []
      let s := s.updSlot k (fun y => { y with prompt := x.prompt + toks.length, chunk := none })
      s.readChunk k
    else
      let (d, s) := if x.flag 1 then s.takeDraft k else (none, s)
      match d with
      | none => s.inject k 1 (s.spos k) true [x.cur] []
      | some (toks, parents) =>
        let s := s.inject k 2 (s.spos k) true (x.cur :: toks) (treeMasks parents)
        s.updSlot k (fun y => { y with tree := some { parents, toks } })

def execInjection (s : State) : Out := .next s.injection

/-- INJECTION_FINISH: an injection that samples no token leaves the pipeline (R284). -/
def execInjectionFinish (slot : Nat) (s : State) : Out :=
  if slot < 16384 then
    .next (match (s.slot slot).inj with
      | some j => if j.kind = 0 ∧ !j.last then (s.updSlot slot (fun x => { x with inj := none })).pauseCheck slot else s
      | none => s)
  else .fault .noSuchUnit

/-! ## Delivery (R293, R296, R299) -/

/-- COMMIT of a path to all four memory dies (R244, R293). -/
def State.sendCommits (s : State) (k C : Nat) (path : List Nat) : State :=
  let s := s.updSlot k (fun x => { x with comWait := 15 })
  let b := cmdHeader 2 0 k 0 path.length C 0 0 (path.map (BitVec.ofNat 8)) s.recordAddr
  mdIds.foldl (fun s d => s.sendCmd d b) s

/-- A sampled token is written out: its record, the counters, and the times of its delivery (R296, R299). -/
def State.deliverToken (s : State) (d : Drawn) : State :=
  let k := d.slot
  let x := s.slot k
  let g := s.generated k + 1
  let lpz := x.flag 2
  let s := s.hostRecord k d.tok d.pos (if lpz then d.z else 0) (if lpz then d.lp else 0) 0
  let s := s.setFld 38 .srvSlot1 47 24 g k
  let s := s.setFld 38 .srvSlot0 23 0 d.pos k
  let s := (s.ring 38 (.unit 0) 0x14 (k + d.pos <<< 14)).updSlot k (fun x => { x with cur := d.tok })
  if g = 1 then
    let us := usBetween x.acceptHc s.hc
    let s := ((s.setFld 38 .srvSlot2 63 32 us k).sample 38 9 (us : Int) none (some (s.sctx k))).sampleCtx (s.sctx k) 0 us
    s.updSlot k (fun x => { x with lastHc := s.hc })
  else if d.tree && !d.ends then s.updSlot k (fun x => { x with step := some s.hc })
  else s.noteTbt k s.hc

/-- A register that KD1 mirrors (R272). -/
def mirroredOff (off : Nat) : Bool := RegFam.all.any (fun f => f.shape.mirror && (f.at? off).isSome)

/-- KD1's mirror takes KD0's state (R272). -/
def State.updateMirror (s : State) : State :=
  { s with srv := { s.srv with mirror :=
    { regs := Tab.keep (fun a => decide (a / 2 ^ 46 = 38) && mirroredOff (a % 2 ^ 46)) s.csr
      shadows := Tab.keep (fun k => decide (4096 ≤ k)) s.shadows
      hc := s.hc } } }

/-- What a commit of a token leads to in a request that goes on: an end cause, or the COMMIT at the end of a tree step. -/
def State.afterToken (s : State) (d : Drawn) : State :=
  let k := d.slot
  let x := s.slot k
  if (List.range 4).any (fun i => decide (x.stop i = d.tok)) then (s.endRequest k 0x16).settle k
  else if s.generated k = x.maxnew then (s.endRequest k 0x17).settle k
  else
    let s := if d.tree && d.ends then
        match x.tree, x.inj with
        | some t, some j => s.sendCommits k j.pos t.path
        | _, _ => s
      else s
    (s.settle k).pauseCheck k

/-- TOKEN_COMMIT: the oldest drawn token is written out, and the request may end. A request that has ended meanwhile delivers
it, and its end record follows its last one (R276). -/
def State.tokenCommit (s : State) : State :=
  match s.srv.drawn with
  | [] => s
  | d :: rest =>
    let s := { s with srv := { s.srv with drawn := rest } }
    let k := d.slot
    let st := s.sstate k
    if st = 2 ∨ st = 3 then ((s.deliverToken d).afterToken d).updateMirror
    else if (s.slot k).owed then
      let s := s.deliverToken d
      ((if s.sampled k then s else s.finish k).settle k).updateMirror
    else s.settle k

def execTokenCommit (s : State) : Out := .next s.tokenCommit

/-! ## Records and releases (R275) -/

/-- COMPLETION_RECORD: the oldest record that has reached the serving engine. -/
def State.completionRecord (s : State) : State :=
  match s.srv.records with
  | [] => s
  | (md, b) :: rest =>
    let s := { s with srv := { s.srv with records := rest } }
    let status := byteAt b 0
    let op := byteAt b 1
    let k := numAt b 2 2 % 16384
    let x := s.slot k
    let m := 2 ^ (md - 32)
    let clear (w : Nat) : Nat := if bit w (md - 32) then w - m else w
    match op with
    | 3 =>
      if s.sstate k ≠ 1 ∨ !bit x.openWait (md - 32) then s
      else
        let y := { x with openWait := clear x.openWait, openOk := if status = 0 then x.openOk + m else x.openOk,
                          openBad := x.openBad || decide (status ≠ 0) }
        let s := s.setSlot k y
        if y.openWait ≠ 0 then s
        else if y.openBad then ((s.setReason k 0x11).endRecord k).sendReleases k y.openOk
        else if y.cancel then ((s.setReason k y.cancelWhy).endRecord k).sendReleases k y.openOk
        -- an end by LATE is held until the request can end (log entry 181)
        else if y.late && y.dropLate then (s.setSstate k 2).endRequest k 0x15
        else ((s.setSstate k 2).readChunk k).pauseCheck k
    | 4 =>
      if s.sstate k ≠ 6 then s
      else
        let w := clear x.relWait
        let s := s.updSlot k (fun x => { x with relWait := w })
        if w = 0 then (s.setSstate k 0).evalAll else s
    | 2 =>
      let w := clear x.comWait
      let s := s.updSlot k (fun x => { x with comWait := w })
      if status ≠ 0 then s.endRequest k 0x11 else s.pauseCheck k
    | _ => if status ≠ 0 then s.endRequest k 0x11 else s

def execCompletionRecord (s : State) : Out := .next s.completionRecord

/-- SLOT_RELEASE: an ENDING slot with nothing in flight. -/
def execSlotRelease (slot : Nat) (s : State) : Out :=
  if slot < 16384 then
    .next (if s.sstate slot = 5 ∧ (s.slot slot).inj = none ∧ (s.slot slot).comWait = 0 then s.sendReleases slot 15 else s)
  else .fault .noSuchUnit

/-- TTFT_DEADLINE: hclk time `h` is the deadline of a CP1 request without a first token (R301). One that is QUEUED or OPENING is
late, and ends when it has come to PREFILL (R275, log entry 181). -/
def execTtftDeadline (slot h : Nat) (s : State) : Out :=
  if slot < 16384 then
    let x := s.slot slot
    .next (if x.cp1 ∧ s.generated slot = 0 ∧ x.deadline ≤ usBetween x.acceptHc h ∧ s.sstate slot ≠ 0 then
        let s := (s.toHc h).updSlot slot (fun x => { x with late := true })
        if x.dropLate then s.endRequest slot 0x15 else s
      else s)
  else .fault .noSuchUnit

/-! ## Costs and quotas (R305, R456) -/

/-- COST_WRITE: `which` 0 is SRV_COSTA, 1 SRV_COSTB. -/
def execCostWrite (which : Nat) (v : Word64) (s : State) : Out :=
  if which < 2 then .next ((s.setReg 38 (if which = 0 then .srvCosta else .srvCostb) v.toNat).evalAll.respond 0)
  else .fault .noSuchUnit

end Sys2Proof.Machine
end

