-- ==== Sys2Proof/Machine/Forager.lean ====
section
/-!
DEFINITION. The forager: the lists of candidates, their merge and the draw (R145, R286 to R290, R293).
-/

namespace Sys2Proof.Machine

/-- A candidate (R287): its token and the FP32 code of its logit. -/
structure Cand where
  tok : Nat
  z : Nat
  deriving DecidableEq, Repr

/-- The candidates of a list. -/
def candidates (l : List Byte) : List Cand :=
  (List.range (l.length / 8)).map (fun i => { tok := bits (numAt l (8 * i) 4) 17 0, z := numAt l (8 * i + 4) 4 })

/-- A list whose first record has POISON set. -/
def listPoison (l : List Byte) : Bool := bit (numAt l 0 4) 31

/-- The order of R145 over candidates, with the token as the position. -/
def Cand.before (a b : Cand) : Bool :=
  let x := v32 a.z
  let y := v32 b.z
  let less (x y : FVal) : Bool := (x.isNan && !y.isNan) || x.lt false y
  less y x || (!less x y && decide (a.tok < b.tok))

def Cand.insert (a : Cand) : List Cand → List Cand
  | [] => [a]
  | b :: t => if a.before b then a :: b :: t else b :: Cand.insert a t

/-- The first `n` candidates of all lists. -/
def mergeCands (ls : List (List Byte)) (n : Nat) : List Cand :=
  ((ls.flatMap candidates).foldl (fun acc c => Cand.insert c acc) []).take n

/-- Whether a value is finite. -/
def finite32 (a : Nat) : Bool := match v32 a with | .fin _ _ _ => true | _ => false

/-- a ≥ b. -/
def atLeast (a b : Nat) : Bool := !(v32 a).isNan && !(v32 b).isNan && !(v32 a).lt false (v32 b)

/-- Running sums, each rounded. -/
def runSums (c : Nat) : List Nat → List Nat
  | [] => []
  | e :: t => let d := (aAdd c e).1; d :: runSums d t

/-- How many leading elements meet `p`. -/
def leading (p : Nat → Bool) : List Nat → Nat
  | [] => 0
  | x :: t => if p x then 1 + leading p t else 0

/-- The draw of R288 among candidates in rank order, at position `t`: the index drawn, and the log-probability. -/
def drawToken (x : SlotSt) (t : Nat) (cs : List Cand) : Nat × Nat :=
  let z0 := match cs with | c :: _ => c.z | [] => 0
  let es := cs.map (fun c => (aExp2 (aMul (aSub c.z z0).1 x.invt2).1).1)
  let C := runSums 0 es
  let last := C.getLastD 0
  let np := 1 + leading (fun c => !atLeast c (aMul x.topp last).1) C
  let nm := leading (fun e => atLeast e x.minp) es
  let n := max 1 (min (min np nm) cs.length)
  let w := (philox (t % 2 ^ 32, 0, 0, 0) (x.seed % 2 ^ 32) (x.seed / 2 ^ 32)).1
  let u := (roundTo .fp32 .rne false (w / 256) (-24)).1
  let thr := (aMul u (C.getD (n - 1) 0)).1
  let s := min (n - 1) (leading (fun c => !(v32 thr).lt false (v32 c)) (C.take n))
  (s, (transcend false 1 (fDiv .rne (v32 (es.getD s 0)) (v32 (C.getD (n - 1) 0))).1).1)

/-- The front list of every source, or none while one is missing (R286, R290). -/
def State.frontLists (s : State) : Option (List (List Byte)) :=
  let n := s.fld 38 .smpCfg 31 28 + 1
  let fronts := (List.range n).map (fun i => (Tab.get [] s.srv.lists i).head?)
  if fronts.all (fun f => f.isSome) then some (fronts.map (fun f => f.getD [])) else none

/-- Take the front list of every source and the oldest sampled row away. -/
def State.takeRow (s : State) : State :=
  let n := s.fld 38 .smpCfg 31 28 + 1
  let lists := (List.range n).foldl (fun t i => Tab.upd [] t i (fun l => l.drop 1)) s.srv.lists
  { s with srv := { s.srv with lists, due := s.srv.due.drop 1 } }

/-- The node that a drawn token continues a tree step at: the least child of the path's last node with that token. -/
def TreeStep.next (t : TreeStep) (tok : Nat) : Option Nat :=
  ((List.range t.toks.length).find? (fun i => decide (t.parents.getD i 0 = t.node) && decide (t.toks.getD i 0 = tok))).map (· + 1)

/-- A token leaves the forager. -/
def State.deliver (s : State) (k : Nat) (d : Drawn) : State :=
  ({ s with srv := { s.srv with drawn := s.srv.drawn ++ [d] } }).ring 38 (.unit 1) 0x15 (k % 2 ^ 14 + d.tok <<< 14)

/-- The candidates of slot `k`'s row are ready: draw, or end the request with POISON (R288, R293). -/
def State.drawRow (s : State) (k t : Nat) (ls : List (List Byte)) : State :=
  let x := s.slot k
  let K := min x.topk s.vocab
  let cs := mergeCands ls K
  let z0 := match cs with | c :: _ => c.z | [] => Fmt.nan .fp32
  if ls.any listPoison || !finite32 z0 then (s.endRequest k 0x12).settle k
  else
    let n := s.fld 38 .smpCfg 31 28 + 1
    let s := s.sample 38 8 ((100 + 2 * K + K * (n - 2) : Nat) : Int) none (some (s.sctx k))
    -- R288 draws nothing for GREEDY and states no log-probability (log entry 60)
    let (i, lp) := if x.flag 0 then (0, (Config.greedyLogProb (cs.map (fun c => c.z)) t).toNat) else drawToken x t cs
    -- the first token is sampled (R275)
    let s := if s.sstate k = 2 then s.setSstate k 3 else s
    let c := cs.getD i { tok := 0, z := 0 }
    let stops := (List.range 4).any (fun j => decide (x.stop j = c.tok)) || decide (t + 1 = x.plen + x.maxnew)
    match x.tree with
    | none => s.deliver k { slot := k, tok := c.tok, pos := t, z := c.z, lp, tree := false, ends := true }
    | some tr =>
      match (if stops then none else tr.next c.tok) with
      | some b =>
        let s := s.updSlot k (fun y => { y with tree := some { tr with path := tr.path ++ [b], node := b } })
        s.deliver k { slot := k, tok := c.tok, pos := t, z := c.z, lp, tree := true, ends := false }
      | none =>
        let s := s.updSlot k (fun y => { y with tree := some { tr with done := true } })
        s.deliver k { slot := k, tok := c.tok, pos := t, z := c.z, lp, tree := true, ends := true }

/-- FORAGER_DRAW: the row whose last list arrived first. -/
def State.foragerDraw (s : State) : State :=
  match s.frontLists, s.srv.due with
  | some ls, (k, row) :: _ =>
    let s := s.takeRow
    let x := s.slot k
    let st := s.sstate k
    match x.inj with
    | none => s
    | some j =>
      if st ≠ 2 ∧ st ≠ 3 then s.settle k
      else
        match x.tree with
        | some tr => if tr.done || decide (row ≠ tr.node) then s.settle k else s.drawRow k (j.pos + tr.path.length) ls
        | none => s.drawRow k (j.pos + row + 1) ls
  | _, _ => s

def execForagerDraw (s : State) : Out := .next s.foragerDraw

end Sys2Proof.Machine
end

