-- ==== Sys2Proof/Machine/Health.lean ====
section
/-!
DEFINITION. Quantization health: the sweep of the counters, the windows and the flags (R319 to R326).
-/

namespace Sys2Proof.Machine

/-- The four counts of a CORE_QH or MDA_QHL value: bit k of MON_QHLF names count k (R318, R323). -/
def qhCounts (v : Nat) : List Nat := [bits v 15 0, bits v 31 16, bits v 47 32, bits v 63 48]

/-- Add `n` to total `e` (3 POISON, 2 CLAMP, 1 EXP_HIGH, 0 EXP_LOW) of layer `L`, and to its window. -/
def State.qhAdd (s : State) (L e n : Nat) : State :=
  if n = 0 then s
  else
    let f : RegFam := if 2 ≤ e then .monQhla else .monQhlb
    let hi := if e % 2 = 1 then 63 else 31
    let s := s.addFld 38 f hi (hi - 31) n L
    { s with health := { s.health with win := Tab.upd 0 s.health.win (4 * L + e) (· + n) } }

/-- Add all counts of a counter register to a layer. -/
def State.qhAddAll (s : State) (L v : Nat) : State :=
  (List.range 4).foldl (fun s e => s.qhAdd L e ((qhCounts v).getD e 0)) s

/-- One register of a sweep: read, clear, attribute (R320). -/
def State.qhTake (s : State) (die : Nat) (f : RegFam) (i : Nat) : State :=
  let v := s.reg die f i
  if v = 0 then s
  else
    let s := s.setReg die f 0 i
    if f = .mdaQhl then s.qhAddAll i v
    else
      let m := s.reg 38 .wgtPmap (512 * die + i)
      if bit m 31 then s.qhAddAll (m % 4096) v
      else s.addFld 38 .monQhStat 15 0 ((qhCounts v).foldl (· + ·) 0)

/-- The registers of a family that differ from their reset value: die and first index. -/
def State.touched (s : State) (f : RegFam) : List (Nat × Nat) :=
  s.csr.filterMap (fun e =>
    match f.at? (e.1 % 2 ^ 46) with
    | some r => if f.shape.dies.has (e.1 / 2 ^ 46) then some (e.1 / 2 ^ 46, r.i) else none
    | none => none)

/-- The sweep of one housekeeping round (R320), and CLR at the round boundary (R325). -/
def State.qhRound (s : State) : State :=
  let s := if s.fld 38 .monQhCfg 30 30 = 1 then
      let s := [RegFam.monQhla, .monQhlb, .monQhlf].foldl (fun s f =>
        (s.touched f).foldl (fun s x => s.setReg 38 f 0 x.2) s) s
      s.setFld 38 .monQhCfg 30 30 0
    else s
  if s.fld 38 .monQhCfg 31 31 = 0 then s
  else
    let s := (s.touched .coreQh).foldl (fun s x => s.qhTake x.1 .coreQh x.2) s
    let s := (s.touched .mdaQhl).foldl (fun s x => s.qhTake x.1 .mdaQhl x.2) s
    { s with health := { s.health with rounds := s.health.rounds + 1 } }

/-- The threshold of event `e`. -/
def Health.threshold (h : Health) (e : Nat) : Nat := elem h.thr 16 e

/-- The end of a window (R321). -/
def State.qhWindow (s : State) : State :=
  let h := s.health
  if s.fld 38 .monQhCfg 31 31 = 0 ∨ h.rounds < s.fld 38 .monQhCfg 15 0 then s
  else
    let above := h.win.filter (fun x => decide (h.threshold (x.1 % 4) < x.2))
    let fresh := above.any (fun x => !bit (s.reg 38 .monQhlf (x.1 / 4)) (x.1 % 4))
    let s := above.foldl (fun s x => s.orReg 38 .monQhlf (2 ^ (x.1 % 4)) (x.1 / 4)) s
    let s := { s with health := { win := [], rounds := 0, thr := s.reg 38 .monQhThr } }
    if fresh then (s.setFld 38 .monQhStat 31 31 1).eventBoth 1 0 else s

/-- QH_WINDOW_END. -/
def execQhWindowEnd (s : State) : Out := .next s.qhWindow

/-- QH_CLR: a write of MON_QH_CFG.CLR; the zeroing follows at the next round boundary (R325). -/
def execQhClr (s : State) : Out := .next ((s.setFld 38 .monQhCfg 30 30 1).respond 0)

end Sys2Proof.Machine
end

