-- ==== Sys2Proof/Machine/Weights.lean ====
section
/-!
DEFINITION. Golden records, their window, copies, clears, seals, repairs and the control of a weight-set switch (R256 to
R258, R382 to R397, R399, R401 to R409).
-/

namespace Sys2Proof.Machine

def State.gold (s : State) (md : Nat) : GoldSt := Tab.get {} s.golds (md - 32)
def State.setGold (s : State) (md : Nat) (g : GoldSt) : State := { s with golds := Tab.set {} s.golds (md - 32) g }

/-! ## Places (R256) -/

/-- The other memory die of the side. -/
def mirror (md : Nat) : Nat := if md % 2 = 0 then md + 1 else md - 1
/-- Side of a memory die: 0 west, 1 east. -/
def sideOf (md : Nat) : Nat := (md - 32) / 2
/-- The two memory dies of a side. -/
def sideDies (side : Nat) : List Nat := [32 + 2 * side, 33 + 2 * side]
/-- Side of a CD. -/
def cdSide (cd : Nat) : Nat := if cd % 8 < 4 then 0 else 1
/-- The side index of logical engine `l` of core `k`. -/
def recordIndex (cd k l : Nat) : Nat := ((4 * (cd / 8) + cd % 4) * 512 + k) * 16 + l
/-- CD, core and logical engine of a record. -/
def recordPlace (side r : Nat) : Nat × Nat × Nat :=
  let q := r / 8192
  (8 * (q / 4) + q % 4 + 4 * side, r / 16 % 512, r % 16)
/-- The primary memory die of a CD. -/
def primaryOf (cd : Nat) : Nat := 32 + 2 * cdSide cd + (if cd / 8 < 2 then 0 else 1)

def recordSize : Nat := 8768
def setStride : Nat := 1149239296

/-- The offset of record `r` of a set, when it lies in the GOLD region. -/
def State.recordAt (s : State) (md set r : Nat) : Option Nat :=
  match s.region md 0 with
  | some (b, z) =>
    let a := setStride * set + recordSize * r
    if r < 131072 ∧ a + recordSize ≤ z then some (b + a) else none
  | none => none

def State.record (s : State) (md a : Nat) : List Byte := s.readMem md a recordSize

/-- A record passes R258. -/
def recordOk (b : List Byte) : Bool := decide (byteAt b 1 = 1) && decide (crc32c (b.drop 64) = numAt b 4 4)

/-- The valid records of a set on a die, ascending. -/
def State.validRecords (s : State) (md set : Nat) : List Nat :=
  match s.recordAt md set 0 with
  | none => []
  | some a =>
    let lo := pkgAddr md a
    (s.mem.filter (fun e => decide (lo ≤ e.1) && decide (e.1 < lo + setStride) && decide ((e.1 - lo) % recordSize = 1) &&
      decide (e.2 = 1#8))).map (fun e => (e.1 - lo) / recordSize) |>.filter (fun r => (s.recordAt md set r).isSome)

/-- SETn_VALID of a memory die. -/
def State.setValid (s : State) (md set : Nat) : Bool := bit (s.reg md .mdaGold) (1 + set)

/-- Load SETn_VALID of all four memory dies. -/
def State.markSet (s : State) (set v : Nat) : State := mdIds.foldl (fun s d => s.setFld d .mdaGold (1 + set) (1 + set) v) s

/-- The active set (R269). -/
def State.activeSet (s : State) (md : Nat) : Nat := s.fld md .mdaGold 0 0

/-! ## Refill reads (R258) -/

/-- One copy: its bytes and whether it passes. -/
def State.tryRecord (s : State) (md set r : Nat) : List Byte × Bool × State :=
  match s.recordAt md set r with
  | none => ([], false, s)
  | some a =>
    let (b, bad, s) := s.hbmRead md a recordSize
    (b, !bad && recordOk b, s)

/-- A record is lost in both copies: GOLD_LOST, kept as lost; class E outside a switch (R258, R399, R566). -/
def State.goldLost (s : State) (md set r : Nat) : State :=
  let s := s.mdErr md 13 {}
  let s := (sideDies (sideOf md)).foldl (fun s d =>
    let g := s.gold d
    s.setGold d { g with lost := if g.lost.contains (set, r) then g.lost else g.lost ++ [(set, r)] }) s
  if s.fld 38 .wgtSwstat 31 29 = 4 then s else s.classE md 0x0C

/-- A repair of a record of a die is queued, once (R401). -/
def State.queueRepair (s : State) (md set r : Nat) : State :=
  let g := s.gold md
  s.setGold md { g with repairs := if g.repairs.contains (set, r) then g.repairs else g.repairs ++ [(set, r)] }

/-- Read a record for a refill: from the die, or from its mirror, queueing the repair of the bad copy (R258, R401). A record
counts in CRC_ERRS once, when its check fails and the mirror is read. -/
def State.refillRead (s : State) (md set r : Nat) : Option (List Byte) × State :=
  let (b, ok, s) := s.tryRecord md set r
  if ok then (some b, s)
  else
    let (b, ok, s) := (s.addFld md .mdaGold 31 16 1).tryRecord (mirror md) set r
    if ok then (some b, s.queueRepair md set r) else (none, s.goldLost md set r)

/-! ## The golden-copy window (R386 to R388, R402) -/

/-- Why a complete record is refused as a commit: the lowest code of R387. -/
def commitCause (b : List Byte) : Option Nat :=
  let code := byteAt b 0
  let packet (i : Nat) : Nat := numAt b (64 + 64 * i) 64
  let header := decide (3 < code) || decide (1 < byteAt b 1) || decide (numAt b 2 2 ≠ 0) || decide (numAt b 8 56 ≠ 0)
  let content := (decide (code ≤ 3) && (List.range 128).any (fun i => badRow code (packet i))) ||
    (List.range 8).any (fun c => badChunk (packet (128 + c)))
  if content then some 1 else if numAt b 4 4 ≠ crc32c (b.drop 64) then some 2 else if header then some 3 else none

/-- The set is sealing, committed to a switch, or being cleared on this side (R388). -/
def State.setBusy (s : State) (side set : Nat) : Bool :=
  (decide (s.fld 38 .wgtSeal 30 30 = 1) && decide (s.fld 38 .wgtSeal 29 29 = set)) ||
  ((decide (s.fld 38 .wgtSwstat 31 29 = 3) || decide (s.fld 38 .wgtSwstat 31 29 = 4)) && decide (s.fld 38 .wgtSwctl 27 27 = set)) ||
  (sideDies side).any (fun d => decide ((s.gold d).clearing = some set))

/-- A refused window write of a die: its cause in WGT_LSTAT, ACCESS in MDA_ERR (R268, R387, R409). -/
def State.refuseRecord (s : State) (md sender cause set r : Nat) : Nat × State :=
  let s := s.addFld md .wgtLstat 47 32 1
  let s := ((s.setFld md .wgtLstat 31 28 cause).setFld md .wgtLstat 27 27 set).setFld md .wgtLstat 16 0 r
  (2, s.mdErr md 14 { sender })

/-- Whether a memory die's partner performs what it forwards: the messages and their answers get there, and the partner's
clocks run (R386). -/
def State.forwards (s : State) (md : Nat) : Bool := s.reaches md (mirror md) && !(s.die (mirror md)).heat.gated

/-- Write bytes of a record at byte `o`: in the copy of the die at `a`, and in the partner's at `a'`, if it performs it. -/
def State.writeCopies (s : State) (md a : Nat) (a' : Option Nat) (o : Nat) (bs : List Byte) : State :=
  let s := s.writeMem md (a + o) bs
  match a' with | some a' => s.writeMem (mirror md) (a' + o) bs | none => s

/-- A write of `bs` at byte `b` of record `r` of a set through the window of a memory die: its status (R350). Bytes past
8,767 are not used. The die performs the write and forwards it; where the partner does not perform it, the write is refused with
MIRROR and stands in the die's own copy (R386, R387). -/
def State.goldWrite (s : State) (md sender set r b : Nat) (bs : List Byte) : Nat × State :=
  let side := sideOf md
  let active := decide (s.activeSet md = set)
  let restore := active && decide (s.fld md .mdaErr 13 13 = 1) && (s.gold md).lost.contains (set, r)
  if s.setBusy side set || (active && !restore) then s.refuseRecord md sender 4 set r
  else
    match s.recordAt md set r with
    | none => s.refuseRecord md sender 5 set r
    | some a =>
      let a' := if s.forwards md then s.recordAt (mirror md) set r else none
      let bs := bs.take (recordSize - b)
      if bs = [] then (0, s)
      else
        let s := s.writeCopies md a a' b bs
        let commit := decide (b = 0) && decide (64 ≤ bs.length)
        let cause := if commit && decide (byteAt bs 1 ≠ 0) then commitCause (s.record md a) else none
        -- a body write, a refused commit, and a write of part of bytes 0 to 63 leave the record invalid (log entry 70)
        let s := if commit && decide (cause = none) then s else s.writeCopies md a a' 1 [0#8]
        let s := if active then s else s.markSet set 0
        match cause.orElse (fun _ => if a'.isNone then some 6 else none) with
        | some c => s.refuseRecord md sender c set r
        | none =>
          if commit && decide (byteAt bs 1 = 1) then
            let s := s.addFld md .wgtLstat 63 48 1
            if restore then
              (0, (sideDies side).foldl (fun s d =>
                let g := s.gold d
                s.setGold d { g with lost := g.lost.filter (fun x => x ≠ (set, r)), rehash := true }) s)
            else (0, s)
          else (0, s)

/-- GOLD_RECORD_WRITE: a write through the window in view P, that a control die passes on from its host port or makes itself
(R390). -/
def execGoldRecordWrite (md set r b : Nat) (bs : List Byte) (s : State) : Out :=
  if 32 ≤ md ∧ md < 36 ∧ set < 2 ∧ r < 131072 ∧ b + bs.length ≤ 0x4000 then
    let (st, s) := s.goldWrite md s.servingDie set r b bs
    .next (s.respond st)
  else .fault .noSuchUnit

/-! ## Copy and clear (R391, R392, R408) -/

/-- The three writes of a record's copy, its header part last. -/
def copyPieces : List (Nat × Nat) := [(4096, 4096), (8192, 576), (0, 4096)]

/-- Send records of a running copy until one is under way, or the copy ends. -/
def State.copyPump (s : State) (md : Nat) : Nat → State
  | 0 => s
  | n + 1 =>
    match (s.gold md).copy with
    | none => s
    | some j =>
      if 0 < j.out then s
      else if j.stop ≤ j.next then
        (s.setGold md { s.gold md with copy := none }).setFld md .wgtMdcmd 62 62 0
      else
        let stored := match s.recordAt md j.sset j.next with
          | some a => byteAt (s.readMem md (a + 1) 1) 0
          | none => 0
        if stored ≠ 1 then (s.setGold md { s.gold md with copy := some { j with next := j.next + 1 } }).copyPump md n
        else
          let (rec, s) := s.refillRead md j.sset j.next
          match rec with
          | none =>
            ((s.setGold md { s.gold md with copy := none }).setFld md .wgtMdcmd 61 61 1).setFld md .wgtMdcmd 62 62 0
          | some b =>
            let base := 0x3F0100000000 + 0x80000000 * j.dset + 0x4000 * j.next
            let s := s.setGold md { s.gold md with copy := some { j with next := j.next + 1, out := 3 } }
            copyPieces.foldl (fun s p =>
              let m : Msg := { type := 2, priv := true, dpkg := j.dpkg, ddie := md, addr := base + p.1, len := p.2,
                               data := (b.drop p.1).take p.2 }
              s.requestWait md 4 (.copy md j.dset) m) s

/-- A write of a copied record has been answered (R391). -/
def State.copyAnswer (s : State) (md status : Nat) : State :=
  let s := if status = 0 then s else s.setFld md .wgtMdcmd 61 61 1
  match (s.gold md).copy with
  | some j => (s.setGold md { s.gold md with copy := some { j with out := j.out - 1 } }).copyPump md 131073
  | none => s

/-- A write of WGT_MDCMD. `meets`: a window write to the target set is performed in the same cycle, and a clear is refused
(R388). -/
def State.mdcmdWrite (s : State) (md v : Nat) (meets : Bool := false) : State :=
  let busy := decide (s.fld md .wgtMdcmd 62 62 = 1)
  let s := s.setReg md .wgtMdcmd (setBits (RegFam.written .wgtMdcmd (s.reg md .wgtMdcmd) v) 63 63 0)
  if !bit v 63 || busy then s
  else
    let dset := bits v 58 58
    if bit v 60 then
      -- the spec names no refusal of a clear but that of R388; those of R393 are taken, as ERR (log entry 71)
      if meets ∨ s.activeSet md = dset ∨ s.setBusy (sideOf md) dset then s.setFld md .wgtMdcmd 61 61 1
      else (s.setGold md { s.gold md with clearing := some dset }).setFld md .wgtMdcmd 62 62 1
    else
      let first := bits v 45 29
      let j : CopyJob := { next := first, stop := min 131072 (first + bits v 28 11), sset := bits v 59 59, dset,
                           dpkg := bits v 57 46 }
      ((s.setGold md { s.gold md with copy := some j }).setFld md .wgtMdcmd 62 62 1).copyPump md 131073

def execGoldCopy (md : Nat) (v : Word64) (s : State) : Out :=
  onMdCmd md s (fun s => (s.mdcmdWrite md (setBits (v.toNat ||| 2 ^ 63) 60 60 0)).respond 0)
/-- GOLD_CLEAR; `meets`: in the cycle in which a window write to the same set is performed. -/
def execGoldClear (md : Request) (v : Word64) (s : State) : Out :=
  onMdCmd md.of s (fun s => (s.mdcmdWrite md.of (v.toNat ||| 2 ^ 63 ||| 2 ^ 60) md.meets).respond 0)

/-- GOLD_CLEAR_DONE. -/
def State.clearDone (s : State) (md : Nat) : State :=
  match (s.gold md).clearing with
  | none => s
  | some set =>
    let s := [md, mirror md].foldl (fun s d => (s.validRecords d set).foldl (fun s r =>
      match s.recordAt d set r with
      | some a => s.writeMem d (a + 1) [0#8]
      | none => s) s) s
    ((s.setGold md { s.gold md with clearing := none }).markSet set 0).setFld md .wgtMdcmd 62 62 0

def execGoldClearDone (md : Nat) (s : State) : Out := onMdCmd md s (fun s => s.clearDone md)

/-! ## Sealing (R382, R383, R393) -/

/-- D_side over one die's copy: digest, count, whether a read was uncorrectable. -/
def State.hashSide (s : State) (md set : Nat) : List Byte × Nat × Bool × State :=
  let rs := s.validRecords md set
  let at_ (r : Nat) : Nat := (s.recordAt md set r).getD 0
  let bad := rs.any (fun r => s.hbmBad md (at_ r) recordSize)
  let bytes := rs.flatMap (fun r => toBytes 4 r ++ s.record md (at_ r))
  (sha384 bytes, rs.length, bad, rs.foldl (fun s r => s.noteEcc md (at_ r) recordSize) s)

/-- The image header in WGT_HDRn. -/
def State.imageHeader (s : State) (set : Nat) : List Byte :=
  (List.range 32).flatMap (fun i => toBytes 8 (s.reg 38 .wgtHdr set i))

/-- The image digest of a header and two side digests (R383). -/
def imageDigest (hdr west east : List Byte) : List Byte :=
  sha384 (hdr.take 72 ++ List.replicate 48 0#8 ++ hdr.drop 120 ++ west ++ east)

/-- A write of WGT_SEAL with GO (R393). `meets`: a window write to the set is performed in the same cycle, and the request is
refused (R388). -/
def State.sealGo (s : State) (set : Nat) (meets : Bool := false) : State :=
  let s := if s.fld 38 .wgtSeal 30 30 = 1 then s else s.setFld 38 .wgtSeal 29 29 set
  let committed := s.fld 38 .wgtSwstat 31 29 = 3 ∨ s.fld 38 .wgtSwstat 31 29 = 4
  if meets ∨ s.fld 38 .wgtSeal 30 30 = 1 ∨ committed ∨ mdIds.any (fun d => (s.gold d).clearing.isSome) ∨ s.activeSet 32 = set then
    s.setFld 38 .wgtSeal 27 24 3
  else (s.setFld 38 .wgtSeal 31 31 1).setFld 38 .wgtSeal 30 30 1

/-- SEAL; `meets`: in the cycle in which a window write to the set is performed. -/
def execSeal (set : Request) (s : State) : Out :=
  if set.of < 2 then .next ((s.sealGo set.of set.meets).respond 0) else .fault .noSuchUnit

/-- SEAL_DONE: the outcome, tested in the order lost, copies, counts, digest (log entry 72). -/
def State.sealDone (s : State) : State :=
  if s.fld 38 .wgtSeal 30 30 = 0 then s
  else
    let set := s.fld 38 .wgtSeal 29 29
    let hdr := s.imageHeader set
    let (w0, nw, b0, s) := s.hashSide 32 set
    let (w1, nw1, b1, s) := s.hashSide 33 set
    let (e0, ne, b2, s) := s.hashSide 34 set
    let (e1, ne1, b3, s) := s.hashSide 35 set
    let lost := mdIds.any (fun d => (s.gold d).lost.any (fun x => decide (x.1 = set)))
    let dig := imageDigest hdr w0 e0
    let res := if b0 || b1 || b2 || b3 || lost then 4
      else if w0 ≠ w1 ∨ e0 ≠ e1 ∨ nw ≠ nw1 ∨ ne ≠ ne1 then 2
      else if nw ≠ numAt hdr 16 4 ∨ ne ≠ numAt hdr 20 4 then 5
      else if dig ≠ (hdr.drop 72).take 48 then 1 else 0
    let s := ((s.setFld 38 .wgtSeal 31 30 0)).setFld 38 .wgtSeal 27 24 res
    if res ≠ 0 then s
    else
      let s := (List.range 6).foldl (fun s i => s.setReg 38 .wgtDig (numAt dig (8 * i) 8) set i) s
      { s with sealed_ := Tab.set [] (Tab.set [] s.sealed_ (2 * set) w0) (2 * set + 1) e0 }.markSet set 1

def execSealDone (s : State) : Out := .next s.sealDone

/-- WGT_HDR_WRITE: word `i` of WGT_HDRn (R403). -/
def State.hdrWrite (s : State) (set i : Nat) (v : Nat) : State :=
  if s.activeSet 32 = set ∨ s.setBusy 0 set ∨ s.setBusy 1 set then s.accessError
  else ((s.setReg 38 .wgtHdr v set i).markSet set 0).respond 0

def execWgtHdrWrite (set i : Nat) (v : Word64) (s : State) : Out :=
  if set < 2 ∧ i < 32 then .next (s.hdrWrite set i v.toNat) else .fault .noSuchUnit

/-! ## Upkeep (R401, R402) -/

/-- GOLD_REPAIR: the oldest queued repair of a memory die copies the good record over the bad one. `meets`: a window write to
the same record is performed in the same cycle; the repair is dropped, and queued again if the record still fails (R401). -/
def State.goldRepair (s : State) (md : Nat) (meets : Bool) : State :=
  match (s.gold md).repairs with
  | [] => s
  | (set, r) :: rest =>
    let s := s.setGold md { s.gold md with repairs := rest }
    let (b, ok, s) := s.tryRecord md set r
    let (b', ok', s) := s.tryRecord (mirror md) set r
    if ok = ok' then s
    else if meets then s.queueRepair md set r
    else
      match s.recordAt md set r, s.recordAt (mirror md) set r with
      | some a, some a' =>
        (if ok then s.writeMem (mirror md) a' b else s.writeMem md a b').addFld md .wgtLstat 26 17 1
      | _, _ => s

def execGoldRepair (md : Request) (s : State) : Out := onMdCmd md.of s (fun s => s.goldRepair md.of md.meets)

/-- GOLD_REHASH_DONE: the rehash of a side after a lost record came back. -/
def State.rehashDone (s : State) (side : Nat) : State :=
  let ds := sideDies side
  if !ds.any (fun d => (s.gold d).rehash) then s
  else
    let set := s.activeSet (32 + 2 * side)
    let (a, _, b0, s) := s.hashSide (32 + 2 * side) set
    let (b, _, b1, s) := s.hashSide (33 + 2 * side) set
    let s := ds.foldl (fun s d => s.setGold d { s.gold d with rehash := false }) s
    let want := Tab.get [] s.sealed_ (2 * set + side)
    if a = want ∧ b = want ∧ !b0 ∧ !b1 then s
    else (ds.foldl (fun s d => s.setFld d .mdaGold (1 + set) (1 + set) 0) s).eventBoth 3 0

def execGoldRehashDone (side : Nat) (s : State) : Out :=
  if side < 2 then .next (s.rehashDone side) else .fault .noSuchUnit

/-! ## The pending switch (R394 to R396) -/

/-- STATE of WGT_SWSTAT: 0 IDLE, 1 ARMED, 2 DRAINED, 3 COMMITTED, 4 SWITCHING, 5 FAILED. -/
def State.swState (s : State) : Nat := s.fld 38 .wgtSwstat 31 29
def State.setSw (s : State) (st : Nat) : State := s.setFld 38 .wgtSwstat 31 29 st
def State.swResult (s : State) (r : Nat) : State := s.setFld 38 .wgtSwstat 27 24 r

/-- Every slot is FREE or QUEUED and no injection is in flight. -/
def State.isDrained (s : State) : Bool :=
  s.slotList.all (fun k => (decide (s.sstate k = 0) || decide (s.sstate k = 7)) && (s.slot k).inj.isNone)

/-- SWITCH_ARM. -/
def State.switchArm (s : State) : State :=
  if s.swState = 0 ∨ s.swState = 5 then s.setSw (if s.isDrained then 2 else 1) else s

def execSwitchArm (s : State) : Out := .next (s.switchArm.respond 0)

/-- SWITCH_DRAINED. -/
def State.switchDrained (s : State) : State := if s.swState = 1 ∧ s.isDrained then s.setSw 2 else s

def execSwitchDrained (s : State) : Out := .next s.switchDrained

/-- The records of a set by core: CD, core and how many. -/
def State.loadOf (s : State) (set : Nat) : Tab Nat :=
  [0, 1].foldl (fun t side => (s.validRecords (32 + 2 * side) set).foldl (fun t r =>
    let (cd, k, _) := recordPlace side r
    Tab.upd 0 t (512 * cd + k) (· + 1)) t) []

/-- Physical engines of a core that are not RETIRED. -/
def State.usable (s : State) (cd k : Nat) : List Nat :=
  (List.range 17).filter (fun p => decide ((s.engine cd k p).state ≠ .retired) && !(s.engine cd k p).fused)

/-- The digest of the staged step-program image. -/
def State.stagedDigest (s : State) : List Byte := (List.range 6).flatMap (fun i => toBytes 8 (s.reg 38 .cmdSdig i))

/-- Why GO is refused (R395), the lowest code. -/
def State.goRefused (s : State) : Option Nat :=
  let set := s.fld 38 .wgtSwctl 27 27
  if s.swState ≠ 2 then some 1
  else if s.fld 38 .wgtSwctl 28 28 = 0 ∧ s.reg 38 .wgtSwstep < (s.die s.generator).wagV.toNat + s.fld 38 .wgtSwctl 15 0 then some 2
  else if mdIds.any (fun d => !s.setValid d set) then some 3
  else if (s.loadOf set).any (fun e => decide ((s.usable (e.1 / 512) (e.1 % 512)).length < e.2)) then some 4
  else if s.fld 38 .cmdStage 63 62 ≠ 2 ∨ s.stagedDigest ≠ ((s.imageHeader set).drop 24).take 48 then some 5
  else none

/-- SWITCH_GO: accepted, it leaves FAILED too (R399). -/
def State.switchGo (s : State) : State :=
  match s.goRefused with
  | some r => s.swResult r
  | none => { s.setSw 3 with switch := { s.switch with failed := false } }

def execSwitchGo (s : State) : Out := .next (s.switchGo.respond 0)

/-- Whether a die is in recovery (R584). -/
def State.recovering (s : State) (die : Nat) : Bool :=
  decide (s.fld die .rasStat 63 61 ≠ 0) && decide (s.fld die .rasStat 63 61 ≠ 7)

/-- The committed step has come, and no recovery holds the switch back (R397, R581). -/
def State.switchDue (s : State) : Bool :=
  (decide (s.fld 38 .wgtSwctl 28 28 = 1) || decide (s.reg 38 .wgtSwstep ≤ (s.die s.generator).wagV.toNat)) &&
  !(List.range 40).any (fun d => s.recovering d)

/-- SWITCH_ABORT: no effect from the cycle on in which the step is reached (R396). A pending switch that FAILED preceded goes
back there: only a GO that R395 accepts leaves FAILED (R399, log entry 179). -/
def State.switchAbort (s : State) : State :=
  if s.swState = 3 ∧ s.switchDue then s
  else if 1 ≤ s.swState ∧ s.swState ≤ 3 then
    if s.switch.failed then (s.setSw 5).swResult 8 else ((s.setSw 0).swResult 8).evalAll
  else s

def execSwitchAbort (s : State) : Out := .next (s.switchAbort.respond 0)

/-- A write of WGT_SWCTL: in COMMITTED only ABORT acts, in SWITCHING nothing (R405, log entry 73). -/
def State.swctlWrite (s : State) (v : Nat) : State :=
  let s := if s.swState = 3 ∨ s.swState = 4 then s
    else
      let s := s.setReg 38 .wgtSwctl (RegFam.written .wgtSwctl (s.reg 38 .wgtSwctl) v % 2 ^ 29)
      let s := if bit v 31 then s.switchArm else s
      if bit v 30 then s.switchGo else s
  if bit v 29 then s.switchAbort else s

/-- SWITCH_START: the committed step has come (R397, R581): the cores stop. -/
def State.switchStart (s : State) : State :=
  if s.swState = 3 ∧ s.switchDue then
    let s := { s.setSw 4 with switch := { startHc := s.hc } }
    s.cores.foldl (fun s e => s.coreStop (e.1 / 512) (e.1 % 512)) s
  else s

def execSwitchStart (s : State) : Out := .next s.switchStart

/-- The switch fails (R399). -/
def State.switchFail (s : State) (r : Nat) : State :=
  let s := (s.setSw 5).swResult r
  let s := { s with loaders := s.loaders.filter (fun l => decide (l.why ≠ 0)), switch := { s.switch with failed := true } }
  let s := (s.setFld 38 .wgtSwstat 20 20 0).alertHost 8
  s.eventBoth 2 (s.reg 38 .wgtSwstat)

end Sys2Proof.Machine
end

