-- ==== Sys2Proof/Machine/Loader.lean ====
section
/-!
DEFINITION. The weight loader, refills and the patrol scrub (R231, R258, R385, R397 steps 4 to 6, R399, R401, R574, R575,
R587).
-/

namespace Sys2Proof.Machine

/-- A record that starts on its way into an engine. -/
def loaderOf (md cd k p l why : Nat) (b : List Byte) : Loader :=
  { md, cd, k, p, l, why, code := byteAt b 0,
    packets := (List.range 136).map (fun i => BitVec.ofNat 512 (numAt b (64 + 64 * i) 64)) }

def State.addLoader (s : State) (x : Loader) : State := { s with loaders := s.loaders ++ [x] }
def State.setLoader (s : State) (n : Nat) (x : Loader) : State := { s with loaders := s.loaders.set n x }
def State.dropLoader (s : State) (n : Nat) : State := { s with loaders := s.loaders.eraseIdx n }

/-- TEMP_HOLD of WGT_SWSTAT follows the held records of a fill (R399). -/
def State.noteHold (s : State) : State :=
  s.setFld 38 .wgtSwstat 20 20 (b2n (s.loaders.any (fun x => decide (x.why = 0) && x.held.isSome)))

/-- Physical engines that a core's other loads and enabled entries take. -/
def State.takenEngines (s : State) (cd k l : Nat) : List Nat :=
  (s.loaders.filter (fun x => decide (x.cd = cd) && decide (x.k = k) && decide (x.l ≠ l))).map (fun x => x.p) ++
  ((List.range 16).filter (fun m => decide (m ≠ l) && (s.mapl cd k m).1)).map (fun m => (s.mapl cd k m).2)

/-- The engine that replaces the one of logical engine `l` (R397 step 4): the lowest that is not RETIRED, not named by another
entry and has not failed this record. -/
def State.chooseEngine (s : State) (cd k l : Nat) (tried : List Nat) : Option Nat :=
  let taken := s.takenEngines cd k l
  (s.usable cd k).find? (fun p => !tried.contains p && !taken.contains p)

/-- Step 4 of R397 for logical engines `ls` of a core, ascending: PHYS stays where it is not RETIRED, and not that of an entry
before it; the others take the lowest engines that are not RETIRED and that no entry names then (log entry 152). -/
def placeEngines (usable : List Nat) (phys : Nat → Nat) (ls : List Nat) : Option (List (Nat × Nat)) :=
  let kept := ls.foldl (fun (c : List (Nat × Nat)) l =>
    if usable.contains (phys l) && !c.any (fun x => decide (x.2 = phys l)) then c ++ [(l, phys l)] else c) []
  ls.foldl (fun o l => o.bind (fun c =>
    if c.any (fun x => decide (x.1 = l)) then some c
    else (usable.find? (fun p => !c.any (fun x => decide (x.2 = p)))).map (fun p => c ++ [(l, p)]))) (some kept)

/-- Step 4 for records of a side: every entry named by one is written with EN = 0 and its engine; none where a core has no
usable engine left. -/
def State.placeRecords (s : State) (side : Nat) (rs : List Nat) : Option State :=
  let cores := (rs.map (fun r => r / 16)).eraseDups
  cores.foldl (fun o q => o.bind (fun s =>
    let (cd, k, _) := recordPlace side (16 * q)
    let ls := (rs.filter (fun r => decide (r / 16 = q))).map (fun r => r % 16)
    (placeEngines (s.usable cd k) (fun l => (s.mapl cd k l).2) ls).map (fun c =>
      c.foldl (fun s x => s.maplWrite cd k x.1 false x.2) s))) (some s)

/-- An engine retires and is put into the record within 1 s (R575, R595). -/
def State.retireEngine (s : State) (cd k p : Nat) : State :=
  let s := s.engRetire cd k p
  { s with plat := { s.plat with retire := s.plat.retire ++ [(cd * 512 + k) * 17 + p] } }

/-- A core of a die is out of spares (R576): every admitted request ends with FAULT, and nothing is served until a switch
(log entry 87). -/
def State.outOfSpares (s : State) (die : Nat) : State :=
  let s := { s with plat := { s.plat with noSpare := true } }
  let s := ((s.setFld 38 .srvCtl 31 31 0).alertHost 10).alert 9
  let s := ((s.setFld die .rasStat 63 61 7).setFld die .rasStat 60 56 0x0B).orReg 38 .rasAlert (2 ^ die)
  s.admitted.foldl (fun s k => s.faultSlot k) s.dropFlight

/-- The packets of loader `n` could not be put into its engine (R385, R397 step 6, R575): a refilled engine is retired, a fill
goes on with another one, and a write through a window completes with ACCESS. -/
def State.loaderFailed (s : State) (n : Nat) (x : Loader) : State :=
  match x.reply with
  | some m => ((s.dropLoader n).fabErr x.cd 1 m m.inp).answer x.cd m 2
  | none =>
    if x.why = 1 then (s.dropLoader n).retireEngine x.cd x.k x.p
    else
      match s.chooseEngine x.cd x.k x.l (x.p :: x.tried) with
      | some p =>
        let s := s.maplWrite x.cd x.k x.l false p
        s.setLoader n { x with p, next := 0, sent := false, held := none, tried := x.p :: x.tried }
      | none =>
        let s := s.dropLoader n
        if x.why = 0 then s.switchFail 6 else s.outOfSpares x.cd

/-- Issue the next packet of loader `n` (R385). -/
def State.loaderIssue (s : State) (n : Nat) (x : Loader) : State :=
  let e := s.engine x.cd x.k x.p
  if e.cmd.isSome then s
  else if x.why ≠ 3 ∧ (e.state = .active ∨ e.state = .retired) then s.loaderFailed n x
  else
    let s := s.engCode x.cd x.k x.p x.code
    let data := x.packets.getD x.next 0
    let i := x.base + x.next
    let chunk := decide (128 ≤ i)
    let index := if chunk then i - 128 else i
    match s.writeRefusal x.cd x.k x.p chunk index data with
    | some 4 => ((s.startWrite x.cd x.k x.p chunk index data).setLoader n { x with held := some (s.fld 38 .hkStat 63 32) }).noteHold
    | some _ => (s.startWrite x.cd x.k x.p chunk index data).loaderFailed n x
    | none => ((s.startWrite x.cd x.k x.p chunk index data).setLoader n { x with sent := true, held := none }).noteHold

/-- LOADER_WRITE: the next event of loader `n`: its command's end, its next packet, or, when every packet is in, the
outcome of the acceptance test. -/
def State.loaderWrite (s : State) (n : Nat) : State :=
  match s.loaders[n]? with
  | none => s
  | some x =>
    let e := s.engine x.cd x.k x.p
    if x.held.isSome ∨ (x.sent ∧ e.cmd.isSome) then s
    else if x.sent ∧ s.fld x.cd .engWcmd 30 28 x.k x.p = 3 then s.loaderFailed n x
    else
      let x := if x.sent then { x with next := x.next + 1, sent := false } else x
      let s := s.setLoader n x
      if x.next < x.packets.length then s.loaderIssue n x
      else
      match x.reply with
      | some m => (s.dropLoader n).answer x.cd m 0
      | none =>
      if x.why = 1 then s.dropLoader n
      -- a FAULTED engine that is LOADED again waits for its acceptance test
      else if e.state = .faulted ∧ !e.loaded then s.loaderFailed n x
      else if e.tested ∧ e.state = .idle then (s.maplWrite x.cd x.k x.l true x.p).dropLoader n
      else s

def execLoaderWrite (n : Nat) (s : State) : Out := .next (s.loaderWrite n)

/-- LOADER_REISSUE: a held packet of loader `n`, once a housekeeping round has passed. -/
def State.loaderReissue (s : State) (n : Nat) : State :=
  match s.loaders[n]? with
  | none => s
  | some x =>
    match x.held with
    | none => s
    | some r => if s.fld 38 .hkStat 63 32 ≤ r then s else s.loaderIssue n x

def execLoaderReissue (n : Nat) (s : State) : Out := .next (s.loaderReissue n)

/-! ## The loader windows (R385) -/

/-- The place of an offset in a loader window: whether it is the physical one, the code, the core, the engine, the byte. -/
def loaderPlace (off : Nat) : Option (Bool × Nat × Nat × Nat × Nat) :=
  if 0x3F0200000000 ≤ off ∧ off < 0x3F0220000000 then
    let d := off - 0x3F0200000000
    let e := d % 0x8000000 / 0x4000
    some (false, d / 0x8000000, e / 16, e % 16, d % 0x4000)
  else if 0x3F0240000000 ≤ off ∧ off < 0x3F0264000000 then
    let d := off - 0x3F0240000000
    let e := d % 0x9000000 / 0x4000
    if e < 8704 then some (true, d / 0x9000000, e / 17, e % 17, d % 0x4000) else none
  else none

/-- A WR of a memory die's reliability engine, in view P, to whole packets of a loader window: its packets are on their way into
the engine, and it is answered when they are in. None where it completes at once, with ACCESS. -/
def State.windowWrite (s : State) (cd : Nat) (m : Msg) : Option State :=
  match loaderPlace m.addr with
  | none => none
  | some (phys, code, k, e, b) =>
    let p := if phys then e else (s.mapl cd k e).2
    let st := (s.engine cd k p).state
    if 32 ≤ cd ∨ m.type ≠ 2 ∨ !m.priv ∨ m.unit ≠ 4 ∨ m.sdie < 32 ∨ 36 ≤ m.sdie ∨ b % 64 ≠ 0 ∨ m.len < 64 ∨ m.len % 64 ≠ 0 ∨
        4096 < m.addr % 4096 + m.len ∨ 8704 < b + m.len ∨ 17 ≤ p ∨ (phys ∧ (st = .active ∨ st = .retired)) then none
    else some (s.addLoader
      { md := m.sdie, cd, k, p, l := e, why := if phys then 4 else 3, code, base := b / 64, reply := some m
        packets := (List.range (m.len / 64)).map (fun i => BitVec.ofNat 512 (numAt m.data (64 * i) 64)) })

/-! ## Refills (R574, R587) -/

/-- REFILL: CD `cd`'s reliability engine writes RAS_REFILL of memory die `md`. -/
def State.refillWrite (s : State) (cd md v : Nat) : State :=
  let d := bits v 55 50
  if cdSide cd ≠ sideOf md ∨ 32 ≤ d ∨ cdSide d ≠ sideOf md then s.accessError
  else if !bit v 63 then s.respond 0
  else
    let g := s.gold md
    -- with 64 queued the write is held, and nothing happens yet
    if 64 ≤ g.refills.length then s
    else (s.setGold md { g with refills := g.refills ++ [⟨d, bits v 49 41, bits v 40 37, bits v 36 32⟩] }).respond 0

def execRefill (cd md : Nat) (v : Word64) (s : State) : Out :=
  if cd < 32 then onMdCmd md s (fun s => s.refillWrite cd md v.toNat) else .fault .noSuchUnit

/-- REFILL_RUN: the oldest queued refill of a memory die. -/
def State.refillRun (s : State) (md : Nat) : State :=
  let g := s.gold md
  match g.refills with
  | [] => s
  | x :: rest =>
    if s.loaders.any (fun l => decide (l.why = 1) && decide (l.md = md)) then s
    else
      let s := s.setGold md { g with refills := rest }
      match s.refillRead md (s.activeSet md) (recordIndex x.cd x.k x.l) with
      | (some b, s) => if x.p < 17 then s.addLoader (loaderOf md x.cd x.k x.p x.l 1 b) else s
      | (none, s) => s

def execRefillRun (md : Nat) (s : State) : Out := onMdCmd md s (fun s => s.refillRun md)

/-! ## Patrol scrub (R231, R258, R401) -/

/-- The offset of burst `i` of stack `st` (0 or 1) of a memory die (R229). -/
def burstAt (st i : Nat) : Nat := 512 * (i / 4) + 256 * st + 64 * (i % 4)

def burstsPerStack : Nat := 603979776

/-- Check a golden record that the scrub has just passed (R258, R401). A record that is not valid in either copy is none. -/
def State.scrubRecord (s : State) (md set r a : Nat) : State :=
  let b := s.record md a
  let valid (d : Nat) : Bool := match s.recordAt d set r with | some o => decide (byteAt (s.readMem d (o + 1) 1) 0 = 1) | none => false
  if (recordOk b && !s.hbmBad md a recordSize) || (decide (byteAt b 1 ≠ 1) && !valid (mirror md)) then s
  else
    let (_, ok, t) := (s.addFld md .mdaGold 31 16 1).tryRecord (mirror md) set r
    if ok then t.queueRepair md set r
    -- R258 raises GOLD_LOST for the set that refills read
    else if s.activeSet md = set ∧ byteAt b 1 = 1 then t.goldLost md set r else t

/-- HBM_SCRUB_BURST: stack `st` of a memory die reads its next burst; a corrected codeword is written back. -/
def State.scrubBurst (s : State) (md st : Nat) : State :=
  let m := s.md md
  let i := if st = 0 then m.scrub0 else m.scrub1
  let j := (i + 1) % burstsPerStack
  let s := s.setMd md (if st = 0 then { m with scrub0 := j } else { m with scrub1 := j })
  let a := burstAt st i
  let s := s.noteEcc md a 64
  let s := (s.hbmErrs md a 64).foldl (fun s e =>
    -- the whole codeword is written back
    if e.2 = 1 then s.clearErr (pkgAddr md e.1) 32 else s) s
  [0, 1].foldl (fun s set =>
    match s.recordAt md set 0 with
    | none => s
    | some base =>
      let r := (a - base) / recordSize
      match s.recordAt md set r with
      | some o => if base ≤ a ∧ a < o + recordSize ∧ o + recordSize ≤ a + 64 then s.scrubRecord md set r o else s
      | none => s) s

def execHbmScrubBurst (md st : Nat) (s : State) : Out :=
  if st < 2 then onMdCmd md s (fun s => s.scrubBurst md st) else .fault .noSuchUnit

end Sys2Proof.Machine
end

