-- ==== Sys2Proof/Machine/Clocks.lean ====
section
/-!
DEFINITION. Clock losses and the waggle counter (R487, R489 to R499, R632).
-/

namespace Sys2Proof.Machine

/-- A command of one die (R10). -/
def onDie (die : Nat) (s : State) (f : State → State) : Out := if die < 40 then .next (f s) else .fault .noSuchUnit

/-! ## Steps (R489, R490, R632) -/

/-- Reference cycles of step `v` of a die: 100, or one fewer or more when it is adjusted. -/
def DieSt.stepLen (d : DieSt) (v : Nat) : Nat :=
  match d.adj.find? (fun a => decide (a.1 = v)) with
  | some (_, a) => (100 + a).toNat
  | none => 100

/-- The hclk time at which a die's copy will reach `n` steps more. -/
def DieSt.boundary (d : DieSt) (n : Nat) : Nat :=
  (List.range n).foldl (fun h i => h + d.stepLen (d.wagV.toNat + i)) d.stepHc

/-- Scheduled adjustments not yet applied, a shortened step counting +1 (R494, R506). -/
def DieSt.pendingAdj (d : DieSt) : Int := -(sumInt (d.adj.map (fun a => a.2)))

def State.notePending (s : State) : State := s.setFld 38 .wagStat 23 16 (unsigned 8 (s.die s.generator).pendingAdj)

/-- WAGGLE_STEP: the next step boundary of a die, at its enabled cycle `cc`; an INVALID copy starts at its start step. -/
def State.waggleStep (s : State) (die cc : Nat) : State :=
  let d := s.die die
  let c := max d.cc cc
  if d.heat.gated ∨ d.heat.tripped then s
  else if d.wagValid then
    let h := d.boundary 1
    let s := s.setDie die { d with
      wagV := d.wagV + 1
      stepHc := h
      cc := c
      stepCc := c
      adj := d.adj.filter (fun a => decide (d.wagV.toNat < a.1)) }
    let s := s.toHc h
    if die = s.generator then s.notePending else s
  else
    match d.wagStart with
    | some (v, h) =>
      (s.setDie die { d with
        wagValid := true
        wagV := BitVec.ofNat 64 v
        stepHc := h
        cc := c
        stepCc := c
        wagStart := none
        adj := [] }).toHc h
    | none => s

def execWaggleStep (die cc : Nat) (s : State) : Out := onDie die s (fun s => s.waggleStep die cc)

/-- WAGGLE_START: a die other than KD0 receives its start value and step, `lead` steps ahead of KD0's copy. -/
def State.waggleStart (s : State) (die lead : Nat) : State :=
  let k := s.die s.generator
  if die = s.generator ∨ !k.wagValid ∨ lead < 16 then s
  else s.setDie die { s.die die with wagStart := some (k.wagV.toNat + lead, k.boundary lead) }

def execWaggleStart (die lead : Nat) (s : State) : Out := onDie die s (fun s => s.waggleStart die lead)

/-- The first step from `v` on that no adjustment names. -/
def freeStep (adj : List (Nat × Int)) : Nat → Nat → Nat
  | 0, v => v
  | n + 1, v => if adj.any (fun a => decide (a.1 = v)) then freeStep adj n (v + 1) else v

/-- WAGGLE_ADJUST: the oldest adjustment on its way to a die arrives; a late one acts at the next boundary. -/
def State.waggleAdjust (s : State) (die : Nat) : State :=
  let d := s.die die
  match d.adjIn with
  | [] => s
  | (v, a) :: rest =>
    let d := { d with adjIn := rest }
    if !d.wagValid then s.setDie die d
    else if d.wagV.toNat ≤ v then s.setDie die { d with adj := d.adj ++ [(v, a)] }
    else
      let v' := freeStep d.adj d.adj.length d.wagV.toNat
      (s.setDie die { d with adj := d.adj ++ [(v', a)] }).setFld die .wagErr 2 2 1

def execWaggleAdjust (die : Nat) (s : State) : Out := onDie die s (fun s => s.waggleAdjust die)

/-- WAG_CAPTURE (R497). -/
def State.wagCapture (s : State) (die : Nat) : State :=
  let d := s.die die
  let s := s.setReg die .wagCapv d.wagV.toNat
  s.setFld die .wagCapp 6 0 (if d.wagValid then min 100 (s.hc - d.stepHc) else 0)

def execWagCapture (die : Nat) (s : State) : Out := onDie die s (fun s => (s.wagCapture die).respond 0)

/-! ## The swarm (R492 to R499) -/

/-! The generator's copy is KD0's, and KD1's once KD1 has taken over, which goes on without a jump (R490, R580). -/

/-- STATE of WAG_STAT on KD0: 0 INVALID, 1 ACQUIRING, 2 LOCKED, 3 HOLDOVER. -/
def State.wagState (s : State) : Nat := s.fld 38 .wagStat 31 29
def State.setWag (s : State) (st : Nat) : State := s.setFld 38 .wagStat 31 29 st
def State.wagMaster (s : State) : Bool := decide (s.fld 38 .wagStat 28 28 = 1)
/-- 0 follower, 1 primary master, 2 secondary master. -/
def State.wagRole (s : State) : Nat := s.fld 38 .wagCfg 31 30

/-- A stamp in units of 1.25 ns: a die's V, and the phase in fabric cycles. -/
def State.stamp (s : State) (die ph : Nat) : Int := ((800 * (s.die die).wagV.toNat + ph : Nat) : Int)

/-- Half of an integer, rounded to nearest; which way a tie goes is not stated (log entry 14). -/
def State.halve (s : State) (x : Int) (d : Nat) : Int × State :=
  let q := (2 * x + d) / (2 * d)
  if (2 * x + d) % (2 * d) = 0 then
    (if Config.tie s.draws then q else q - 1, { s with draws := s.draws + 1 })
  else (q, s)

/-- Put a control flit on a port (R493): `bs` from byte 4 on. -/
def State.sendCtl (s : State) (die p : Nat) (bs : List Byte) : State :=
  let e := s.port die p
  s.setPort die p (e.keep bs)

/-- SYNC_REQ_DUE: the request on the upstream port, or on the alternate one; `ph` is the phase at transmission. -/
def State.syncReqDue (s : State) (alt : Bool) (ph : Nat) : State :=
  let cfg := s.reg 38 .wagCfg
  let P := if alt then bits cfg 28 24 else bits cfg 20 16
  let die := 36 + P / 16
  let v := (s.die s.generator).wagV.toNat
  let y := s.sync
  let idle := s.wagMaster && decide (s.wagRole ≠ 2)
  let early := decide (s.wagState ≠ 0) && !alt && decide (v < y.lastReq + 32)
  -- the alternate port is used only while the upstream port yields nothing
  let barred := alt && (!bit cfg 29 || decide (v < y.lastUp + 1024))
  if idle || early || barred || (s.portState die (P % 16) ≠ 2 && s.portState die (P % 16) ≠ 3) then s
  else
    let seq := (y.seq + 1) % 256
    let reqs := y.reqs.filter (fun r => decide ((r.1, r.2.1) ≠ (die, P % 16))) ++ [(die, P % 16, seq, s.stamp die ph)]
    let s := { s with sync := { y with seq := seq, lastReq := v, reqs := reqs } }
    s.sendCtl die (P % 16) [0x02#8, 0#8, BitVec.ofNat 8 seq]

def execSyncReqDue (alt : Bool) (ph : Nat) (s : State) : Out :=
  if ph < 808 then .next (s.syncReqDue alt ph) else .fault .noSuchUnit

/-- An LD's port (R10, R356). -/
def onPort (die p : Nat) (s : State) (f : State → State) : Out :=
  if (die = 36 ∨ die = 37) ∧ p < 16 then .next (f s) else .fault .noSuchUnit

/-- SYNC_REQ: the answer, stamped at reception with phase `ph2` and `steps` (at most 4) later with phase `ph3`. -/
def State.syncReq (s : State) (die p seq ph2 steps ph3 : Nat) : State :=
  let v := (s.die die).wagV.toNat
  let flags := b2n (decide (s.wagState = 2)) + 2 * b2n s.wagMaster
  s.sendCtl die p ([0x03#8, BitVec.ofNat 8 flags, BitVec.ofNat 8 seq, 0#8] ++ toBytes 8 v ++ toBytes 2 ph2 ++
    toBytes 6 0 ++ toBytes 8 (v + min steps 4) ++ toBytes 2 ph3)

def execSyncReq (die p seq ph2 steps ph3 : Nat) (s : State) : Out :=
  if seq < 256 ∧ ph2 < 808 ∧ ph3 < 808 ∧ steps ≤ 4 then onPort die p s (fun s => s.syncReq die p seq ph2 steps ph3)
  else .fault .noSuchUnit

/-- Schedule shortened (positive) or lengthened steps for an offset in units of 0.625 ns, less those already scheduled
(R494). -/
def State.schedule (s : State) (off2 : Int) : State :=
  let k := s.die s.generator
  let (n, s) := s.halve (off2 - 16 * k.pendingAdj) 16
  let last := k.adj.foldl (fun m a => max m (a.1 + 4)) (k.wagV.toNat + 16)
  let a : Int := if 0 ≤ n then -1 else 1
  let steps := (List.range n.natAbs).map (fun i => (last + 4 * i, a))
  let s := s.setDie s.generator { k with adj := k.adj ++ steps }
  let s := (List.range 40).foldl (fun s d =>
    if d = s.generator ∨ steps = [] ∨ !(s.die d).wagValid then s else s.setDie d { s.die d with adjIn := (s.die d).adjIn ++ steps }) s
  s.notePending

/-- Load OFFSET from an offset in units of 0.625 ns. -/
def State.loadOffset (s : State) (off2 : Int) : State :=
  let (o, s) := s.halve off2 2
  s.setFld 38 .wagStat 15 0 (unsigned 16 (max (-0x7FFF) (min 0x7FFF o)))

/-- An offset in LOCKED or HOLDOVER: one above 100 µs sets UNLOCK, and the copy slews (R494, R495). -/
def State.slew (s : State) (off2 : Int) : State :=
  (if 160000 < off2.natAbs then (s.setFld 38 .wagErr 1 1 1).alertHost 0 else s).schedule off2

/-- An offset that PKG_SYNC gives steers the copy in LOCKED and in HOLDOVER, as an exchange's does (R494, R499). -/
def State.useOffset (s : State) (off2 : Int) : State :=
  let s := s.loadOffset off2
  if 2 ≤ s.wagState then s.slew off2 else s

/-- Set KD0's copy to a time in units of 1.25 ns and restart the package (R490, R495). -/
def State.setCopy (s : State) (t : Int) : State :=
  let t := t.toNat
  let s := s.setDie s.generator { s.die s.generator with
    wagValid := true
    wagV := BitVec.ofNat 64 (t / 800)
    stepHc := s.hc - t % 800 / 8
    stepCc := (s.die s.generator).cc
    adj := [] }
  (List.range 40).foldl (fun s d =>
    if d = s.generator ∨ !(s.die d).wagValid then s
    else s.setDie d { s.die d with wagValid := false, wagV := 0, wagStart := none, adj := [], adjIn := [] }) s

/-- A usable response: offset and delay, doubled, in units of 1.25 ns (R494, R495, R498). -/
def State.usableRsp (s : State) (master : Bool) (up : Bool) (t3 off2 delay2 : Int) : State :=
  let s := s.loadOffset off2
  let near := decide (off2.natAbs ≤ 160)
  let s :=
    match s.wagState with
    | 0 => (s.setWag 1).setCopy (t3 + delay2 / 2)
    | 1 =>
      let g := if near then s.sync.good + 1 else 0
      let s := { s with sync := { s.sync with good := g } }
      if 8 ≤ g then
        let s := s.setWag 2
        if s.wagRole = 1 then s.setFld 38 .wagStat 28 28 1 else s
      else s.setCopy (t3 + delay2 / 2)
    | _ =>
      let s := if master && up && decide (s.wagRole = 2) then s.setFld 38 .wagStat 28 28 0 else s
      (s.setWag 2).slew off2
  let v := (s.die s.generator).wagV.toNat
  { s with sync := { s.sync with lastAny := v, lastUp := if up then v else s.sync.lastUp } }

/-- SYNC_RSP: a response on a port, received at phase `ph4`. -/
def State.syncRsp (s : State) (die p seq : Nat) (locked master : Bool) (v2 ph2 v3 ph3 ph4 : Nat) : State :=
  match s.sync.reqs.find? (fun r => decide ((r.1, r.2.1, r.2.2.1) = (die, p, seq))) with
  | none => s
  | some (_, _, _, t1) =>
    let s := { s with sync := { s.sync with reqs := s.sync.reqs.filter (fun r => decide ((r.1, r.2.1, r.2.2.1) ≠ (die, p, seq))) } }
    let up := decide (s.fld 38 .wagCfg 20 16 = portNo die p)
    -- a package that acts as master gives way only to the primary (R498)
    if !locked || (s.wagMaster && !(master && up && decide (s.wagRole = 2))) then s
    else
      let t2 : Int := ((800 * v2 + ph2 : Nat) : Int)
      let t3 : Int := ((800 * v3 + ph3 : Nat) : Int)
      let t4 := s.stamp die ph4
      s.usableRsp master up t3 ((t2 - t1) - (t4 - t3)) ((t2 - t1) + (t4 - t3))

def execSyncRsp (die p seq : Nat) (locked master : Bool) (v2 ph2 v3 ph3 ph4 : Nat) (s : State) : Out :=
  onPort die p s (fun s => s.syncRsp die p seq locked master v2 ph2 v3 ph3 ph4)

/-- MASTER_TIMEOUT at hclk time `h`. -/
def State.masterTimeout (s : State) (h : Nat) : State :=
  if s.wagRole = 1 ∧ s.wagState = 0 ∧ s.sync.bringup + 1000000 ≤ h then
    let s := ((s.toHc h).setWag 2).setFld 38 .wagStat 28 28 1
    s.setDie s.generator { s.die s.generator with wagValid := true, wagV := 0, stepHc := h, stepCc := (s.die s.generator).cc, adj := [] }
  else s

def execMasterTimeout (h : Nat) (s : State) : Out := .next (s.masterTimeout h)

/-- SYNC_HOLDOVER. -/
def State.syncHoldover (s : State) : State :=
  let v := (s.die s.generator).wagV.toNat
  if s.wagState = 2 ∧ !s.wagMaster ∧ s.sync.lastUp + 2048 ≤ v ∧ s.sync.lastAny + 1024 ≤ v then
    let s := (s.setFld 38 .wagErr 0 0 1).setWag 3
    if s.wagRole = 2 then (s.setFld 38 .wagStat 28 28 1).setWag 2 else s
  else s

def execSyncHoldover (s : State) : Out := .next s.syncHoldover

/-- PKG_SYNC_EDGE: a rising edge at hclk time `h` that stays high for `high` ns. -/
def State.pkgSyncEdge (s : State) (h high : Nat) : State :=
  if s.fld 38 .wagExt 31 31 = 0 ∨ s.wagRole ≠ 1 ∨ !(s.die s.generator).wagValid then s
  else
    let s := s.toHc h
    let per := 100 * s.fld 38 .wagExt 23 0
    let was := s.sync.edge
    let s := { s with sync := { s.sync with edge := some h } }
    let wrong : Bool := match was with
      | some g => decide (per < 1000 * ((h - g : Nat) - (per : Int)).natAbs)
      | none => false
    if wrong || decide (high < 100) then s.setFld 38 .wagErr 3 3 1
    else
      let k := s.die s.generator
      let t := 100 * k.wagV.toNat + (h - k.stepHc)
      let near := (2 * t + per) / (2 * per) * per
      s.useOffset (16 * ((near : Int) - (t : Int)))

def execPkgSyncEdge (h high : Nat) (s : State) : Out := .next (s.pkgSyncEdge h high)

/-! ## Losses (R487) -/

/-- PLL_LOSS: every clock of the die is gated, and a die fault is reported. -/
def State.pllLoss (s : State) (die : Nat) : State :=
  let s := (s.setFld die .clkErr 1 1 1).setFld die .clkStat 31 31 0
  let s := s.setDie die { s.die die with heat := { (s.die die).heat with gated := true } }
  let s := if die < 36 then s.faultA die 7 else s
  s.alertHost 1

def execPllLoss (die : Nat) (s : State) : Out := onDie die s (fun s => s.pllLoss die)

/-- REF_LOSS. -/
def State.refLoss (s : State) : State :=
  let s := (List.range 40).foldl (fun s d => s.setFld d .clkStat 30 30 0) s
  ((s.setFld 38 .clkErr 0 0 1).setFld 39 .clkErr 0 0 1).alertHost 1

def execRefLoss (s : State) : Out := .next s.refLoss

/-- FORWARDED_CLOCK_LOSS: the partner of link `l` has stopped its clocks. -/
def State.clockLoss (s : State) (die l : Nat) : State :=
  match partner die l with
  | some (d, _) => if (s.die d).heat.gated ∨ (s.die d).heat.tripped then s.linkDown die l else s
  | none => s

def execForwardedClockLoss (die l : Nat) (s : State) : Out :=
  if l < 8 then onDie die s (fun s => s.clockLoss die l) else .fault .noSuchUnit

end Sys2Proof.Machine
end

