-- ==== Sys2Proof/Machine/Power.lean ====
section
/-!
DEFINITION. The power governor, the thermal controllers and the critical trip (R511 to R535).
-/

namespace Sys2Proof.Machine

/-! ## The governor (R513 to R515) -/

/-- The engine allowance of a CD after a loop step of `p` (units of 0.125 W), by the passes that started in it (R514); powers
are counted in units of 10^−8 W. -/
def State.allowance (s : State) (cd p : Nat) : Int × Nat :=
  let passes := (s.die cd).heat.passes
  let lim := s.fld cd .pwrLim 11 0
  let margin := s.fld cd .pwrLim 31 24
  let other := max 0 (((p * 12500000 : Nat) : Int) - ((passes * 16384 : Nat) : Int))
  let room := ((lim : Int) - (margin : Int)) * 100000000 - other
  let aMax := room / 3276800
  let rise := s.fld cd .pwrStat 47 32 + s.fld cd .pwrLim 23 12
  (aMax, (max 512 (min 8192 (min aMax (rise : Int)))).toNat)

/-- CORE_ACT.CAP of a core as the governor sets it; a fall below the limit acts at once (R100). -/
def State.setCap (s : State) (cd k cap : Nat) : State :=
  let c := s.core cd k
  if c.cap = cap then s
  else s.setCore cd k (if c.gated ∨ c.lim ≤ cap then { c with cap := cap }
    else { c with cap := cap, lim := cap, rampT := (s.die cd).cc })

/-- A loop step's power into PWR_STAT. -/
def State.notePower (s : State) (die p : Nat) (limited : Bool) : State :=
  let s := (s.setFld die .pwrStat 63 63 (b2n limited)).setFld die .pwrStat 15 0 p
  let s := s.setFld die .pwrStat 31 16 (max (min p 0xFFFF) (s.fld die .pwrStat 31 16))
  if die = 36 ∨ die = 37 then s else s.sample die 6 (p : Int)

/-- The package's input power of the same microsecond, in W (R511, R529, R530). -/
def State.inputPower (s : State) (pin : Nat) : State :=
  let s := s.setFld 38 .pwrPkgstat 47 32 (max (min pin 0xFFFF) (s.fld 38 .pwrPkgstat 47 32))
  let recent := s.plat.overs.filter (fun h => decide (s.hc < h + 10000000))
  let overs := if 6500 < pin then recent ++ [s.hc] else recent
  let s := { s with plat := { s.plat with overs } }
  if 10000 < overs.length then s.setFld 38 .pwrErr 2 2 1 else s

/-- GOVERNOR_STEP: one loop step of a die that ends at hclk time `h`. -/
def State.governorStep (s : State) (die h p pin : Nat) : State :=
  let s := s.toHc h
  let s := if die = 38 then s.inputPower pin else s
  if die < 32 then
    let prev := s.fld die .pwrStat 47 32
    let (aMax, a) := s.allowance die p
    let limited := decide (aMax < ((min 8192 (prev + s.fld die .pwrLim 23 12) : Nat) : Int))
    let start := (s.die die).heat.start
    let s := (List.range 512).foldl (fun s i =>
      s.setCap die ((start + i) % 512) (a / 512 + (if i < a % 512 then 1 else 0))) s
    let s := s.setDie die { s.die die with heat := { (s.die die).heat with start := (start + a % 512) % 512, passes := 0 } }
    (s.setFld die .pwrStat 47 32 a).notePower die p limited
  else
    let was := (s.die die).heat.skip
    let above := decide (8 * (s.fld die .pwrLim 11 0 - s.fld die .pwrLim 31 24) < p)
    let s := s.setDie die { s.die die with heat := { (s.die die).heat with skip := above } }
    s.notePower die p was

/-- GOVERNOR_STEP: the die measures `w` W and `f` eighths, PWR_STAT's unit, and the package takes `pin` W. -/
def execGovernorStep (die h w f pin : Nat) (s : State) : Out := onDie die s (fun s => s.governorStep die h (8 * w + f) pin)

/-! ## Thermal control (R518 to R523) -/

/-- One threshold's update: active since, for a temperature in units of 0.125 °C. -/
def threshold (was : Option Nat) (T lim : Int) (h : Nat) : Option Nat :=
  match was with
  | none => if lim ≤ T then some h else none
  | some e => if T ≤ lim - 24 ∧ e + 100000 ≤ h then none else some e

/-- The level of R521: 1 while the external throttle acts, from the time on at which its assertion began. -/
def State.outerLevel (s : State) (h : Nat) : Nat :=
  if s.plat.throttleFrom ≤ h ∧ (s.plat.throttle ∨ h < s.plat.throttleUntil) then 1 else 0

/-- A valid reading (R518). -/
def validTemp : Option Int → Bool
  | some t => decide (-320 ≤ t) && decide (t ≤ 1200)
  | none => false

/-- The core-side divisor of level 2 (R520). -/
def Thermal.divide (x : Thermal) (T : Int) (h : Nat) : Thermal :=
  if x.lvl2.isNone then { x with hot := none, div8 := none }
  else
    match x.div8 with
    | some e => if T ≤ 776 ∧ e + 100000 ≤ h then { x with hot := none, div8 := none } else x
    | none =>
      let hot := if 800 ≤ T then some (x.hot.getD h) else none
      match hot with
      | some e => if e + 1000000 ≤ h then { x with hot := none, div8 := some h } else { x with hot }
      | none => { x with hot }

/-- THERMAL_SAMPLE: the 8 readings of a die in units of 0.125 °C; none is a conversion fault. -/
def State.thermalSample (s : State) (die h : Nat) (ts : List (Option Int)) : State :=
  let s := s.toHc h
  let s := (List.range 8).foldl (fun s i =>
    let t := ts.getD i none
    let s := s.setFld die .thmSens 31 31 (b2n (validTemp t)) i
    match t with
    | some x => s.setFld die .thmSens 15 0 (unsigned 16 x) i
    | none => s) s
  let good := (ts.take 8).filterMap (fun t => if validTemp t then t else none)
  let failed := (s.die die).heat.failed || decide (good.length < 6)
  let newFail := decide (good.length < 6) && decide (s.fld die .thmStat 27 27 = 0)
  let T : Int := if failed then 800 else good.foldl max (-320)
  let x := { (s.die die).heat with failed }
  let y := { x with warn := threshold x.warn T 720 h, lvl1 := threshold x.lvl1 T 760 h, lvl2 := threshold x.lvl2 T 800 h }
  let y := y.divide T h
  let s := s.setDie die { s.die die with heat := y }
  let inner := if y.lvl2.isSome then 2 else if y.lvl1.isSome then 1 else 0
  let level := max inner (s.outerLevel h)
  let warnIn := x.warn.isNone && y.warn.isSome
  let l2In := x.lvl2.isNone && y.lvl2.isSome
  let l1In := decide (s.fld die .thmStat 31 30 = 0) && decide (level = 1)
  let s := s.orReg die .thmEvt (b2n warnIn + 2 * b2n (l1In || (x.lvl1.isNone && y.lvl1.isSome)) + 4 * b2n l2In + 8 * b2n newFail)
  let s := s.setFld die .thmStat 31 30 level
  let s := s.setFld die .thmStat 29 29 (b2n (y.div8.isSome && decide (die ≠ 36) && decide (die ≠ 37)))
  let s := s.setFld die .thmStat 28 28 (b2n y.warn.isSome)
  let s := s.setFld die .thmStat 27 27 (b2n failed)
  let s := s.setFld die .thmStat 15 0 (unsigned 16 T)
  let s := s.setFld die .thmStat 26 26 (b2n (s.writePermitted die))
  let s := if die = 36 ∨ die = 37 then s
    else (s.setFld die .clkStat 27 24 (if y.div8.isSome then 8 else if y.lvl2.isSome then 4 else 2)).sample die 7 T
  if newFail || l2In || (warnIn && decide (s.fld die .thmCfg 31 31 = 1)) then s.alertHost 4 else s

/-- A tripped die is held in reset since the PWROK that followed its trip (R524). -/
def State.tripHeld (s : State) (die : Nat) : Bool :=
  (s.die die).heat.tripped && s.plat.vin && s.plat.pwrok && !s.plat.thermtrip

/-- The hold ends: the die's clocks run, and its links with dies that run train. -/
def State.tripRelease (s : State) (die : Nat) : State :=
  let s := s.setDie die { s.die die with heat := { (s.die die).heat with tripped := false, gated := false } }
  let s := s.setFld die .clkStat 31 30 3
  (List.range 6).foldl (fun s l =>
    match partner die l with
    | some (x, _) => if (s.die x).heat.gated then s else s.setLinkState die l (if s.linkWidth die l = fullWidth die l then 2 else 3) (s.linkWidth die l)
    | none => s) s

/-- The sample of a die: its controller's while its clocks run; of a die held after a trip, the readings that may end the hold
(R524). -/
def State.sampleDie (s : State) (die h : Nat) (ts : List (Option Int)) : State :=
  if !(s.die die).heat.gated then s.thermalSample die h ts
  else
    let s := s.toHc h
    if s.tripHeld die && ts.all (fun t => match t with | some x => decide (x ≤ 840) | none => false) then s.tripRelease die else s

def execThermalSample (die h : Nat) (ts : List (Option Int)) (s : State) : Out :=
  if ts.length = 8 then onDie die s (fun s => s.sampleDie die h ts) else .fault .noSuchUnit

/-- THROTTLE_N is driven low while any die is at level 1 or 2 (R522). -/
def State.throttleLow (s : State) : Bool := (List.range 40).any (fun d => decide (1 ≤ s.fld d .thmStat 31 30))

/-- Some sideband pin is the external throttle input (R602). -/
def State.hasThrottleIn (s : State) : Bool :=
  [38, 39].any (fun kd => (List.range 8).any (fun i => decide (s.fld kd .pinSbcfg 31 28 i = 5)))

/-- The external throttle input will be asserted from hclk time `h` on (R603); the next thermal samples see it. -/
def State.throttleLater (s : State) (h : Nat) : State :=
  if s.plat.throttle then s
  else { s with plat := { s.plat with throttle := true, throttleFrom := h, throttleUntil := h + 100000 } }

/-- The external throttle input is asserted or released at hclk time `h` (R521). -/
def State.throttleIn (s : State) (on : Bool) (h : Nat) : State :=
  let s := s.toHc h
  if on then
    let s := { s with plat := { s.plat with throttle := true, throttleFrom := h, throttleUntil := h + 100000 } }
    (List.range 40).foldl (fun s d =>
      if s.fld d .thmStat 31 30 = 0 then (s.setFld d .thmStat 31 30 1).orReg d .thmEvt 2 else s) s
  else { s with plat := { s.plat with throttle := false } }

def execThrottleInChange (on : Bool) (h : Nat) (s : State) : Out :=
  .next (if s.hasThrottleIn ∨ !on then s.throttleIn on h else s)

/-! ## Trips and supply errors (R511, R524, R530) -/

/-- THERMAL_TRIP: the dies of a mask trip in one sample; stage 1 turns off and every die stops. -/
def State.thermalTrip (s : State) (dies : Nat) : State :=
  let ds := onesFrom 40 dies 0
  if ds = [] then s
  else
    let s := (s.orReg 38 .thmTrip (dies % 2 ^ 40)).setFld 38 .thmTrip 63 63 1
    let s := ds.foldl (fun s d => s.setDie d { s.die d with heat := { (s.die d).heat with tripped := true } }) s
    let s := (List.range 40).foldl (fun s d => s.setDie d { s.die d with heat := { (s.die d).heat with gated := true } }) s
    { s with plat := { s.plat with thermtrip := true } }

def execThermalTrip (dies : Nat) (s : State) : Out := .next (s.thermalTrip dies)

def execInputUndervoltage (s : State) : Out := .next ((s.setFld 38 .pwrErr 0 0 1).alertHost 2)
def execInputOvervoltage (s : State) : Out := .next ((s.setFld 38 .pwrErr 1 1 1).alertHost 2)
def execVrFault (s : State) : Out := .next (s.setFld 38 .pwrErr 3 3 1)

/-- The package cap sets the limit of every CD once per round; EN = 0 restores 150 W (R517). -/
def State.applyPkgCap (s : State) (wasOn : Bool) : State :=
  let cap := s.reg 38 .pwrPkgcap
  let on := bit cap 31
  if !on && !wasOn then s
  else
    let lim : Int := if on then min 150 (max 40 (((23 * (bits cap 12 0) : Nat) : Int) - 23750) / 800) else 150
    (List.range 32).foldl (fun s d => s.setFld d .pwrLim 11 0 lim.toNat) s

end Sys2Proof.Machine
end

