-- ==== Sys2Proof/Machine/Housekeeping.lean ====
section
/-!
DEFINITION. The housekeeping converters, the housekeeping round, calibration and its records in flash (R536 to R565).
-/

namespace Sys2Proof.Machine

/-! ## Flash -/

/-- Byte `a` of the SPI flash. -/
def State.flashByte (s : State) (a : Nat) : Byte := Tab.get 0#8 s.plat.flash a ^^^ 0xFF#8
def State.readFlash (s : State) (a n : Nat) : List Byte := (List.range n).map (fun i => s.flashByte (a + i))
/-- Erase `n` bytes of flash: an erased byte reads 0xFF. -/
def State.eraseFlash (s : State) (a n : Nat) : State :=
  { s with plat := { s.plat with flash := Tab.keep (fun k => !(decide (a ≤ k) && decide (k < a + n))) s.plat.flash } }
/-- Program bytes into erased flash. -/
def State.programFlash (s : State) (a : Nat) (bs : List Byte) : State :=
  { s with plat := { s.plat with flash := Memory.write s.plat.flash a (bs.map (fun b => b ^^^ 0xFF#8)) } }
/-- Bytes that the spec leaves open (log entry 12). -/
def State.drawBytes (s : State) (n : Nat) : List Byte × State :=
  ((List.range n).flatMap (fun i => toBytes 8 (Config.undefinedValue (s.draws + i)).toNat), { s with draws := s.draws + n })

/-! ## Conversions (R536 to R542) -/

def State.hk (s : State) (kd : Nat) : Hk := if kd = 38 then s.plat.hk0 else s.plat.hk1
def State.setHk (s : State) (kd : Nat) (x : Hk) : State :=
  if kd = 38 then { s with plat := { s.plat with hk0 := x } } else { s with plat := { s.plat with hk1 := x } }

/-- What a slot of a converter does (R538). -/
inductive SlotUse where
  /-- A normal conversion of a channel; whether it is the channel's last of the round. -/
  | normal (ch : Nat) (last : Bool)
  | ground
  | reference
  | upTest (i : Nat)
  | downTest (i : Nat)
  | none
  deriving DecidableEq, Repr

def slotUse (conv t : Nat) : SlotUse :=
  let gr := if t % 2 = 0 then SlotUse.ground else .reference
  if conv = 0 then
    if t < 464 then .normal (t % 8) (decide (456 ≤ t))
    else if t < 474 then gr
    else if t < 482 then .upTest (t - 474)
    else if t < 492 then gr
    else if t < 500 then .downTest (t - 492)
    else .none
  else if t < 480 then .normal (8 + t % 8) (decide (472 ≤ t))
  else if t < 500 then gr
  else .none

/-- HK_XCFG fields in force: input i's OW_EN and ALERT_EN, and whether it belongs to a differential pair. -/
def Hk.openWire (x : Hk) (i : Nat) : Bool := !bit (x.cfg >>> (32 * i)) 31
def Hk.alertOn (x : Hk) (i : Nat) : Bool := !bit (x.cfg >>> (32 * i)) 30
def Hk.diff (x : Hk) (i : Nat) : Bool := bit (x.cfg >>> (64 * (i / 2))) 29

/-- The channel converts differentially. -/
def Hk.differential (x : Hk) (ch : Nat) : Bool := decide (ch = 0x0F) || (decide (ch < 8) && x.diff ch)

/-- A raw code corrected and clamped (R540), and OVR (R541). With O = F the spec states no quotient, and the value is
free (log entry 12). -/
def State.correct (s : State) (kd conv : Nat) (d : Bool) (r : Int) : (Int × Bool) × State :=
  let o : Int := s.fld kd .calAdc (32 * conv + 15) (32 * conv)
  let f : Int := s.fld kd .calAdc (32 * conv + 31) (32 * conv + 16)
  let lo : Int := if d then -2048 else 0
  let hi : Int := if d then 2047 else 4095
  let num := (if d then 16 * r else 16 * r - o) * 2048
  let (q, s) : Int × State :=
    if f = o then
      let (v, s) := s.draw
      (signed 16 v.toNat, s)
    else (if o < f then rneDiv num (f - o).toNat else rneDiv (-num) (o - f).toNat, s)
  let c := max lo (min hi q)
  ((c, decide (r = lo ∨ r = hi ∨ c = lo ∨ c = hi ∨ c ≠ q)), s)

def HkAcc.add (a : HkAcc) (c : Int) (ovr : Bool) : HkAcc := { sum := a.sum + c, n := a.n + 1, ovr := a.ovr || ovr }

/-- The mean of a channel after its last normal slot of the round (R542). -/
def State.formMean (s : State) (kd ch : Nat) : State :=
  let a := Tab.get {} (s.hk kd).acc ch
  let s := (s.setFld kd .hkCh 47 32 (s.fld kd .hkStat 63 32) ch).setFld kd .hkCh 55 48 a.n ch
  let s := (s.setFld kd .hkCh 63 63 (b2n (decide (a.n ≠ 0))) ch).setFld kd .hkCh 62 62 (b2n a.ovr) ch
  if a.n = 0 then s else s.setFld kd .hkCh 31 16 (unsigned 16 (rneDiv (16 * a.sum) a.n)) ch

/-- A conversion of a channel sets OVR (R561). -/
def State.noteOvr (s : State) (kd ch : Nat) (ovr : Bool) : State := if ovr then s.orReg kd .hkErr (2 ^ (32 + ch)) else s

/-- A normal, ground or reference conversion: SAMPLE. -/
def State.noteSample (s : State) (kd ch : Nat) (c : Int) (ovr : Bool) : State :=
  (s.setFld kd .hkCh 15 0 (unsigned 16 c) ch).noteOvr kd ch ovr

/-- The scheduled conversion of a slot. -/
def State.scheduled (s : State) (kd conv : Nat) (u : SlotUse) (r : Int) : State :=
  let x := s.hk kd
  match u with
  | .normal ch _ =>
    let ((c, ovr), s) := s.correct kd conv (x.differential ch) r
    let s := s.noteSample kd ch c ovr
    s.setHk kd { s.hk kd with acc := Tab.upd {} (s.hk kd).acc ch (fun a => a.add c ovr) }
  | .ground =>
    let ((c, ovr), s) := s.correct kd conv false r
    let s := s.noteSample kd 0x1E c ovr
    s.setHk kd { s.hk kd with conv := Tab.upd {} (s.hk kd).conv (2 * conv) (fun a => a.add r false) }
  | .reference =>
    let ((c, ovr), s) := s.correct kd conv false r
    let s := s.noteSample kd 0x1F c ovr
    s.setHk kd { s.hk kd with conv := Tab.upd {} (s.hk kd).conv (2 * conv + 1) (fun a => a.add r false) }
  | .upTest i =>
    if x.openWire i ∧ ¬ (x.diff i ∧ i % 2 = 1) then
      let ((c, ovr), s) := s.correct kd conv (x.diff i) r
      (s.setHk kd { s.hk kd with up := Tab.set 0 (s.hk kd).up i c }).noteOvr kd i ovr
    else s
  | .downTest i =>
    if x.openWire i ∧ ¬ (x.diff i ∧ i % 2 = 1) then
      let ((c, ovr), s) := s.correct kd conv (x.diff i) r
      let up := Tab.get 0 x.up i
      let meets := if x.diff i then decide (2015 ≤ up ∧ c ≤ -2016) else decide (4063 ≤ up ∧ c ≤ 32)
      (s.setHk kd { s.hk kd with met := if meets then (s.hk kd).met ||| 2 ^ i else (s.hk kd).met }).noteOvr kd i ovr
    else s
  | .none => s

/-! ## Urgent conversions (R543, R544) -/

/-- A channel that R537 lists. -/
def validChannel (ch : Nat) : Bool := decide (ch < 16) || decide (ch = 0x1E) || decide (ch = 0x1F)

/-- The converter `conv` serves channel `ch` (R537). -/
def onConverter (conv ch : Nat) : Bool := if ch < 8 then decide (conv = 0) else if ch < 16 then decide (conv = 1) else true

/-- The waiting urgent request takes this slot, which starts at hclk time `h`. -/
def State.takesSlot (s : State) (kd conv t : Nat) (u : SlotUse) (h : Nat) : Bool :=
  let ch := s.fld kd .hkUrg 20 16
  match (s.hk kd).urgent with
  | some w => decide (w + 1 ≤ h) && onConverter conv ch &&
      (match u with | .normal _ _ | .ground | .reference => true | _ => false) && !(decide (ch < 8) && decide (464 ≤ t))
  | none => false

/-- A write of HK_URG: CH, and a request with GO (R543, R544, R559). -/
def State.hkUrgWrite (s : State) (kd v : Nat) : State :=
  let go := bit v 31
  if go ∧ (s.fld kd .hkUrg 30 30 = 1 ∨ !validChannel (bits v 20 16)) then s.accessError
  else if !go then (if s.fld kd .hkUrg 30 30 = 1 then s else s.setFld kd .hkUrg 20 16 (bits v 20 16)).respond 0
  else
    let s := ((s.setFld kd .hkUrg 20 16 (bits v 20 16)).setFld kd .hkUrg 30 30 1).setFld kd .hkUrg 29 29 0
    (s.setHk kd { s.hk kd with urgent := some s.hc }).respond 0

def onKd (kd : Nat) (s : State) (f : State → State) : Out :=
  if kd = 38 ∨ kd = 39 then .next (f s) else .fault .noSuchUnit

/-- URGENT_CONVERSION: a write of `v` to HK_URG. -/
def execUrgentConversion (kd : Nat) (v : Word64) (s : State) : Out := onKd kd s (fun s => s.hkUrgWrite kd (v.toNat ||| 2 ^ 31))

/-- ADC_SLOT: the next slot of a converter, which starts at hclk time `h` and converts to raw code `r`. -/
def State.adcSlot (s : State) (kd conv h : Nat) (r : Int) : State :=
  let x := s.hk kd
  let t := if conv = 0 then x.slot0 else x.slot1
  if 500 ≤ t then s
  else
    let u := slotUse conv t
    let s := s.toHc h
    let urgent := s.takesSlot kd conv t u h
    let s :=
      if urgent then
        let ch := s.fld kd .hkUrg 20 16
        let ((c, ovr), s) := s.correct kd conv (x.differential ch) r
        let s := (s.setFld kd .hkUrg 15 0 (unsigned 16 c)).setFld kd .hkUrg 28 28 (b2n ovr)
        let s := (s.setFld kd .hkUrg 30 30 0).setFld kd .hkUrg 29 29 1
        let s := ((s.addFld kd .hkStat 31 16 1).addFld kd .hkStat 15 0 1).noteOvr kd ch ovr
        s.setHk kd { s.hk kd with urgent := none }
      else s.scheduled kd conv u r
    let s := s.toHc (h + 203)
    let y := s.hk kd
    let s := s.setHk kd (if conv = 0 then { y with slot0 := t + 1 } else { y with slot1 := t + 1 })
    match u with
    | .normal ch true => s.formMean kd ch
    | _ => s

/-- A code that a converter can make in a mode (R536). -/
def rawInRange (d : Bool) (r : Int) : Bool :=
  if d then decide (-2048 ≤ r) && decide (r ≤ 2047) else decide (0 ≤ r) && decide (r ≤ 4095)

def execAdcSlot (kd conv h : Nat) (raw : Int) (s : State) : Out :=
  if (kd = 38 ∨ kd = 39) ∧ conv < 2 ∧ -2048 ≤ raw ∧ raw ≤ 4095 then .next (s.adcSlot kd conv h raw) else .fault .noSuchUnit

/-! ## Open external inputs at a round's end (R546) -/

def State.openRule (s : State) (kd : Nat) : State :=
  let x := s.hk kd
  let s := (List.range 8).foldl (fun s i =>
    let isOpen := s.fld kd .hkCh 61 61 i = 1
    if bit x.met i then
      if isOpen then s
      else
        let s := (s.setFld kd .hkCh 61 61 1 i).orReg kd .hkErr (2 ^ (16 + i))
        if x.alertOn i then s.alertHost 5 else s
    else if isOpen ∧ bit x.unmet i then s.setFld kd .hkCh 61 61 0 i
    else s) s
  s.setHk kd { s.hk kd with met := 0, unmet := 255 - x.met % 256, up := [] }

/-! ## Calibration (R548 to R552) -/

def State.cal (s : State) (d : Nat) : CalSt := Tab.get {} s.plat.cal d
def State.setCal (s : State) (d : Nat) (x : CalSt) : State := { s with plat := { s.plat with cal := Tab.set {} s.plat.cal d x } }

/-- The items of a die: 0 converter, 1 VCORE, 2 VCELL, 3 VIO. -/
def calItems (d : Nat) : List Nat := if d < 32 then [1, 2, 3] else if 38 ≤ d then [0, 1, 3] else [1, 3]

/-- Nominal value of a rail in units of 0.25 mV (R512). -/
def railTarget (item : Nat) : Int := if item = 1 then 3000 else if item = 2 then 3200 else 3400

def State.trim (s : State) (d item : Nat) : Nat := s.fld d .calTrim (8 * item - 1) (8 * item - 8)
def State.accepted (s : State) (d item : Nat) : Nat := s.fld d .calAcc (8 * item - 1) (8 * item - 8)

/-- One code toward the accepted value (R551). -/
def State.rampStep (s : State) (d item : Nat) : State :=
  let t := s.trim d item
  let a := s.accepted d item
  if t = a then s
  else
    let s := s.setFld d .calTrim (8 * item - 1) (8 * item - 8) (if t < a then t + 1 else t - 1)
    s.setCal d { s.cal d with moved := (s.cal d).moved ||| 2 ^ item }

/-- Accept a rail code; the first step of its ramp is taken at once. -/
def State.acceptRail (s : State) (d item code : Nat) : State :=
  let s := s.setFld d .calAcc (8 * item - 1) (8 * item - 8) code
  (s.setCal d { s.cal d with valid := (s.cal d).valid ||| 2 ^ item }).rampStep d item

/-- Accept O and F of both converters of a control die: they take effect at the next round boundary. -/
def State.acceptConv (s : State) (kd : Nat) (vs : List Nat) : State :=
  (s.setHk kd { s.hk kd with nextOf := some vs }).setCal kd { s.cal kd with valid := (s.cal kd).valid ||| 1 }

/-- A calibration begins; `fresh` when its first run is not the round that begins now but the next. -/
def State.calStart (s : State) (d : Nat) (fresh : Bool) : State :=
  let s := (s.setFld 38 .calDie 63 63 1 d).setFld 38 .calDie 58 56 ((calItems d).headD 0) d
  (s.setFld 38 .calDie 55 53 0 d).setCal d { s.cal d with fresh := fresh, last := [], moved := 0 }

/-- A trigger of R549. -/
def State.calTrigger (s : State) (d : Nat) (fresh : Bool) : State :=
  if s.fld 38 .calDie 63 63 d = 1 then s.setFld 38 .calDie 62 62 1 d else s.calStart d fresh

/-- The next item of a die after `item`, or the end of its calibration. -/
def State.calNext (s : State) (d item : Nat) : State :=
  match (calItems d).find? (fun j => decide (item < j)) with
  | some j =>
    ((s.setFld 38 .calDie 58 56 j d).setFld 38 .calDie 55 53 0 d).setCal d { s.cal d with last := [] }
  | none =>
    let s := (s.setFld 38 .calDie 15 0 (s.fld d .thmStat 15 0) d).setFld 38 .calDie 59 59 1 d
    let s := s.setFld 38 .calDie 63 63 0 d
    if s.fld 38 .calDie 62 62 d = 1 then (s.setFld 38 .calDie 62 62 0 d).calStart d false else s

/-- The mean in units of 1/16 code of a round's ground or reference conversions; with none made, the value is free
(log entry 12). -/
def State.convMean (s : State) (kd j : Nat) : Int × State :=
  let a := Tab.get {} (s.hk kd).conv j
  if a.n = 0 then
    let (v, s) := s.draw
    ((v.toNat % 65536 : Nat), s)
  else (rneDiv (16 * a.sum) a.n, s)

/-- The results of one run of the current item: its values, and whether one was clamped. -/
def State.runResult (s : State) (d item : Nat) (rail : Int) : (List Int × Bool) × State :=
  if item = 0 then
    let (o0, s) := s.convMean d 0
    let (f0, s) := s.convMean d 1
    let (o1, s) := s.convMean d 2
    let (f1, s) := s.convMean d 3
    (([o0, f0, o1, f1], false), s)
  else
    let k := (s.trim d item : Int) + rneDiv (railTarget item - rail) 10
    let c := max 112 (min 144 k)
    (([c], decide (c ≠ k)), s)

/-- Two consecutive runs agree (R548, R550). -/
def runsAgree (item : Nat) (a b : List Int) : Bool :=
  (List.zip a b).zipIdx.all (fun x =>
    let tol : Int := if item = 0 then (if x.2 % 2 = 0 then 8 else 16) else 1
    decide (x.1.1 - x.1.2 ≤ tol) && decide (x.1.2 - x.1.1 ≤ tol))

/-- One round of a calibrating die; `rail` gives the rail means of the round that has ended, by item. -/
def State.calRound (s : State) (d : Nat) (rail : Nat → Int) : State :=
  let x := s.cal d
  if s.fld 38 .calDie 63 63 d = 0 then s.setCal d { x with moved := 0 }
  else if x.fresh then s.setCal d { x with fresh := false, moved := 0 }
  else
    let item := s.fld 38 .calDie 58 56 d
    let moved := decide (item ≠ 0) && bit x.moved item
    let s := s.setCal d { x with moved := 0 }
    if moved then s
    else
      let ((res, lim), s) := s.runResult d item (rail item)
      let s := if lim then s.setFld 38 .calDie 60 60 1 d else s
      let runs := s.fld 38 .calDie 55 53 d + 1
      let s := s.setFld 38 .calDie 55 53 runs d
      if 2 ≤ runs ∧ runsAgree item x.last res then
        let s := if item = 0 then
            s.acceptConv d ((List.zip x.last res).map (fun p => (rneDiv (p.1 + p.2) 2).toNat))
          else s.acceptRail d item ((x.last.headD 0 + res.headD 0) / 2).toNat
        s.calNext d item
      else if 4 ≤ runs then ((s.setFld 38 .calDie 61 61 1 d).alertHost 6).calNext d item
      else s.setCal d { s.cal d with last := res }

/-! ## Saving and restoring (R553 to R556) -/

/-- Offset of a copy in flash. -/
def calCopy (c : Nat) : Nat := 0x2010000 + 0x10000 * c

/-- The record of the accepted values (R553). -/
def State.calRecord (s : State) (seq : Nat) : List Byte :=
  let dies := (List.range 40).flatMap (fun d =>
    let conv : List Nat := match (s.hk d).nextOf with
      | some vs => vs
      | none => (List.range 4).map (fun i => s.fld d .calAdc (16 * i + 15) (16 * i))
    [BitVec.ofNat 8 (s.accepted d 1), BitVec.ofNat 8 (s.accepted d 2), BitVec.ofNat 8 (s.accepted d 3),
      BitVec.ofNat 8 (s.cal d).valid] ++ toBytes 2 (s.fld 38 .calDie 15 0 d) ++ toBytes 2 0 ++
      (if 38 ≤ d then conv.flatMap (fun v => toBytes 2 v) else toBytes 8 0))
  let body := toBytes 4 0x4C414348 ++ toBytes 4 seq ++ toBytes 4 (s.reg 38 .cmdIdent) ++ toBytes 8 s.sec.fuses.serial ++
    toBytes 44 0 ++ dies
  body ++ toBytes 4 (crc32c body)

/-- A copy in flash is valid (R555). -/
def State.calValid (s : State) (c : Nat) : Bool :=
  let b := s.readFlash (calCopy c) 708
  decide (numAt b 0 4 = 0x4C414348) && decide (crc32c (b.take 704) = numAt b 704 4) &&
    decide (numAt b 8 4 = s.reg 38 .cmdIdent) && decide (numAt b 12 8 = s.sec.fuses.serial)

def State.calSeq (s : State) (c : Nat) : Nat := ofBytes (s.readFlash (calCopy c + 4) 4)

/-- The valid copy with the higher SEQ. -/
def State.calBest (s : State) : Option Nat :=
  match s.calValid 0, s.calValid 1 with
  | true, true => some (if s.calSeq 0 < s.calSeq 1 then 1 else 0)
  | true, false => some 0
  | false, true => some 1
  | false, false => none

/-- Apply a copy to one die: at bring-up at once (`ramped` false), else as accepted values that ramp (R555, R556). -/
def State.calApplyTo (s : State) (c d : Nat) (ramped : Bool) : State :=
  let b := s.readFlash (calCopy c) 708
  let o := 64 + 16 * d
  let mask := byteAt b (o + 3)
  if mask = 0 then s
  else
    let s := (s.setFld 38 .calDie 15 0 (numAt b (o + 4) 2) d).setFld 38 .calDie 59 59 1 d
    let s := if 38 ≤ d ∧ bit mask 0 then
        let vs := (List.range 4).map (fun i => numAt b (o + 8 + 2 * i) 2)
        if ramped then s.acceptConv d vs
        else (s.setReg d .calAdc (pack 16 vs)).setCal d { s.cal d with valid := (s.cal d).valid ||| 1 }
      else s
    (calItems d).foldl (fun s item =>
      if item = 0 ∨ !bit mask item then s
      else
        let code := byteAt b (o + item - 1)
        if ramped then s.acceptRail d item code
        else ((s.setFld d .calAcc (8 * item - 1) (8 * item - 8) code).setFld d .calTrim (8 * item - 1) (8 * item - 8)
          code).setCal d { s.cal d with valid := (s.cal d).valid ||| 2 ^ item }) s

/-- Apply a copy to every die. -/
def State.calApply (s : State) (c : Nat) (ramped : Bool) : State :=
  (List.range 40).foldl (fun s d => s.calApplyTo c d ramped) s

/-- CAL_CTL.SAVE. -/
def State.calSave (s : State) : State :=
  if s.fld 38 .calCtl 27 27 = 1 then s.setFld 38 .calCtl 26 24 2
  else
    let c := match s.calValid 0, s.calValid 1 with
      | false, _ => 0
      | true, false => 1
      | true, true => if s.calSeq 1 < s.calSeq 0 then 1 else 0
    let seq := match s.calBest with
      | some k => s.calSeq k + 1
      | none => 1
    let rec_ := s.calRecord seq
    let s := (s.setFld 38 .calCtl 27 27 1).eraseFlash (calCopy c) 4096
    { s with plat := { s.plat with saving := some (c, rec_) } }

/-- The copy is read back: the save completes, or fails and leaves the copy open (R554, log entry 12). -/
def State.calSaveDone (s : State) (ok : Bool) : State :=
  match s.plat.saving with
  | none => s
  | some (c, rec_) =>
    let s := { s with plat := { s.plat with saving := none } }
    let s := s.setFld 38 .calCtl 27 27 0
    if ok then ((s.programFlash (calCopy c) rec_).setFld 38 .calCtl 26 24 0).setFld 38 .calCtl 23 23 c
    else
      let (bs, s) := s.drawBytes 89
      (s.programFlash (calCopy c) (bs.take 708)).setFld 38 .calCtl 26 24 1

/-- CAL_CTL.RESTORE. -/
def State.calRestore (s : State) : State :=
  if s.fld 38 .calCtl 27 27 = 1 ∨ (List.range 40).any (fun d => decide (s.fld 38 .calDie 63 63 d = 1)) then
    s.setFld 38 .calCtl 26 24 2
  else
    match s.calBest with
    | none => s.setFld 38 .calCtl 26 24 3
    | some c => ((s.calApply c true).setFld 38 .calCtl 26 24 0).setFld 38 .calCtl 23 23 c

/-- CAL_CTL.GO (R549, R563). -/
def State.calGo (s : State) (all : Bool) (die : Nat) : State :=
  if all then (List.range 40).foldl (fun s d => s.calTrigger d true) s else s.calTrigger die true

/-- A write of CAL_CTL. -/
def State.calCtlWrite (s : State) (v : Nat) : State :=
  if bit v 31 ∧ !bit v 30 ∧ 39 < bits v 5 0 then s.accessError
  else
    let s := (s.setFld 38 .calCtl 30 30 (bits v 30 30)).setFld 38 .calCtl 5 0 (bits v 5 0)
    let s := if bit v 31 then s.calGo (bit v 30) (bits v 5 0) else s
    let s := if bit v 29 then s.calSave else s
    (if bit v 28 then s.calRestore else s).respond 0

def execCalGo (all : Bool) (die : Nat) (s : State) : Out := .next (s.calCtlWrite (2 ^ 31 + 2 ^ 30 * b2n all + die % 64))
def execCalSave (s : State) : Out := .next (s.calSave.respond 0)
def execCalSaveDone (ok : Bool) (s : State) : Out := .next (s.calSaveDone ok)
def execCalRestore (s : State) : Out := .next (s.calRestore.respond 0)
def execTrimRampStep (die item : Nat) (s : State) : Out :=
  if die < 40 ∧ 1 ≤ item ∧ item ∈ calItems die then .next (s.rampStep die item) else .fault .noSuchUnit

/-! ## The round (R538, R539) -/

/-- The end of a round of a control die's converters, and the start of the next. -/
def State.converterRound (s : State) (kd : Nat) : State :=
  let s := s.openRule kd
  let x := s.hk kd
  let s := match x.nextOf with
    | some vs => s.setReg kd .calAdc (pack 16 vs)
    | none => s
  let cfg := (List.range 8).foldl (fun a i => a + (s.reg kd .hkXcfg i ^^^ 0xC0000000) <<< (32 * i)) 0
  let s := s.setHk kd { x with slot0 := 0, slot1 := 0, acc := [], conv := [], nextOf := none, cfg := cfg }
  s.setFld kd .hkStat 63 32 (s.fld kd .hkStat 63 32 + 1)

/-- VIN and P_AVG from the means of codes 8 and 9 of both control dies (R529, R537). -/
def State.inputMeans (s : State) : State :=
  let m := fun kd ch => s.fld kd .hkCh 31 16 ch
  let v := m 38 8 + m 39 8
  let i := m 38 9 + m 39 9
  (s.setFld 38 .pwrPkgstat 63 48 (rneDiv v 8).toNat).setFld 38 .pwrPkgstat 31 16 (rneDiv ((v * i : Nat) : Int) 256000).toNat

/-- Capture and read-back of a die (R539, R562); its rails in units of 0.25 mV. -/
def State.capture (s : State) (d : Nat) (stale : Bool) (rail : Nat → Nat) (hbm : Nat → Int) : State :=
  let s := s.setFld 38 .hkDiea 63 63 (b2n stale) d
  let s := if 32 ≤ d ∧ d < 36 then
      [2 * (d - 32), 2 * (d - 32) + 1].foldl (fun s i => s.setFld 38 .hkHbm 31 31 (b2n stale) i) s
    else s
  if stale then s
  else
    let s := (s.setFld 38 .hkDiea 47 32 (s.fld d .pwrStat 15 0) d).setFld 38 .hkDiea 15 0 (s.fld d .thmStat 15 0) d
    let s := (s.setFld 38 .hkDieb 47 32 (rail 3) d).setFld 38 .hkDieb 31 16 (if d < 32 then rail 2 else 0) d
    let s := s.setFld 38 .hkDieb 15 0 (rail 1) d
    if 32 ≤ d ∧ d < 36 then
      [2 * (d - 32), 2 * (d - 32) + 1].foldl (fun s i => s.setFld 38 .hkHbm 15 0 (unsigned 16 (hbm i)) i) s
    else s

/-- The temperature trigger of R549 at the end of a round. -/
def State.tempTrigger (s : State) (d : Nat) : State :=
  let T := signed 16 (s.fld 38 .hkDiea 15 0 d)
  let c := signed 16 (s.fld 38 .calDie 15 0 d)
  if s.fld 38 .hkDiea 63 63 d = 0 ∧ s.fld 38 .calDie 59 59 d = 1 ∧ s.fld 38 .calDie 63 63 d = 0 ∧ (64 < T - c ∨ 64 < c - T) then
    s.calStart d false
  else s

/-- HOUSEKEEPING_ROUND: the round boundary at hclk time `h`. Bit d of `stale`: the read-back of die d misses the round.
`rails`: 3 means per die, VCORE, VCELL and VIO, of the round that ended; `hbm`: the 8 stack temperatures. -/
def State.round (s : State) (h stale : Nat) (rails : List Nat) (hbm : List Int) : State :=
  let s := s.toHc h
  let rail := fun d item => rails.getD (3 * d + item - 1) 0
  let s := (List.range 40).foldl (fun s d => s.calRound d (fun item => (rail d item : Nat))) s
  let s := [38, 39].foldl (fun s kd => s.converterRound kd) s
  let s := s.inputMeans
  let s := (List.range 40).foldl (fun s d => s.capture d (bit stale d) (rail d) (fun i => hbm.getD i 0)) s
  let s := (List.range 40).foldl (fun s d => s.tempTrigger d) s
  let wasOn := s.plat.capOn
  let s := (s.qhRound).applyPkgCap wasOn
  { s with plat := { s.plat with capOn := bit (s.reg 38 .pwrPkgcap) 31 } }

def execHousekeepingRound (h stale : Nat) (rails : List Nat) (hbm : List Int) (s : State) : Out :=
  if rails.length = 120 ∧ hbm.length = 8 then .next (s.round h stale rails hbm) else .fault .noSuchUnit

end Sys2Proof.Machine
end

