-- ==== Sys2Proof/Machine/Observe.lean ====
section
/-!
DEFINITION. Trace windows and PC samples, freezing and thawing of event rings, monitor snapshots (R610 to R631).
-/

namespace Sys2Proof.Machine

/-! ## Trace windows (R612) -/

/-- Whether the die's copy lies in the window that its registers give. -/
def State.windowOpen (s : State) (cd : Nat) : Bool :=
  let v := (s.die cd).wagV.toNat
  (s.die cd).wagValid && decide (s.reg cd .dbgTstart ≤ v) && decide (v < s.reg cd .dbgTstop)

def State.setWindow (s : State) (cd : Nat) (on : Bool) : State := s.setDie cd { s.die cd with inWindow := on }

/-- The copy has reached TSTART: a window starts, and EPOCH advances. -/
def State.windowStart (s : State) (cd : Nat) : State :=
  if s.windowOpen cd && !(s.die cd).inWindow then
    (s.setWindow cd true).setFld cd .dbgTcfg 7 0 (s.fld cd .dbgTcfg 7 0 + 1)
  else s

/-- The copy has reached TSTOP, or TSTART lies ahead again: the window ends. -/
def State.windowStop (s : State) (cd : Nat) : State :=
  if !s.windowOpen cd && (s.die cd).inWindow then s.setWindow cd false else s

def onCd (cd : Nat) (s : State) (f : State → State) : Out := if cd < 32 then .next (f s) else .fault .noSuchUnit

def execTraceWindowStart (cd : Nat) (s : State) : Out := onCd cd s (fun s => s.windowStart cd)
def execTraceWindowStop (cd : Nat) (s : State) : Out := onCd cd s (fun s => s.windowStop cd)

/-! ## PC samples (R611, R615) -/

/-- The stall code of a core and the counter that it names. `busy` refines RUNNING: 0 an instruction issued in the
cycle, 1 it waits on a register, 2 on a class pipeline. -/
def State.stallCode (s : State) (cd k busy : Nat) : Nat × Option Nat :=
  let c := s.core cd k
  match s.coreState cd k with
  | 0 => (0xE, none)
  | 1 => (0xD, none)
  | 2 =>
    match c.loads with
    | ld :: _ => ((s.holdCause cd k (s.die cd).cc ld).getD 0x8, none)
    | [] => (0x8, none)
  | 3 =>
    match s.openWait cd k (s.nextWord cd k) with
    | some x =>
      if x.sub = 0 then (4, some x.idx)
      else if x.sub = 1 ∨ x.sub = 4 then (5, some x.idx)
      else if x.sub = 2 then (6, none)
      else (7, none)
    | none => (0, none)
  | _ =>
    let waits := c.stopping || (s.openWait cd k (s.nextWord cd k)).isSome
    (if waits then 3 else min busy 2, none)

/-- PC_SAMPLE of a core in cycle `cc`. -/
def State.pcSample (s : State) (cd k cc busy : Nat) : State :=
  let s := s.toCc cd cc
  let (code, ctr) := s.stallCode cd k busy
  let c := s.core cd k
  let value := match code, ctr with
    | 4, some i => c.arr i
    | 5, some i => c.cred i
    | _, _ => 0
  s.traceCur cd k 5 code c.pc.toNat (ctr.getD 0) value

def execPcSample (cd k cc busy : Nat) (s : State) : Out := onCoreCmd cd k s (fun s => s.pcSample cd k cc busy)

/-! ## Rings (R621) -/

/-- The units of a die that have a ring (R618). -/
def unitCount (die : Nat) : Nat := if die < 32 then 71 else if die < 36 then 24 else if die < 38 then 21 else 9

/-- Whether a die has a ring. -/
def Ring.exists_ (r : Ring) (die : Nat) : Bool :=
  match r with
  | .core k => decide (die < 32) && decide (k < 512)
  | .unit u => decide (die < 40) && decide (u < unitCount die)

/-- Every ring of a die. -/
def ringsOf (die : Nat) : List Ring :=
  (if die < 32 then (List.range 512).map (fun k => Ring.core k) else []) ++ (List.range (unitCount die)).map (fun u => Ring.unit u)

/-- THAW: what is staged is written, then a THAW entry, and recording goes on (R621). -/
def State.ringThaw (s : State) (die : Nat) (r : Ring) : State :=
  let s := (s.setFld die r.stat.1 31 31 0 r.stat.2).ringFlush die r
  s.ringWrite die r (s.stampOf die) 0x3F 0

/-- A write of DBG_RSTAT: AUTO, FREEZE and THAW; written together they leave the ring frozen. -/
def State.rstatWrite (s : State) (die : Nat) (r : Ring) (v : Nat) : State :=
  let s := s.setFld die r.stat.1 30 30 (bits v 30 30) r.stat.2
  let s := if bit v 28 then s.ringFreeze die r 0 else if bit v 29 then s.ringThaw die r else s
  s.respond 0

def onRing (die : Nat) (core : Bool) (u : Nat) (s : State) (f : Ring → State → State) : Out :=
  let r := if core then Ring.core u else Ring.unit u
  if r.exists_ die then .next (f r s) else .fault .noSuchUnit

def execFreeze (die : Nat) (core : Bool) (u : Nat) (s : State) : Out :=
  onRing die core u s (fun r s => (s.ringFreeze die r 0).respond 0)
def execThaw (die : Nat) (core : Bool) (u : Nat) (s : State) : Out :=
  onRing die core u s (fun r s => (s.ringThaw die r).respond 0)

/-- RING_FREEZE_STEP: the copy of a die has reached DBG_RFREEZE, which is then disarmed. -/
def State.freezeStep (s : State) (die : Nat) : State :=
  let t := s.reg die .dbgRfreeze
  if t = 2 ^ 64 - 1 ∨ !(s.die die).wagValid ∨ (s.die die).wagV.toNat < t then s
  else ((ringsOf die).foldl (fun s r => s.ringFreeze die r 1) s).setReg die .dbgRfreeze (2 ^ 64 - 1)

def execRingFreezeStep (die : Nat) (s : State) : Out := onDie die s (fun s => s.freezeStep die)

/-! ## Monitors (R626, R627) -/

/-- The key of monitor `m` of a die, or of the per-context monitor `m` = 2 c + j. -/
def monKey (ctx : Bool) (die m : Nat) : Nat := if ctx then 4096 + m else 16 * die + m

def monExists (ctx : Bool) (die m : Nat) : Bool :=
  if ctx then decide (die = 38) && decide (m < 2048)
  else (decide (die < 36) || decide (die = 38) || decide (die = 39)) && decide (m < 16)

/-- The fields of a monitor that software reads through its shadow. -/
def Monitor.fields (m : Monitor) : Monitor := { m with wait := [], cyc := 0, unit := 1024 }

/-- SNAP, then CLR, as the bits of MON_CTL say (R626). Samples that wait are taken in the cycles since they came. -/
def State.monControl (s : State) (key : Nat) (snap clr : Bool) : State :=
  let m := Tab.get {} s.monitors key
  let m := if m.wait = [] then m else (m.pass (s.unitCycle (key / 16))).1
  let s := { s with monitors := Tab.set {} s.monitors key m }
  let s := if snap then { s with shadows := Tab.set {} s.shadows key m.fields } else s
  if clr then
    { s with monitors := Tab.set {} s.monitors key { wait := m.wait, cyc := m.cyc, unit := m.unit } }
  else s

def execMonSnap (ctx : Bool) (die m : Nat) (s : State) : Out :=
  if monExists ctx die m then .next ((s.monControl (monKey ctx die m) true false).respond 0) else .fault .noSuchUnit
def execMonClr (ctx : Bool) (die m : Nat) (s : State) : Out :=
  if monExists ctx die m then .next ((s.monControl (monKey ctx die m) false true).respond 0) else .fault .noSuchUnit

end Sys2Proof.Machine
end

