-- ==== Sys2Proof/Machine/Security.lean ====
section
/-!
DEFINITION. Signatures, fuses, attestation, link keys and the debug unlock (R459 to R476).
-/

namespace Sys2Proof.Machine

/-! ## ECDSA on P-384 (R459, R471; FIPS 186, log entry 45) -/

def p384 : Nat := 2 ^ 384 - 2 ^ 128 - 2 ^ 96 + 2 ^ 32 - 1
def p384n : Nat := 0xffffffffffffffffffffffffffffffffffffffffffffffffc7634d81f4372ddf581a0db248b0a77aecec196accc52973
def p384b : Nat := 0xb3312fa7e23ee7e4988e056be3f82d19181d9c6efe8141120314088f5013875ac656398d8a2ed19d2a85c8edd3ec2aef
def p384x : Nat := 0xaa87ca22be8b05378eb1c71ef320ad746e1d3b628ba79b9859f741e082542a385502f25dbf55296c3a545e3872760ab7
def p384y : Nat := 0x3617de4a96262c6f5d9e98bf9292dc29f8f41dbd289a147ce9da3113b5f0b8c00a60b1ce1d7e819d7a431d7c90ea0e5f

/-- A power modulo `m`, by the low `n` bits of the exponent. -/
def powMod (m : Nat) : Nat → Nat → Nat → Nat → Nat
  | 0, _, _, acc => acc
  | n + 1, b, e, acc => powMod m n (b * b % m) (e / 2) (if e % 2 = 1 then acc * b % m else acc)

/-- The inverse modulo a prime below 2^384. -/
def invMod (m a : Nat) : Nat := powMod m 384 (a % m) (m - 2) 1

/-- A difference modulo p. -/
def subP (a b : Nat) : Nat := (a + p384 - b % p384) % p384

/-- A point in Jacobian coordinates; Z = 0 is the point at infinity. -/
structure JPoint where
  x : Nat
  y : Nat
  z : Nat
  deriving DecidableEq, Repr

def JPoint.double (a : JPoint) : JPoint :=
  if a.z = 0 ∨ a.y = 0 then ⟨1, 1, 0⟩
  else
    let zz := a.z * a.z % p384
    let yy := a.y * a.y % p384
    let t := 4 * a.x * yy % p384
    let m := 3 * (subP a.x zz) * ((a.x + zz) % p384) % p384
    let x := subP (m * m % p384) (2 * t)
    ⟨x, subP (m * subP t x % p384) (8 * yy * yy), 2 * a.y * a.z % p384⟩

def JPoint.add (a b : JPoint) : JPoint :=
  if a.z = 0 then b
  else if b.z = 0 then a
  else
    let za := a.z * a.z % p384
    let zb := b.z * b.z % p384
    let u1 := a.x * zb % p384
    let u2 := b.x * za % p384
    let s1 := a.y * zb * b.z % p384
    let s2 := b.y * za * a.z % p384
    if u1 = u2 then (if s1 = s2 then a.double else ⟨1, 1, 0⟩)
    else
      let h := subP u2 u1
      let r := subP s2 s1
      let hh := h * h % p384
      let hhh := h * hh % p384
      let v := u1 * hh % p384
      let x := subP (subP (r * r % p384) hhh) (2 * v)
      ⟨x, subP (r * subP v x % p384) (s1 * hhh), h * a.z * b.z % p384⟩

/-- The sum of two multiples, from the most significant of `n` bits down. -/
def JPoint.twoMul (a b : JPoint) : Nat → Nat → Nat → JPoint → JPoint
  | 0, _, _, acc => acc
  | n + 1, ea, eb, acc =>
    let acc := acc.double
    let acc := if bit ea n then acc.add a else acc
    JPoint.twoMul a b n ea eb (if bit eb n then acc.add b else acc)

/-- Whether (r, s) is a signature of a 384-bit digest by a public key. -/
def ecdsaVerify (qx qy digest r s : Nat) : Bool :=
  decide (0 < r ∧ r < p384n ∧ 0 < s ∧ s < p384n ∧ qx < p384 ∧ qy < p384) &&
  decide (qy * qy % p384 = (qx * qx % p384 * qx + (p384 - 3) * qx + p384b) % p384) &&
  (let w := invMod p384n s
   let R := JPoint.twoMul ⟨p384x, p384y, 1⟩ ⟨qx, qy, 1⟩ 384 (digest * w % p384n) (r * w % p384n) ⟨1, 1, 0⟩
   let zi := invMod p384 R.z
   decide (R.z ≠ 0) && decide (R.x * zi % p384 * zi % p384 % p384n = r))

/-- Verify a signature r, s of 96 bytes over a message by an uncompressed point of 97 bytes. -/
def verifySig (key sig m : List Byte) : Bool :=
  decide (key.length = 97 ∧ sig.length = 96 ∧ byteAt key 0 = 4) &&
  ecdsaVerify (ofBytesBE ((key.drop 1).take 48)) (ofBytesBE (key.drop 49)) (ofBytesBE (sha384 m))
    (ofBytesBE (sig.take 48)) (ofBytesBE (sig.drop 48))

/-! ## The fused SVN (R462) -/

/-- SEC_SVN.COMMIT. -/
def State.svnCommit (s : State) : State :=
  let ok := s.writePermitted 38
  let s := s.noteTemp 38 ok
  let run := s.fld 38 .secBoot 22 16
  if !ok then s.setFld 38 .secSvn 30 28 2
  else if run ≤ s.sec.fuses.svn then s.setFld 38 .secSvn 30 28 1
  else { s with sec := { s.sec with fuses := { s.sec.fuses with svn := run } } }.setFld 38 .secSvn 30 28 0

def execSvnCommit (s : State) : Out := .next (s.svnCommit.respond 0)

/-! ## Attestation (R463, R464) -/

def State.spdm (s : State) (port : Nat) : Spdm := if port = 0 then s.sec.spdmA else s.sec.spdmB
def State.setSpdm (s : State) (port : Nat) (x : Spdm) : State :=
  if port = 0 then { s with sec := { s.sec with spdmA := x } } else { s with sec := { s.sec with spdmB := x } }

/-- Bytes that the spec names and does not give (log entry 13). -/
def givenBytes (kind n : Nat) : List Byte := (List.range n).map (fun i => Config.givenByte kind i)

/-- The state of SEC_DBGCTL: 0 LOCKED, 1 UNLOCKING, 2 UNLOCKED. -/
def State.debugState (s : State) : Nat := s.fld 38 .secDbgctl 29 28

/-- The digest that GET_MEASUREMENTS reports at an index, of the values of this cycle. -/
def State.measurement (s : State) (i : Nat) : List Byte :=
  match i with
  | 1 => givenBytes 1 48
  | 2 => if s.sec.image = [] then givenBytes 2 48 else s.sec.image
  | 3 => if s.fld 38 .secBoot 28 28 = 0 then List.replicate 48 0#8 else s.sec.record
  | 4 => sha384 ([BitVec.ofNat 8 s.sec.fuses.svn, BitVec.ofNat 8 (b2n s.sec.fuses.revoke0)] ++ s.sec.fuses.ownerKey ++
      [BitVec.ofNat 8 s.debugState])
  | 5 => (List.range 6).flatMap (fun j => toBytes 8 (s.reg 38 .wgtDig (s.activeSet 32) j))
  | 6 => s.sec.program
  | _ => sha384 (toBytes 4 (s.reg 38 .smpCfg) ++ toBytes 4 s.sec.release)

/-- An answer of the responder; a request that does not fit its state is refused. -/
def State.spdmAnswer (s : State) (ok : Bool) (bs : List Byte) : State := if ok then s.respond 0 bs else s.respond 2

def onHostPort (port : Nat) (s : State) (f : State → State) : Out := if port < 2 then .next (f s) else .fault .noSuchUnit

/-- GET_VERSION restarts the responder and ends its sessions: versions 1.2 and 1.3. -/
def State.getVersion (s : State) (port : Nat) : State :=
  (s.setSpdm port { (s.spdm port) with phase := 1, sessions := [] }).spdmAnswer true [0x12#8, 0x13#8]

/-- A negotiation step: the responder is in phase `from_` at least, and enters phase `to`. -/
def State.spdmPhase (s : State) (port from_ upto : Nat) : State :=
  let x := s.spdm port
  if x.phase < from_ then s.respond 2 else (s.setSpdm port { x with phase := max upto x.phase }).respond 0

/-- A certificate chain of a slot: 0 the device identity key, 1 the alias key. -/
def State.certificate (s : State) (slot : Nat) : List Byte :=
  if slot = 0 then givenBytes 3 1024 else givenBytes 4 1024 ++ s.measurement 2

def State.getDigests (s : State) (port : Nat) : State :=
  s.spdmAnswer (decide (3 ≤ (s.spdm port).phase)) (sha384 (s.certificate 0) ++ sha384 (s.certificate 1))

def State.getCertificate (s : State) (port slot off n : Nat) : State :=
  s.spdmAnswer (decide (3 ≤ (s.spdm port).phase ∧ slot < 2)) (((s.certificate slot).drop off).take n)

/-- CHALLENGE: a fresh nonce and the digest of the certificate chain. -/
def State.challenge (s : State) (port slot : Nat) : State :=
  if (s.spdm port).phase < 3 ∨ 2 ≤ slot then s.respond 2
  else
    let (r, s) := s.drawRandom
    s.respond 0 (sha384 (s.certificate slot) ++ toBytes 32 r.toNat)

/-- GET_MEASUREMENTS of an index, or of all with index 255. -/
def State.getMeasurements (s : State) (port index : Nat) : State :=
  if (s.spdm port).phase < 3 then s.respond 2
  else if index = 255 then s.respond 0 ((List.range 7).flatMap (fun i => s.measurement (i + 1)))
  else if 1 ≤ index ∧ index ≤ 7 then s.respond 0 (s.measurement index)
  else s.respond 2

/-- KEY_EXCHANGE opens a session; a port has at most 2. -/
def State.keyExchange (s : State) (port : Nat) : State :=
  let x := s.spdm port
  if x.phase < 3 ∨ 2 ≤ x.sessions.length then s.respond 2
  else
    let (r, s) := s.drawRandom
    let s := s.setSpdm port { x with sessions := x.sessions ++ [{ id := x.next }], next := x.next + 1 }
    s.respond 0 (toBytes 4 x.next ++ toBytes 32 r.toNat)

/-- The session is secure: FINISH has completed. -/
def State.secureSession (s : State) (port id : Nat) : Bool :=
  (s.spdm port).sessions.any (fun x => decide (x.id = id) && x.open_)

/-- FINISH; `verified` says whether its transcript check passed. -/
def State.spdmFinish (s : State) (port id : Nat) (verified : Bool) : State :=
  let x := s.spdm port
  if x.sessions.any (fun y => decide (y.id = id) && !y.open_) then
    if verified then
      (s.setSpdm port { x with sessions := x.sessions.map (fun y => if y.id = id then { y with open_ := true } else y) }).respond 0
    else (s.setSpdm port { x with sessions := x.sessions.filter (fun y => decide (y.id ≠ id)) }).respond 2
  else s.respond 2

def State.endSession (s : State) (port id : Nat) : State :=
  let x := s.spdm port
  if s.secureSession port id then
    (s.setSpdm port { x with sessions := x.sessions.filter (fun y => decide (y.id ≠ id)) }).respond 0
  else s.respond 2

def execGetVersion (port : Nat) (s : State) : Out := onHostPort port s (fun s => s.getVersion port)
def execGetCapabilities (port : Nat) (s : State) : Out := onHostPort port s (fun s => s.spdmPhase port 1 2)
def execNegotiateAlgorithms (port : Nat) (s : State) : Out := onHostPort port s (fun s => s.spdmPhase port 2 3)
def execGetDigests (port : Nat) (s : State) : Out := onHostPort port s (fun s => s.getDigests port)
def execGetCertificate (port slot off n : Nat) (s : State) : Out := onHostPort port s (fun s => s.getCertificate port slot off n)
def execChallenge (port slot : Nat) (s : State) : Out := onHostPort port s (fun s => s.challenge port slot)
def execGetMeasurements (port index : Nat) (s : State) : Out := onHostPort port s (fun s => s.getMeasurements port index)
def execKeyExchange (port : Nat) (s : State) : Out := onHostPort port s (fun s => s.keyExchange port)
def execFinish (port id : Nat) (verified : Bool) (s : State) : Out := onHostPort port s (fun s => s.spdmFinish port id verified)
def execHeartbeat (port id : Nat) (s : State) : Out :=
  onHostPort port s (fun s => s.spdmAnswer (s.secureSession port id) [])
def execKeyUpdate (port id : Nat) (s : State) : Out :=
  onHostPort port s (fun s => s.spdmAnswer (s.secureSession port id) [])
def execEndSession (port id : Nat) (s : State) : Out := onHostPort port s (fun s => s.endSession port id)

/-- VENDOR_DEFINED_REQUEST: inside a secure session only; the one request that the spec defines is SET_LINK_KEY. -/
def execVendorDefinedRequest (port id : Nat) (s : State) : Out :=
  onHostPort port s (fun s => s.spdmAnswer (s.secureSession port id) [])

/-! ## Link keys (R466) -/

/-- The slot is in use by an encrypted port of some link die. -/
def State.keySlotInUse (s : State) (slot : Nat) : Bool :=
  [36, 37].any (fun d => (List.range 16).any (fun p => (s.port d p).sec && decide (s.fld d .lnkSec 60 60 p = slot)))

/-- SET_LINK_KEY: 32 key bytes into a slot of every link die. -/
def State.setLinkKey (s : State) (port id slot : Nat) (key : List Byte) : State :=
  if !s.secureSession port id ∨ 2 ≤ slot ∨ key.length ≠ 32 ∨ s.keySlotInUse slot then s.respond 2
  else { s with linkKeys := Tab.set [] s.linkKeys slot key }.respond 0

def execSetLinkKey (port id slot : Nat) (key : List Byte) (s : State) : Out :=
  onHostPort port s (fun s => s.setLinkKey port id slot key)

/-! ## Authorised debug (R471 to R474) -/

/-- The 32 bytes of the debug nonce in force, drawn by the hardware (log entry 11). -/
def State.debugNonce (s : State) : List Byte := toBytes 32 (Config.random (2 ^ 64 + s.sec.nonce)).toNat
def State.newNonce (s : State) : State := { s with sec := { s.sec with nonce := s.sec.nonce + 1 } }

def State.dbgResult (s : State) (r : Nat) : State := s.setFld 38 .secDbgctl 27 24 r

/-- The signature that JTAG has written passes. -/
def State.debugSigned (s : State) : Bool :=
  verifySig s.sec.fuses.dbgKey ((List.range 12).flatMap (fun i => toBytes 8 (Tab.get 0 s.sec.sig i).toNat))
    (s.debugNonce ++ toBytes 8 s.sec.fuses.serial)

/-- Destroy the link keys and the IDE keys, take encrypted ports DOWN, end the SPDM sessions (R472). -/
def State.destroyKeys (s : State) : State :=
  let s := { s with linkKeys := [] }
  let s := [36, 37].foldl (fun s d => (List.range 16).foldl (fun s p => if (s.port d p).sec then s.portDown d p else s) s) s
  let s := (s.setSpdm 0 { (s.spdm 0) with sessions := [] }).setSpdm 1 { (s.spdm 1) with sessions := [] }
  { s with sec := { s.sec with ideBad := 2 ^ 16 - 1 } }

/-- SEC_DBGCTL.GO from JTAG; every GO draws a new nonce. -/
def State.debugGo (s : State) : State :=
  let busy := decide (s.fld 38 .srvCtl 31 31 = 1) || s.slotList.any (fun k => decide (s.sstate k ≠ 0))
  let good := s.debugSigned
  if s.fld 38 .secDbgctl 30 30 = 1 then s
  else
    let s := s.newNonce
    if busy then s.dbgResult 2
    else if s.sec.fuses.dbgKey = [] then s.dbgResult 3
    else if !good then s.dbgResult 1
    else
      let s := ((s.setFld 38 .secDbgctl 30 30 1).setFld 38 .secDbgctl 31 31 1).setFld 38 .secDbgctl 29 28 1
      let s := s.destroyKeys
      { s with sec := { s.sec with unlocking := true } }

def execDebugUnlock (s : State) : Out := .next (s.debugGo.respond 0)

/-- Zero a range of a memory die. -/
def State.zeroMem (s : State) (die off n : Nat) : State :=
  let a := pkgAddr die off
  { s with mem := Tab.keep (fun k => !(decide (a ≤ k) && decide (k < a + n))) s.mem }.clearErr a n

/-- UNLOCK_DONE: every TABLES, KV8 and KV4 region is zero, and the state is UNLOCKED. -/
def State.unlockDone (s : State) : State :=
  if !s.sec.unlocking then s
  else
    let s := mdIds.foldl (fun s md => [1, 2, 3].foldl (fun s kind =>
      match s.region md kind with
      | some (base, len) => s.zeroMem md base len
      | none => s) s) s
    let s := ((s.setFld 38 .secDbgctl 30 30 0).setFld 38 .secDbgctl 31 31 0).setFld 38 .secDbgctl 29 28 2
    { s.dbgResult 0 with sec := { s.sec with unlocking := false } }

def execUnlockDone (s : State) : Out := .next s.unlockDone

end Sys2Proof.Machine
end

