-- ==== Sys2Proof/Machine/Pins.lean ====
section
/-!
DEFINITION. The sideband pins (R602 to R607).
-/

namespace Sys2Proof.Machine

def pinKey (kd i : Nat) : Nat := 8 * (kd - 38) + i
def State.pin (s : State) (kd i : Nat) : Pin := Tab.get {} s.plat.pins (pinKey kd i)
def State.setPin (s : State) (kd i : Nat) (x : Pin) : State :=
  { s with plat := { s.plat with pins := Tab.set {} s.plat.pins (pinKey kd i) x } }

def State.pinFunc (s : State) (kd i : Nat) : Nat := s.fld kd .pinSbcfg 31 28 i
def State.pinParam (s : State) (kd i : Nat) : Nat := s.fld kd .pinSbcfg 15 0 i

/-- A function that drives the pin. -/
def isOutput (f : Nat) : Bool := [1, 3, 4, 6, 7].contains f

/-- The filter time in hc of a FILT code (R605). -/
def filterTime (filt : Nat) : Nat :=
  match filt with
  | 0 => 0
  | 1 => 2
  | 2 => 8
  | _ => 32

/-- The high and low times of a PWM in hc. -/
def pwmTimes (param : Nat) : Nat × Nat :=
  let period := bits param 15 8
  let high := bits param 7 0 * period / 255
  (100 * high, 100 * (period - high))

/-- A PWM period starts at hclk time `h`, high phase first. A period of 0 is not one of 1 to 255, and the level is free
(log entry 12). -/
def State.pwmStart (s : State) (kd i h : Nat) : State :=
  let p := s.pinParam kd i
  let (hi, lo) := pwmTimes p
  if bits p 15 8 = 0 then
    let (v, s) := s.draw
    s.setPin kd i { s.pin kd i with out := bit v.toNat 0, due := h, low := 0 }
  else if hi = 0 then s.setPin kd i { s.pin kd i with out := false, due := h + lo, low := 0 }
  else s.setPin kd i { s.pin kd i with out := true, due := h + hi, low := lo }

/-- An LED period starts: high, then low for the same time. -/
def State.ledStart (s : State) (kd i h : Nat) : State :=
  let p := s.pinParam kd i
  let t := 1000000 * bits p 7 0
  if t = 0 then s.setPin kd i { s.pin kd i with out := bit p 8, due := h, low := 0 }
  else s.setPin kd i { s.pin kd i with out := true, due := h + t, low := t }

/-- The phase of a PWM or LED ends at hclk time `h`: the low phase of its period follows, or the next period, which takes the
PARAM of now (R603). -/
def State.phaseEnd (s : State) (kd i h : Nat) (start : State → State) : State :=
  let x := s.pin kd i
  if x.out ∧ 0 < x.low then s.setPin kd i { x with out := false, due := h + x.low, low := 0 } else start s

/-- The level that a pin drives; ALERT_OUT and FLASH_OWN follow what they report (R602). -/
def State.pinLevel (s : State) (kd i : Nat) : Bool :=
  match s.pinFunc kd i with
  | 6 => decide (s.fld 38 .secBoot 31 30 = 2)
  | 7 => !s.alerted
  | _ => (s.pin kd i).out

/-- A function begins at the change edge (R603). -/
def State.pinBegin (s : State) (kd i : Nat) : State :=
  let f := s.pinFunc kd i
  let x := s.pin kd i
  match f with
  | 1 => s.setPin kd i { x with out := bit (s.pinParam kd i) 0 }
  | 3 => s.pwmStart kd i s.hc
  | 4 => s.ledStart kd i s.hc
  | 2 => (s.setPin kd i { x with edges := 0, edgeHc := 0 }).setReg kd .pinTach 0 i
  | _ => s

/-- Some sideband pin that is an external throttle input is low (R521, R602). -/
def State.throttlePins (s : State) : Bool :=
  [38, 39].any (fun kd => (List.range 8).any (fun i => decide (s.pinFunc kd i = 5) && !bit (s.fld kd .pinSbin 7 0) i))

/-- A write of PIN_SBCFG (R602, R603). -/
def State.sbcfgWrite (s : State) (kd i v : Nat) : State :=
  let f := bits v 31 28
  let was := s.pinFunc kd i
  if 8 ≤ f ∨ (f = 6 ∧ ¬ (kd = 38 ∧ i = 7)) then s.accessError
  else if f = was then
    -- FILT stays, and the function goes on
    let keep := s.fld kd .pinSbcfg 24 23 i
    let steady := decide (bits (s.pinParam kd i) 7 0 = 0)
    let s := s.setReg kd .pinSbcfg (setBits (v &&& 0xFFC0FFFF) 24 23 keep) i
    (if f = 1 then s.setPin kd i { s.pin kd i with out := bit v 0 }
     -- a steady LED has no period whose end to wait for
     else if f = 4 ∧ steady then s.ledStart kd i s.hc
     else s).respond 0
  else
    let low := !bit (s.fld kd .pinSbin 7 0) i
    let s := s.setReg kd .pinSbcfg (v &&& 0xFFC0FFFF) i
    let s := if was = 5 ∧ low ∧ !s.throttlePins then s.throttleIn false s.hc else s
    let s := if isOutput was ∧ !isOutput f then
        s.setPin kd i { s.pin kd i with deaf := s.hc + filterTime (bits v 24 23) }
      else s
    let s := if f = 5 ∧ low then s.throttleLater (s.hc + filterTime (bits v 24 23)) else s
    (s.pinBegin kd i).respond 0

def onPin (kd i : Nat) (s : State) (f : State → State) : Out :=
  if (kd = 38 ∨ kd = 39) ∧ i < 8 then .next (f s) else .fault .noSuchUnit

def execPinSbcfgWrite (kd i : Nat) (v : Word64) (s : State) : Out := onPin kd i s (fun s => s.sbcfgWrite kd i v.toNat)

/-- SIDEBAND_INPUT: at hclk time `h` the pin has been stable at a level for the filter time (R604). -/
def State.sidebandInput (s : State) (kd i h : Nat) (level : Bool) : State :=
  let s := s.toHc h
  if h < (s.pin kd i).deaf ∨ bit (s.fld kd .pinSbin 7 0) i = level then s
  else
    let s := s.setReg kd .pinSbin (s.reg kd .pinSbin ^^^ 2 ^ i)
    if s.pinFunc kd i ≠ 5 then s
    else if level then (if s.throttlePins then s else s.throttleIn false h)
    else s.throttleIn true h

def execSidebandInput (kd i h : Nat) (level : Bool) (s : State) : Out := onPin kd i s (fun s => s.sidebandInput kd i h level)

/-- TACH_EDGE: a rising edge at hclk time `h`. -/
def State.tachEdge (s : State) (kd i h : Nat) : State :=
  let s := s.toHc h
  if s.pinFunc kd i ≠ 2 then s
  else
    let x := s.pin kd i
    let s := if x.edges = 0 then s
      else s.setReg kd .pinTach (2 ^ 31 + min 0xFFFFFF ((h - x.edgeHc) / 100)) i
    s.setPin kd i { x with edges := min 2 (x.edges + 1), edgeHc := h }

def execTachEdge (kd i h : Nat) (s : State) : Out := onPin kd i s (fun s => s.tachEdge kd i h)

/-- PIN_TACH as it reads: a fan that has stopped reads the saturated period (R607). -/
def State.tach (s : State) (kd i : Nat) : Nat :=
  let v := s.reg kd .pinTach i
  let x := s.pin kd i
  if bit v 31 ∧ s.pinFunc kd i = 2 ∧ 0xFFFFFF ≤ (s.hc - x.edgeHc) / 100 then 2 ^ 31 + 0xFFFFFF else v

/-- PWM_TOGGLE: the end of a phase at hclk time `h`. -/
def State.pwmToggle (s : State) (kd i h : Nat) : State :=
  let s := s.toHc h
  if s.pinFunc kd i ≠ 3 ∨ h < (s.pin kd i).due then s else s.phaseEnd kd i h (fun s => s.pwmStart kd i h)

def execPwmToggle (kd i h : Nat) (s : State) : Out := onPin kd i s (fun s => s.pwmToggle kd i h)

/-- LED_TOGGLE at hclk time `h`. -/
def State.ledToggle (s : State) (kd i h : Nat) : State :=
  let s := s.toHc h
  if s.pinFunc kd i ≠ 4 ∨ h < (s.pin kd i).due then s else s.phaseEnd kd i h (fun s => s.ledStart kd i h)

def execLedToggle (kd i h : Nat) (s : State) : Out := onPin kd i s (fun s => s.ledToggle kd i h)

end Sys2Proof.Machine
end

