-- ==== Sys2Proof/Machine/HostRegs.lean ====
section
/-!
DEFINITION. Registers of the host ports that act when written: semaphores, queue pairs and doorbells (R417, R418, R422,
R437, R438, R441 to R450).
-/

namespace Sys2Proof.Machine

/-! ## Semaphores (R437, R438) -/

def State.semHeld (s : State) (n : Nat) : Bool := decide (s.fld 38 .sem 31 31 n = 1)
def State.semFree (s : State) (n : Nat) : State := s.setReg 38 .sem 0 n

/-- FORCE: from a physical function or the BMC. -/
def State.semForce (s : State) (who : Who) (n : Nat) : State :=
  match who with
  | .pf _ | .bmc => (s.semFree n).respond 0
  | _ => s.accessError

/-- GIVE: by the owner. -/
def State.semGive (s : State) (who : Who) (n : Nat) : State :=
  if s.semHeld n ∧ s.fld 38 .sem 10 0 n = who.code then (s.semFree n).respond 0 else s.accessError

/-- TAKE. -/
def State.semTake (s : State) (who : Who) (n : Nat) : State :=
  if s.semHeld n then s.respond 0 else (s.setReg 38 .sem (2 ^ 31 + who.code) n).respond 0

/-- One write of SEM_n: FORCE, then GIVE, then TAKE; a part that is refused makes it an access error. -/
def State.semWrite (s : State) (who : Who) (n v : Nat) : State :=
  let s := s.respond 0
  let s := if bit v 28 then s.semForce who n else s
  let bad := decide (s.resp.status ≠ 0)
  let s := if bit v 29 then s.semGive who n else s
  let bad := bad || decide (s.resp.status ≠ 0)
  let s := if bit v 30 then s.semTake who n else s
  if bad then s.accessError else s

/-- The requester of a port among those that take in one cycle. -/
def takerOf (port : Nat) (whos : List Who) : Option Who :=
  whos.find? (fun w => match w.fn? with | some f => decide (fnPort f = port) | none => false)

/-- The TAKEs that reach KD0 in one cycle: between the ports, the one that did not win the last such tie wins; the BMC
and firmware win only when neither port takes. -/
def State.semTakes (s : State) (n : Nat) (whos : List Who) : State :=
  if s.semHeld n then s.respond 0
  else
    match takerOf 0 whos, takerOf 1 whos with
    | some a, some b =>
      let win := 1 - s.host.takeWon
      { s with host := { s.host with takeWon := win } }.semTake (if win = 0 then a else b) n
    | some a, none => s.semTake a n
    | none, some b => s.semTake b n
    | none, none =>
      match whos with
      | w :: _ => s.semTake w n
      | [] => s.respond 0

/-- A write of SEM_n by an accessor that view P keeps out: a virtual function's is an isolation event, the debug port's an
access error, and neither has an effect (R9, R450). -/
def State.semRefused (s : State) (who : Who) (n : Nat) : State :=
  let addr := s.pkgId 38 * 2 ^ 52 + pkgAddr 38 (Reg.off ⟨.sem, n, 0⟩)
  match who with
  | .vf _ _ => (s.isolation who addr).respond 2
  | _ => s.mmioError who 2 addr

/-- Whether an accessor reaches SEM_n. -/
def inViewP : Who → Bool
  | .vf _ _ | .jtag => false
  | _ => true

/-- One write of SEM_n; a refused one is recorded at the accessing function (R415). -/
def State.semAccess (s : State) (who : Who) (n : Nat) (f : State → State) : State :=
  if !inViewP who then s.semRefused who n
  else
    let t := f s
    if t.resp.status = 0 then t else t.semRefused who n

def execSemTake (n : Nat) (whos : List Who) (s : State) : Out :=
  if n < 256 then
    let s := (whos.filter (fun w => !inViewP w)).foldl (fun s w => s.semRefused w n) s
    let takers := whos.filter inViewP
    .next (if takers = [] then s else s.semTakes n takers)
  else .fault .noSuchUnit
def execSemGive (who : Who) (n : Nat) (s : State) : Out :=
  if n < 256 then .next (s.semAccess who n (fun s => s.semGive who n)) else .fault .noSuchUnit
def execSemForce (who : Who) (n : Nat) (s : State) : Out :=
  if n < 256 then .next (s.semAccess who n (fun s => s.semForce who n)) else .fault .noSuchUnit

/-! ## Queue pairs (R417, R418, R422, R445) -/

/-- A function of a port and one of its pairs: a PF has 64, a VF 4 (R410, R411, Queues, doorbells and completions). -/
def pairExists (fn q : Nat) : Bool :=
  decide (fnPort fn < 2) && decide (fnNo fn ≤ 512) && decide (q < if fnNo fn = 0 then 64 else 4)

/-- The EVENT_WAITs of a pair complete with ABORTED (R422). -/
def State.abortWaits (s : State) (fn q : Nat) : State :=
  (s.host.waits.filter (fun w => decide (w.1 = fn) && decide (w.2.1 = q))).foldl (fun s w =>
    { s with host := { s.host with waits := s.host.waits.filter (fun x => x ≠ w) } }.complete fn q w.2.2 0x0F 0) s

/-- A size that a function's queue may have. -/
def sizeOk (fn n : Nat) : Bool := decide (4 ≤ n) && decide (n ≤ if fnNo fn = 0 then 12 else 10)

/-- A write of CMD_QCFG. -/
def State.qcfgWrite (s : State) (fn q v : Nat) : State :=
  let d := 38 + fnPort fn
  let f := fnNo fn
  let old := s.qcfg fn q
  let st := bits old 29 28
  let on := bit v 31
  let was := bit old 31
  let vfOff := decide (f ≠ 0) && decide (s.fld d .cmdVfctx 31 31 (f - 1) = 0)
  if on ∧ (!sizeOk fn (bits v 7 4) ∨ !sizeOk fn (bits v 3 0) ∨ st = 2 ∨ st = 3 ∨ vfOff) then s.accessError
  else
    let w := RegFam.written .cmdQcfg old v
    let w := if was then setBits w 30 30 (bits old 30 30) else w
    let s := s.setReg d .cmdQcfg w f q
    if on ∧ !was then ((s.setPair fn q {}).setReg d .cmdQstat 0 f q).setQstate fn q 1 |>.respond 0
    else if !on ∧ was then (((s.setQstate fn q 3).abortWaits fn q).drainedPair fn q).respond 0
    else s.respond 0

/-- CMD_SQTDB. -/
def State.sqTail (s : State) (fn q v : Nat) : State :=
  let t := v % 4096
  if s.qstate fn q ≠ 1 then s.respond 0
  else if s.sqSize fn q ≤ t then (s.setQstate fn q 2).respond 0
  else (s.setPair fn q { (s.pair fn q) with tail := t }).respond 0

/-- CMD_CQHDB: a head that would release an entry not yet written puts the pair in ERROR. -/
def State.cqHead (s : State) (fn q v : Nat) : State :=
  let h := v % 4096
  let n := s.cqSize fn q
  let p := s.pair fn q
  let moved := (h + n - p.consumed % n) % n
  if s.qstate fn q ≠ 1 then s.respond 0
  else if n ≤ h ∨ p.posted - p.consumed < moved then (s.setQstate fn q 2).respond 0
  else (s.setPair fn q { p with consumed := p.consumed + moved }).respond 0

def onPair (fn q : Nat) (s : State) (f : State → State) : Out :=
  if pairExists fn q then .next (f s) else .fault .noSuchUnit

def execQueueEnable (fn q : Nat) (v : Word64) (s : State) : Out :=
  onPair fn q s (fun s => s.qcfgWrite fn q (v.toNat % 2 ^ 32 ||| 2 ^ 31))
def execQueueDisable (fn q : Nat) (v : Word64) (s : State) : Out :=
  onPair fn q s (fun s => s.qcfgWrite fn q (v.toNat % 2 ^ 31))
def execCmdSqtdb (fn q : Nat) (v : Word64) (s : State) : Out := onPair fn q s (fun s => s.sqTail fn q v.toNat)
def execCmdCqhdb (fn q : Nat) (v : Word64) (s : State) : Out := onPair fn q s (fun s => s.cqHead fn q v.toNat)

/-- A write of CMD_VFCTX entry `v` (R441). -/
def State.vfctxWrite (s : State) (port v w : Nat) : State :=
  if (List.range 4).any (fun q => decide (s.qstate (fnId port v) q ≠ 0)) then s.accessError
  else (s.setReg (38 + port) .cmdVfctx (RegFam.written .cmdVfctx 0 w) (v - 1)).respond 0

/-- The accessor of a function. -/
def whoOf (fn : Nat) : Who := if fnNo fn = 0 then .pf (fnPort fn) else .vf (fnPort fn) (fnNo fn)

/-- CMD_ACKDB of a function (R447); status 16 is an isolation event. -/
def State.ackDb (s : State) (fn v : Nat) : State :=
  let slot := v % 16384
  let n := bits v 44 32
  if v ≠ slot + n <<< 32 then s.accessError
  else if !s.mayTouch (whoOf fn) slot then s.respond 16
  else
    match s.ack slot n with
    | (true, s) => s.respond 0
    | (false, s) => s.accessError

/-- A write of SEC_QUOTAA or SEC_QUOTAB of a context (R456, R458). -/
def State.quotaWrite (s : State) (ctx which v : Nat) : State :=
  let f : RegFam := if which = 0 then .secQuotaa else .secQuotab
  if which = 0 ∧ (16384 < bits v 62 48 ∨ 16384 < bits v 46 32) then s.accessError
  else (s.setReg 38 f (f.written (s.reg 38 f ctx) v) ctx).evalAll.respond 0

def execQuotaWrite (ctx which : Nat) (v : Word64) (s : State) : Out :=
  if ctx < 1024 ∧ which < 2 then .next (s.quotaWrite ctx which v.toNat) else .fault .noSuchUnit

end Sys2Proof.Machine
end

