-- ==== Sys2Proof/Machine/Network.lean ====
section
/-!
DEFINITION. The rows of the engines, the load permit and the on-die network (chapters 03, 04 and 07).
-/

namespace Sys2Proof.Machine

/-! ## Engines and permits -/

/-- A command of one engine: 17 to a core (R16). -/
def onEngineCmd (cd k p : Nat) (s : State) (f : State → State) : Out :=
  if p < 17 then onCoreCmd cd k s f else .fault .noSuchUnit

def execLoadStart (cd k t : Nat) (s : State) : Out := onCoreCmd cd k s (fun s => s.loadStart cd k t)
def execCoreGate (cd k : Nat) (s : State) : Out := onCoreCmd cd k s (fun s => s.coreGate cd k)
def execLimRamp (cd k : Nat) (s : State) : Out := onCoreCmd cd k s (fun s => s.limRamp cd k)
def execEnginePass (cd k p : Nat) (s : State) : Out := onEngineCmd cd k p s (fun s => s.enginePass cd k p)
def execRowWrite (cd k p index : Nat) (s : State) : Out :=
  onEngineCmd cd k p s (fun s => s.wcmdGo cd k p false index)
def execScaleWrite (cd k p index : Nat) (s : State) : Out :=
  onEngineCmd cd k p s (fun s => s.wcmdGo cd k p true index)
def execEngWriteDone (cd k p mismatches : Nat) (s : State) : Out :=
  onEngineCmd cd k p s (fun s => s.engWriteDone cd k p mismatches)
def execAcceptanceTest (cd k p t h : Nat) (s : State) : Out :=
  onEngineCmd cd k p s (fun s => s.acceptanceTest cd k p t h)
def execPeriodicTest (cd k p t h : Nat) (s : State) : Out :=
  onEngineCmd cd k p s (fun s => s.periodicTest cd k p t h)
def execTestForce (cd k t : Nat) (s : State) : Out := onCoreCmd cd k s (fun s => s.testForce cd k t)
def execTestOverdue (cd k p t h : Nat) (s : State) : Out :=
  onEngineCmd cd k p s (fun s => s.testOverdue cd k p t h)
def execTestSlot1Check (cd k p : Nat) (s : State) : Out := onEngineCmd cd k p s (fun s => s.testSlot1 cd k p)
def execTestSlot2Check (cd k p : Nat) (s : State) : Out := onEngineCmd cd k p s (fun s => s.testSlot2 cd k p)
def execScrubRowRead (cd k p : Nat) (s : State) : Out := onEngineCmd cd k p s (fun s => s.scrubRowRead cd k p)
def execEngRetire (cd k p : Nat) (s : State) : Out := onEngineCmd cd k p s (fun s => s.engRetire cd k p)
def execEngCodeWrite (cd k p code : Nat) (s : State) : Out :=
  onEngineCmd cd k p s (fun s => s.engCode cd k p code)
def execEngMaplWrite (cd k l : Nat) (en : Bool) (phys : Nat) (s : State) : Out :=
  if l < 16 then onCoreCmd cd k s (fun s => s.maplWrite cd k l en phys) else .fault .noSuchUnit

/-! ## Routers -/

/-- The cores of a cluster (R94). -/
def clusterCores (c : Nat) : List Nat := (List.range 8).map (fun q => 8 * c + q)

/-- A command of one router (R16). -/
def onRouterCmd (cd c : Nat) (s : State) (f : State → State) : Out :=
  if cd < 32 ∧ c < 64 then .next (s.watch cd (clusterCores c) f) else .fault .noSuchUnit

/-- A command of one input port of a router: 0 N, 1 E, 2 S, 3 W, 4 EDGE, 5 + q local core q (R191). -/
def onPortCmd (cd c port : Nat) (s : State) (f : State → State) : Out :=
  if port < 13 then onRouterCmd cd c s f else .fault .noSuchUnit

def execMulticastFlit (cd c port : Nat) (take : FlitTake) (s : State) : Out :=
  onPortCmd cd c port s (fun s => (s.multicastFlit cd c port take.outs take.err).edgeOut cd c)
def execCreditFlit (cd c port : Nat) (take : FlitTake) (s : State) : Out :=
  onPortCmd cd c port s (fun s => (s.creditFlit cd c port take.outs take.err).edgeOut cd c)
def execReductionFlit (cd c port : Nat) (err : LinkErr) (s : State) : Out :=
  onPortCmd cd c port s (fun s => s.reductionFlit cd c port err)
def execNocRgtWrite (cd c tag w : Nat) (v : Word64) (s : State) : Out :=
  if tag < 1024 ∧ w < 2 then onRouterCmd cd c s (fun s => s.rgtWrite cd c tag w v) else .fault .noSuchUnit
def execNocMgtWrite (cd c g : Nat) (v : Word64) (s : State) : Out :=
  if g < 1024 then onRouterCmd cd c s (fun s => s.mgtWrite cd c g v) else .fault .noSuchUnit
def execNocCrtWrite (cd c r : Nat) (v : Word64) (s : State) : Out :=
  if r < 256 then onRouterCmd cd c s (fun s => s.crtWrite cd c r v) else .fault .noSuchUnit
def execNocDiscard (cd c tag : Nat) (s : State) : Out :=
  if tag < 1024 then onRouterCmd cd c s (fun s => s.nocDiscard cd c tag) else .fault .noSuchUnit
def execNocLock (cd c : Nat) (s : State) : Out :=
  onRouterCmd cd c s (fun s => s.setFld cd .nocCtl 31 31 1 c)

end Sys2Proof.Machine
end

