-- ==== Sys2Proof/Machine/Access.lean ====
section
/-!
DEFINITION. Register and memory accesses: who accesses, which rule refuses, what a read returns and what a write does
(R6 to R9, R112, R113, R230, R239, R336, R347, R348, R386, R413, R415, and the rules of each register's table).
-/

namespace Sys2Proof.Machine

/-- Who makes an access and along which path: its unit (R364), die and package, and the context of view U (none in
view P). -/
structure Accessor where
  who : Who
  unit : Nat
  sdie : Nat
  spkg : Nat
  ctx : Option Nat
  deriving DecidableEq, Repr

/-- The unit that issues an access (R364). -/
def unitOf : Who → Nat
  | .pf _ | .vf _ _ => 0
  | .bmc => 1
  | .firmware => 2
  | .jtag => 6

/-- The control die from which it issues it: firmware and the BMC act from KD1 once KD0 is lost (R580). -/
def State.dieOf (s : State) : Who → Nat
  | .pf p | .vf p _ => 38 + p
  | _ => if s.plat.lostKd = 39 then 39 else 38

def State.accessor (s : State) (who : Who) : Accessor :=
  { who, unit := unitOf who, sdie := s.dieOf who, spkg := s.pkgId (s.dieOf who), ctx := s.whoCtx who }

/-- The statuses of R350, and two of the model's own: an access that is an isolation event (R9), and one that is on its way
as a request, whose answer comes with a CPL or ACK. -/
def isoStatus : Nat := 16
def waitStatus : Nat := 17

def addrPkg (a : Nat) : Nat := bits a 63 52
def addrDie (a : Nat) : Nat := bits a 51 46
def addrOff (a : Nat) : Nat := bits a 45 0

/-- The message of an access. -/
def accessMsg (addr len : Nat) (w : Option (List Byte)) : Msg :=
  { type := if w.isSome then 2 else 1, priv := true, dpkg := addrPkg addr, ddie := addrDie addr, addr := addrOff addr
    len, data := w.getD [] }

/-! ## Which register, and who may reach it -/

/-- The register whose bytes hold `off`. -/
def regOver (die off : Nat) : Option Reg :=
  match regAt die off with
  | some r => some r
  | none =>
    match regAt die (off - off % 4) with
    | some r => some r
    | none =>
      match regAt die (off - off % 8) with
      | some r => if r.fam.shape.width = 64 then some r else none
      | none => none

/-- Places of a family at which no register is: a virtual function has only four queue pairs (R417). -/
def Reg.defined (r : Reg) : Bool :=
  match r.fam with
  | .cmdSqb | .cmdCqb | .cmdQcfg | .cmdQstat | .cmdSqtdb | .cmdCqhdb => decide (r.i = 0) || decide (r.j < 4)
  -- inputs 6 and 7 of an output have no weight (R378)
  | .pfabArbw => decide (r.j ≠ 6) && decide (r.j ≠ 7)
  | _ => true

/-- Whether an access of `len` bytes at an offset has the place and width of a register (R6, R347). -/
def Reg.fits (r : Reg) (die off len : Nat) : Bool := decide (regAt die off = some r) && decide (8 * len = r.fam.shape.width)

/-- The register that an access of `len` bytes finds: ADDR, ACCESS for a wrong width or alignment, or the register (R6,
R336, R347). -/
def findReg (die off len : Nat) : Option (Except Nat Reg) :=
  match regOver die off with
  | none => none
  | some r => if !r.defined then some (.error 1) else if r.fits die off len then some (.ok r) else some (.error 2)

/-- Whether an accessor of a context reaches a register (R9). -/
def State.inView (s : State) (a : Accessor) (die : Nat) (r : Reg) : Bool :=
  match a.ctx with
  | none => true
  | some c =>
    match r.fam.shape.view with
    | .p => false
    | .u => true
    | .slot => decide (s.sctx r.i = c)
    | .fn => decide (a.who = .vf (die - 38) r.i)
    | .ctxmon => decide (r.i / 2 = c)
    | .kdU => decide (die = 38) || decide (die = 39)

def Reg.isDebug (r : Reg) : Bool :=
  match r.fam with
  | .secDbgctl | .secDbgnonce | .secDbgsig => true
  | _ => false

/-! ## Reads -/

/-- The 64 bits in which two signed bounds are read: MAX above MIN (R631). -/
def minMax (m : Monitor) : Nat := unsigned 32 m.hi * 2 ^ 32 + unsigned 32 m.lo

def State.shadow (s : State) (key : Nat) : Monitor := Tab.get {} s.shadows key

/-- The bytes that the retained copies of a die take, in units of 64 bytes: header and data (R568, R586). -/
def State.storeUsed (s : State) (die : Nat) : Nat :=
  (s.fab die).retained.foldl (fun n x => n + 1 + x.2.flits) 0

/-- The fields of registers that hardware computes from the state (each register's table). -/
def State.live (s : State) (die : Nat) (r : Reg) (v : Nat) : Nat :=
  match r.fam with
  | .engCfg => setBits v 31 31 (b2n (decide ((s.engine die r.i r.j).state = .retired)))
  | .engState =>
    let e := s.engine die r.i r.j
    let n := s.namedBy die r.i r.j
    b2n e.loaded <<< 31 + b2n e.tested <<< 30 + e.passes.length <<< 16 + (n.getD 0) <<< 8 + b2n n.isSome <<< 7 + e.state.code
  | .coreStatus => (s.coreState die r.i) <<< 29 + (s.core die r.i).pc.toNat
  | .coreAct => let c := s.core die r.i; c.cap <<< 16 + c.lim <<< 8 + b2n c.gated
  | .coreAcnt => (Tab.get 0#8 (s.core die r.i).h r.j).toNat <<< 24 + (s.core die r.i).arr r.j
  | .coreCcnt => (s.core die r.i).cred r.j
  | .nocStat =>
    let x := s.router die r.i
    let busy := (x.slots.filter (fun p => p.2.holds)).length
    setBits (setBits v 31 31 (b2n (x.q.all (fun p => p.2.isEmpty) && x.edgeIn.isEmpty && decide (busy = 0)))) 23 16 busy
  -- the fields of an entry that is not VALID read as zero (R203)
  | .nocRgt => if bit (s.rgt die r.i (r.j / 2)).1 63 then v else 0
  | .srvTime => (s.hc - s.plat.bootHc) / 100
  | .wagNow => (s.die die).wagV.toNat
  | .wagStat =>
    if die = 38 then setBits v 27 24 (s.fld 38 .wagCfg 3 0)
    else if (s.die die).wagValid then s.reg 38 .wagStat / 2 ^ 28 * 2 ^ 28 else 0
  | .monMinmax => minMax (s.shadow (16 * die + r.i))
  | .monCount => (s.shadow (16 * die + r.i)).count
  | .monSum => unsigned 64 (s.shadow (16 * die + r.i)).sum
  | .monBin => Tab.get 0 (s.shadow (16 * die + r.i)).bins r.j
  | .moncMinmax => minMax (s.shadow (4096 + r.i))
  | .moncCount => (s.shadow (4096 + r.i)).count
  | .moncSum => unsigned 64 (s.shadow (4096 + r.i)).sum
  | .moncBin => Tab.get 0 (s.shadow (4096 + r.i)).bins r.j
  | .pinTach => s.tach die r.i
  | .rasStore => setBits v 48 32 (min 65536 (s.storeUsed die))
  | .dbgTstat => setBits v 31 31 (b2n (Tab.get {} s.collectors die).half.isSome)
  | .secDbgnonce => numAt s.debugNonce (8 * r.i) 8
  | .secBoot => setBits v 14 8 s.sec.fuses.svn
  | _ => v

/-- A read: the value with WO and reserved bits zero, and then the RC fields clear (R7). -/
def State.regRead (s : State) (die : Nat) (r : Reg) : State :=
  let s := match r.fam with
    | .dbgRingc | .dbgRstatc => s.ringSettle die (.core r.i)
    | .dbgRingu | .dbgRstatu => s.ringSettle die (.unit r.i)
    | _ => s
  let v := s.live die r (s.reg die r.fam r.i r.j)
  let out := v &&& r.fam.readMask
  let s := if r.fam.hasRc then s.setReg die r.fam (r.fam.readCleared (s.reg die r.fam r.i r.j)) r.i r.j else s
  s.respond 0 (toBytes (r.fam.shape.width / 8) out)

/-- Whether a read is answered from KD1's mirror: until KD1 takes over, and not for a semaphore, whose accesses are forwarded
(R272, R437, R580). -/
def State.readsMirror (s : State) (die : Nat) (r : Reg) : Bool :=
  decide (die = 39) && r.fam.shape.mirror && decide (r.fam ≠ .sem) && decide (s.plat.lostKd ≠ 39)

/-- A read on KD1 of a mirrored register: its value at the last token commit. It clears nothing on KD0 (R272, log entry 155). -/
def State.mirrorRead (s : State) (r : Reg) : State :=
  let m := s.srv.mirror
  let v := { s with csr := m.regs, shadows := m.shadows, hc := m.hc }
  s.respond 0 (toBytes (r.fam.shape.width / 8) (v.live 38 r (v.reg 38 r.fam r.i r.j) &&& r.fam.readMask))

/-! ## Writes -/

/-- A write by the access codes alone. -/
def State.plainWrite (s : State) (die : Nat) (r : Reg) (v : Nat) : State :=
  (s.setReg die r.fam (r.fam.written (s.reg die r.fam r.i r.j) v) r.i r.j).respond 0

/-- A write that takes effect only if `ok`. -/
def State.writeIf (s : State) (ok : Bool) (die : Nat) (r : Reg) (v : Nat) : State :=
  if ok then s.plainWrite die r v else s.respond 0

/-- A write that clears error bits; the record beside them clears with the last (R87, R225, R268, R376). -/
def State.clearWrite (s : State) (die : Nat) (r : Reg) (info : RegFam) (v : Nat) : State :=
  let s := s.plainWrite die r v
  if s.reg die r.fam r.i r.j = 0 then s.setReg die info 0 r.i r.j else s

/-- PFAB_CTL.LOCK of a die. -/
def State.locked (s : State) (die : Nat) : Bool := decide (s.fld die .pfabCtl 31 31 = 1)

/-- A write of a table that LOCK protects: control-die firmware alone writes it before that, nobody after (R335). -/
def State.lockedWrite (s : State) (a : Accessor) (die : Nat) (r : Reg) (v : Nat) : State :=
  if s.locked die then s.respond 0 else if a.unit ≠ 2 then s.accessError else s.plainWrite die r v

/-- Registers of a compute die (chapters 03 to 07); none for another family. One write of ENG_CFG with RETIRE and a new CODE
retires first, so that CODE keeps its value (log entry 164). RUN of CORE_CTL reads 0, and STOP wins over it (R118, R636,
log entry 108). -/
def State.cdWrite (s : State) (die : Nat) (r : Reg) (v : Nat) : Option State :=
  match r.fam with
  | .engCfg => some (((if bit v 31 then s.engRetire die r.i r.j else s).engCode die r.i r.j (v % 8)).respond 0)
  | .engFault => some (s.clearWrite die r .engFaultInfo v)
  | .engWcmd =>
    if bit v 9 then some (s.wcmdGo die r.i r.j (bit v 8) (v % 128))
    else some ((s.setReg die .engWcmd (RegFam.written .engWcmd (s.reg die .engWcmd r.i r.j) v) r.i r.j).respond 0)
  | .engMapl => some ((s.respond 0).maplWrite die r.i r.j (bit v 31) (v % 32))
  | .engTvCtl =>
    let p := v % 128
    let s := if 1 ≤ p ∧ p ≤ 99 then s.setFld die .engTvCtl 6 0 p r.i else s
    some ((if bit v 31 then s.testForce die r.i (s.die die).cc else s).respond 0)
  | .engScrubCtl => some (s.writeIf (decide (v % 16 ≤ 8)) die r v)
  | .coreCtl =>
    some ((s.watch die [r.i] (fun s =>
      if bit v 30 then s.coreStop die r.i else if bit v 31 then s.coreRun die r.i else s)).respond 0)
  | .coreFmode => some (if s.coreState die r.i = 0 then s.plainWrite die r v else s.accessError)
  | .coreExc =>
    let s := s.plainWrite die r v
    some (if s.fld die .coreExc 15 0 r.i = 0 then s.setReg die .coreExc 0 r.i else s)
  | .coreFflags =>
    let s := s.plainWrite die r v
    some (if s.fld die .coreFflags 4 2 r.i = 0 then s.setFld die .coreFflags 31 16 0 r.i else s)
  | .nocRgt => some (s.watch die (clusterCores r.i) (fun s => (s.respond 0).rgtWrite die r.i (r.j / 2) (r.j % 2) (BitVec.ofNat 64 v)))
  | .nocMgt => some (s.watch die (clusterCores r.i) (fun s => (s.respond 0).mgtWrite die r.i r.j (BitVec.ofNat 64 v)))
  | .nocCrt => some (s.watch die (clusterCores r.i) (fun s => (s.respond 0).crtWrite die r.i r.j (BitVec.ofNat 64 v)))
  | .nocArbw => some (s.writeIf (decide (s.fld die .nocCtl 31 31 r.i = 0)) die r v)
  | .nocErr => some (s.clearWrite die r .nocErrinfo v)
  | .nocDiscard =>
    some (if bit v 31 then (s.watch die (clusterCores r.i) (fun s => s.nocDiscard die r.i (v % 1024))).respond 0
      else (s.setFld die .nocDiscard 9 0 v r.i).respond 0)
  | _ => none

/-- Whether a write of MDA_RGN keeps R230: inside the HBM, no overlap and no second region of a kind. -/
def State.regionOk (s : State) (md n v : Nat) : Bool :=
  let part (x : Nat) : Nat × Nat := (bits x 29 0 * 65536, bits x 49 30 * 65536)
  !bit v 59 ||
    (decide (bits v 63 60 ≤ 4) && decide ((part v).1 + (part v).2 ≤ 77309411328) &&
     (List.range 5).all (fun i =>
       let x := s.reg md .mdaRgn i
       decide (i = n) || !bit x 59 ||
       (decide (bits x 63 60 ≠ bits v 63 60) &&
        (decide ((part x).1 + (part x).2 ≤ (part v).1) || decide ((part v).1 + (part v).2 ≤ (part x).1)))))

/-- Registers of a memory die (chapter 08 and R408, R587). -/
def State.mdWrite (s : State) (a : Accessor) (die : Nat) (r : Reg) (v : Nat) : Option State :=
  match r.fam with
  | .mdaRgn =>
    if s.fld die .mdaCtl 31 31 = 1 ∨ !s.regionOk die r.i v then some (s.respond 0)
    else some (((s.plainWrite die r v).loadPool die 0).loadPool die 1)
  | .mdaErr => some (s.clearWrite die r .mdaErrinfo v)
  | .mdaLtab => some (s.ltabWrite die r.i r.j [BitVec.ofNat 64 v])
  | .wgtMdcmd => some ((s.mdcmdWrite die v).respond 0)
  | .rasRefill =>
    if a.unit = 4 ∧ a.sdie < 32 ∧ a.spkg = s.pkgId die then some (s.refillWrite a.sdie die v) else some s.accessError
  | _ => none

/-- No request slot is in use. -/
def State.allFree (s : State) : Bool := s.slotList.all (fun k => decide (s.sstate k = 0))

/-- Registers of the serving engine and of quantization health (chapters 09 and 10). -/
def State.srvWrite (s : State) (die : Nat) (r : Reg) (v : Nat) : Option State :=
  match r.fam with
  | .srvCtl =>
    -- EN stays 0 after NO_SPARE until a switch (R576), and while a die has failed its self-test (R594)
    let on := bit v 31 && !s.plat.noSpare && decide (s.fld 38 .pwrBoot 39 0 = 0)
    some ((s.setFld 38 .srvCtl 31 31 (b2n on)).respond 0)
  | .srvCfg =>
    let n := bits v 47 32
    some (if !s.allFree ∨ n = 0 ∨ 16384 < n ∨ bits v 23 16 = 0 then s.accessError else s.plainWrite die r v)
  | .smpCfg => some (if s.allFree then s.plainWrite die r v else s.accessError)
  | .srvCosta | .srvCostb => some ((s.plainWrite die r v).evalAll.respond 0)
  | .srvSlot3 =>
    let s := if bit v 31 then s.cancel r.i else s
    some (if v % 8192 = 0 then s.respond 0
      else match s.ack r.i (v % 8192) with
        | (true, s) => s.respond 0
        | (false, s) => s.accessError)
  | .monQhCfg =>
    let s := (s.setFld die .monQhCfg 31 31 (bits v 31 31)).orReg die .monQhCfg (v &&& 2 ^ 30)
    some ((if v % 65536 = 0 then s else s.setFld die .monQhCfg 15 0 v).respond 0)
  | _ => none

/-- Registers of the fabric and of the link dies (chapter 11 and R470). -/
def State.fabWrite (s : State) (a : Accessor) (die : Nat) (r : Reg) (v : Nat) : Option State :=
  match r.fam with
  | .pfabPkgid | .pfabArbw | .pfabPsel | .lnkPkgrt | .lnkGmap | .lnkArbw => some (s.lockedWrite a die r v)
  | .pfabRt => some (if 40 ≤ r.i then s.respond 0 else s.lockedWrite a die r v)
  | .pfabErr => some (s.clearWrite die r .pfabErrinfo v)
  | .pfabTmo =>
    some ((List.range 4).foldl (fun s q =>
      let x := bits v (16 * q + 15) (16 * q)
      if x = 0 then s else s.setFld die .pfabTmo (16 * q + 15) (16 * q) x) s |>.respond 0)
  | .lnkPcfg =>
    -- DATELINE, PEERPORT and PEER are locked; before the lock, firmware alone changes them
    let old := s.reg die .lnkPcfg r.i
    let free := !s.locked die
    let moved := decide (bits v 30 30 ≠ bits old 30 30) || decide (bits v 15 0 ≠ bits old 15 0)
    if free && moved && decide (a.unit ≠ 2) then some s.accessError
    else
      let s := s.setFld die .lnkPcfg 27 16 (bits v 27 16) r.i
      let s := if free then (s.setFld die .lnkPcfg 30 30 (bits v 30 30) r.i).setFld die .lnkPcfg 15 0 v r.i else s
      some ((s.portEnable die r.i (bit v 31)).respond 0)
  | .lnkSec =>
    let old := s.reg die .lnkSec r.i
    let en := if !bit v 63 && s.sec.mustEncrypt then bits old 63 63 else bits v 63 63
    let w := RegFam.written .lnkSec old v
    let s := s.setReg die .lnkSec (setBits w 63 63 en) r.i
    let s := if bits v 55 0 = bits old 55 0 then s else s.setPort die r.i { s.port die r.i with keyArmed := true }
    let up := s.portState die r.i = 2 ∨ s.portState die r.i = 3
    some ((if en ≠ bits old 63 63 ∧ up then s.portTrain die r.i (s.fld die .lnkPstat 28 26 r.i) else s).respond 0)
  | _ => none

/-- Registers of model residency (chapter 12). -/
def State.wgtWrite (s : State) (die : Nat) (r : Reg) (v : Nat) : Option State :=
  match r.fam with
  | .wgtHdr => some (s.hdrWrite r.i r.j v)
  | .wgtSeal =>
    some (if bit v 31 then (s.sealGo (bits v 29 29)).respond 0
      else if s.fld 38 .wgtSeal 30 30 = 1 then s.respond 0 else (s.setFld 38 .wgtSeal 29 29 (bits v 29 29)).respond 0)
  | .wgtSwctl => some ((s.swctlWrite v).respond 0)
  | .wgtSwstep => some (s.writeIf (decide (s.swState ≠ 3) && decide (s.swState ≠ 4)) die r v)
  | _ => none

/-- Registers of the host ports (chapter 13) and of tenancy and security (chapter 14). -/
def State.cmdWrite (s : State) (a : Accessor) (die : Nat) (r : Reg) (v : Nat) : Option State :=
  let fn := fnId (die - 38) r.i
  match r.fam with
  | .cmdVfctx => some (s.vfctxWrite (die - 38) (r.i + 1) v)
  | .cmdHtmo => some (s.writeIf (decide (bits v 31 16 ≠ 0)) die r v)
  | .cmdSqb | .cmdCqb => some (s.writeIf (!bit (s.qcfg fn r.j) 31) die r v)
  | .cmdQcfg => some (s.qcfgWrite fn r.j v)
  | .cmdSqtdb => some (s.sqTail fn r.j v)
  | .cmdCqhdb => some (s.cqHead fn r.j v)
  | .cmdAckdb => some (s.ackDb fn v)
  | .sem => some (s.semWrite a.who r.i v)
  | .secQuotaa => some (s.quotaWrite r.i 0 v)
  | .secQuotab => some (s.quotaWrite r.i 1 v)
  | .secDbgctl => some (if a.who ≠ .jtag then s.accessError else (if bit v 31 then s.debugGo else s).respond 0)
  | .secDbgnonce => some (if a.who ≠ .jtag then s.accessError else s.respond 0)
  | .secDbgsig =>
    some (if a.who ≠ .jtag then s.accessError
      else { s with sec := { s.sec with sig := Tab.set 0 s.sec.sig r.i (BitVec.ofNat 64 v) } }.respond 0)
  | .secSvn => some ((if bit v 31 then s.svnCommit else s).respond 0)
  | _ => none

/-- Registers of clocks, power and housekeeping (chapters 15 to 17). -/
def State.powerWrite (s : State) (a : Accessor) (die : Nat) (r : Reg) (v : Nat) : Option State :=
  match r.fam with
  | .clkCfg =>
    let d := bits v 30 28
    let s := if 1 ≤ d ∧ d ≤ 5 then s.setFld die .clkCfg 30 28 d else s
    some ((if die < 36 then (s.setFld die .clkCfg 31 31 (bits v 31 31)).setFld die .clkStat 23 23 (bits v 31 31) else s).respond 0)
  | .wagCap => some ((if bit v 31 then s.wagCapture die else s).respond 0)
  | .wagCfg => some (s.writeIf (!s.locked 38 && decide (bits v 31 30 ≠ 3)) die r v)
  | .wagExt => some (s.writeIf (decide (bits v 23 0 ≠ 0)) die r v)
  | .pwrLim =>
    let most := bits (Reg.reset r die) 11 0
    if v % 4096 = 0 ∨ most < v % 4096 then some (s.respond 0)
    else
      let s := (s.setFld die .pwrLim 11 0 v).setFld die .pwrLim 31 24 (bits v 31 24)
      some ((if bits v 23 12 = 0 then s else s.setFld die .pwrLim 23 12 (bits v 23 12)).respond 0)
  | .pwrPkgcap =>
    some (s.writeIf (!(bit v 31 && (decide (bits v 12 0 < 1000) || decide (6500 < bits v 12 0)))) die r v)
  | .thmCfg => some (s.writeIf (decide (1 ≤ v % 8) && decide (v % 8 ≤ 4)) die r v)
  | .pwrReset =>
    if !bit v 31 then some (s.respond 0)
    else
      match a.who with
      | .pf _ | .bmc =>
        some ((if s.warmDue.isSome then s
          else { s with warmDue := some (s.hc + 100000), plat := { s.plat with warmWhy := 2 } }).respond 0)
      | _ => some s.accessError
  | .hkXcfg =>
    let w := if r.i % 2 = 1 then setBits v 29 29 (s.fld die .hkXcfg 29 29 r.i) else v
    some (s.plainWrite die r w)
  | .hkUrg => some (s.hkUrgWrite die v)
  | .calCtl => some (s.calCtlWrite v)
  | _ => none

/-- The causes of RAS_ALERTC that persist (R588). -/
def State.alertCauses (s : State) : Nat :=
  let any (p : Nat → Bool) : Nat := b2n ((List.range 40).any p)
  s.fld 38 .wagErr 1 1 +
  (b2n (decide (s.fld 38 .clkErr 0 0 = 1) || decide (s.fld 39 .clkErr 0 0 = 1) || (List.range 40).any (fun d => (s.die d).heat.gated))) <<< 1 +
  b2n (decide (s.fld 38 .pwrErr 1 0 ≠ 0)) <<< 2 +
  any (fun d => (s.die d).heat.tripped) <<< 3 +
  any (fun d => decide (s.fld d .thmEvt 3 2 ≠ 0) || (bit (s.reg d .thmEvt) 0 && bit (s.reg d .thmCfg) 31)) <<< 4 +
  b2n ([38, 39].any (fun kd => (List.range 8).any (fun i => bit (s.reg kd .hkErr) (16 + i) && bit (s.reg kd .hkXcfg i) 30))) <<< 5 +
  any (fun d => decide (s.fld 38 .calDie 61 61 d = 1)) <<< 6 +
  b2n (decide (s.fld 38 .secBoot 31 30 = 2) || decide (s.fld 38 .secBoot 28 28 = 0)) <<< 7 +
  b2n (decide (s.swState = 5)) <<< 8 +
  b2n (decide (s.reg 38 .rasAlert ≠ 0)) <<< 9 +
  b2n s.plat.noSpare <<< 10 +
  b2n (decide (s.plat.lostKd ≠ 0)) <<< 12

/-- Registers of reliability, pins, trace and monitors (chapters 18 to 20). -/
def State.obsWrite (s : State) (die : Nat) (r : Reg) (v : Nat) : Option State :=
  match r.fam with
  | .rasCtl =>
    let s := s.setFld die .rasCtl 31 31 (bits v 31 31)
    let s := if v % 16 = 0 then s else s.setFld die .rasCtl 3 0 v
    some ((if bit v 30 ∧ s.fld die .rasCtl 30 30 = 0 then (s.setFld die .rasCtl 30 30 1).faultA die 0x0E else s).respond 0)
  | .rasAlertc =>
    let s := s.plainWrite die r v
    some (s.orReg die .rasAlertc s.alertCauses)
  | .pinSbcfg => some (s.sbcfgWrite die r.i v)
  | .dbgTcfg =>
    let p := bits v 20 16
    let s := (s.setFld die .dbgTcfg 31 30 (bits v 31 30)).setFld die .dbgTcfg 29 29 (bits v 29 29)
    some ((if 6 ≤ p ∧ p ≤ 16 then s.setFld die .dbgTcfg 20 16 p else s).respond 0)
  | .dbgTstart => some ((s.plainWrite die r v).windowStart die)
  | .dbgTstop => some ((s.plainWrite die r v).windowStop die)
  | .dbgTsize => some (s.writeIf (decide (v % 65536 ≠ 0)) die r v)
  | .dbgRstatc => some (s.rstatWrite die (.core r.i) v)
  | .dbgRstatu => some (s.rstatWrite die (.unit r.i) v)
  | .monCfg => some (s.writeIf (!bit (s.reg die .monCfg r.i) 63 || !bit v 63) die r v)
  | .monLbase => some (s.writeIf (!bit (s.reg die .monCfg r.i) 63) die r v)
  | .monCtl => some ((s.monControl (monKey false die r.i) (bit v 30) (bit v 31)).respond 0)
  | .moncCtl => some ((s.monControl (monKey true die r.i) (bit v 30) (bit v 31)).respond 0)
  | _ => none

/-- A write of a register. -/
def State.regWrite (s : State) (a : Accessor) (die : Nat) (r : Reg) (v : Nat) : State :=
  let first := (s.cdWrite die r v).orElse (fun _ => (s.mdWrite a die r v).orElse (fun _ => (s.srvWrite die r v).orElse (fun _ =>
    (s.fabWrite a die r v).orElse (fun _ => (s.wgtWrite die r v).orElse (fun _ => (s.cmdWrite a die r v).orElse (fun _ =>
    (s.powerWrite a die r v).orElse (fun _ => s.obsWrite die r v)))))))
  first.getD (s.plainWrite die r v)

/-! ## Memory and windows -/

/-- The forms of an access that is not to a register (R347). -/
def formOk (off len : Nat) : Bool :=
  ((decide (len = 4) || decide (len = 8)) && decide (off % len = 0)) ||
  (decide (64 ≤ len) && decide (len ≤ 4096) && decide (len % 64 = 0) && decide (off % 64 = 0) && decide (off % 4096 + len ≤ 4096))

/-- A fabric read of a buffer: an uncorrectable error is recorded, and the read completes with POISON (R113). -/
def State.bufRead (s : State) (die off len : Nat) (f : RegFam) (i base : Nat) : State :=
  let a := pkgAddr die off
  let (w, at_) := s.worstErr a len
  if w = 0 then s.respond 0 (s.readAt a len)
  else
    let r := s.reg die f i
    let s := if bits r 63 62 = 0 then s.setFld die f 19 3 ((at_ - pkgAddr die base) / 8) i else s
    let ce := s.countCe a len
    let s := if 0 < ce then (s.setFld die f 62 62 1 i).addFld die f 47 32 ce i else s
    let s := if w = 2 then s.setFld die f 63 63 1 i else s
    s.respond (if w = 2 then 4 else 0) (s.readAt a len)

/-- The memories of a compute die (R95, R112, R385). -/
def State.cdMemory (s : State) (die off len : Nat) (w : Option (List Byte)) : State :=
  if off < 0x2000000 then
    let k := off / 65536
    match w with
    | none => if formOk off len then s.bufRead die off len .coreBufErr k (coreBuf k) else s.respond 2
    | some bs => if formOk off len ∧ s.coreState die k = 0 then (s.writeMem die off bs).respond 0 else s.respond 2
  else if off < 0x6000000 then
    let c := (off - 0x2000000) / 0x100000
    match w with
    | none => if formOk off len then s.bufRead die off len .clbBufErr c (clusterBuf c) else s.respond 2
    | some bs =>
      if formOk off len ∧ (clusterCores c).all (fun k => decide (s.coreState die k = 0)) then (s.writeMem die off bs).respond 0
      else s.respond 2
  else if 0x8000000 ≤ off ∧ off < 0x9000000 then
    let k := (off - 0x8000000) / 32768
    match w with
    | none => if formOk off len then s.respond 0 (s.readMem die off len) else s.respond 2
    | some bs => if formOk off len ∧ s.coreState die k = 0 then (s.writeMem die off bs).respond 0 else s.respond 2
  -- the loader windows take writes of a memory die's reliability engine alone (State.windowWrite)
  else if 0x3F0200000000 ≤ off ∧ off < 0x3F0220000000 then s.respond 2
  else if 0x3F0240000000 ≤ off ∧ off < 0x3F0264000000 then s.respond 2
  else s.respond 1

/-- Whether a staged step-program image, or one being hashed, holds part of a range of MD0 (R433). -/
def State.imageHolds (s : State) (md off len : Nat) : Bool :=
  let v := s.reg 38 .cmdStage
  let b := bits v 29 0 * 65536
  let old := match s.host.stage with
    | some x => decide (x.oldBase < off + len) && decide (off < x.oldBase + x.oldLen)
    | none => false
  decide (md = 32) &&
    (old || (decide (bits v 63 62 ≠ 0) && decide (b < off + len) && decide (off < b + bits v 61 30)))

/-- ACCESS from a memory die, recorded in MDA_ERR (R267). -/
def State.mdRefuse (s : State) (a : Accessor) (md : Nat) : State := (s.mdErr md 14 { sender := a.sdie }).respond 2

/-- The HBM of a memory die by its regions (R230, R473). -/
def State.hbmAccess (s : State) (a : Accessor) (md off len : Nat) (w : Option (List Byte)) : State :=
  match (List.range 5).find? (fun kind => insideRegion (s.region md kind) off len) with
  | none => s.respond 1
  | some kind =>
    let debug := decide (a.who = .jtag) && decide (s.debugState = 2)
    let viewP := decide (a.ctx = none) && decide (a.who ≠ .jtag)
    let read (s : State) : State :=
      let (bs, bad, s) := s.hbmRead md off len
      s.respond (if bad then 4 else 0) bs
    if !formOk off len then s.respond 2
    else match w with
    | none => if debug ∧ kind ≠ 4 ∨ viewP ∧ (kind = 0 ∨ kind = 4) then read s else s.mdRefuse a md
    | some bs =>
      if kind = 4 then
        if viewP ∧ !s.imageHolds md off len then (s.writeMem md off bs).respond 0 else s.mdRefuse a md
      else if !debug then s.mdRefuse a md
      else if kind ≠ 0 then (s.writeMem md off bs).respond 0
      else
        -- a record of GOLD is written only with the checks of R387
        let d := off - ((s.region md 0).getD (0, 0)).1
        let set := d / setStride
        let r := d % setStride / recordSize
        let b := d % setStride % recordSize
        if set < 2 ∧ r < 131072 ∧ b + len ≤ recordSize then
          let (st, s) := s.goldWrite md a.sdie set r b bs
          s.respond st
        else s.mdRefuse a md

/-- The memory and the windows of a memory die (R229, R239, R386). -/
def State.mdMemory (s : State) (a : Accessor) (md off len : Nat) (w : Option (List Byte)) : State :=
  let viewP := decide (a.ctx = none)
  if off < 0x1200000000 then s.hbmAccess a md off len w
  else if 0x3F0044000000 ≤ off ∧ off < 0x3F0045000000 then
    match w with
    | some bs =>
      if viewP ∧ formOk off len then
        (s.mdBytes md { spkg := a.spkg, sdie := a.sdie, mcv := false, id := a.unit } (some (off - 0x3F0044000000)) bs).respond 0
      else s.mdRefuse a md
    | none => s.mdRefuse a md
  else if 0x3F0100000000 ≤ off ∧ off < 0x3F0200000000 then
    match w with
    | some bs =>
      if viewP ∧ formOk off len then
        let d := off - 0x3F0100000000
        let (st, s) := s.goldWrite md a.sdie (d / 0x80000000) (d % 0x80000000 / 0x4000) (d % 0x4000) bs
        s.respond st
      else s.mdRefuse a md
    | none => s.mdRefuse a md
  else s.respond 1

/-- The windows of a control die: the draft windows (R291), and where completion records arrive (R242). -/
def State.kdMemory (s : State) (a : Accessor) (kd off len : Nat) (w : Option (List Byte)) : State :=
  if 0x3F0053000000 ≤ off ∧ off < 0x3F0053400000 then
    let k := (off - 0x3F0053000000) / 256
    let own := match a.ctx with | none => true | some c => decide (s.sctx k = c)
    if !formOk off len then s.respond 2
    else if !own then s.respond isoStatus
    else match w with
      | none => s.respond 0 (s.readMem 38 off len)
      | some bs => (s.draftWrite k (off % 256) bs).respond 0
  else if kd = s.servingDie ∧ off = recordOff then
    match w with
    | some bs =>
      if a.ctx = none ∧ len = 8 then { s with srv := { s.srv with records := s.srv.records ++ [(a.sdie, bs)] } }.respond 0
      else s.respond 2
    | none => s.respond 2
  else s.respond 1

/-! ## An access at its target, and on its way -/

/-- The memories and windows of a compute die. -/
def cdPopulated (off : Nat) : Bool :=
  decide (off < 0x6000000) || (decide (0x8000000 ≤ off) && decide (off < 0x9000000)) ||
  (decide (0x3F0200000000 ≤ off) && decide (off < 0x3F0220000000)) ||
  (decide (0x3F0240000000 ≤ off) && decide (off < 0x3F0264000000))

/-- Whether view U is kept from a place: a register of view P or of another context, or the memory of a compute or memory die
(R9). -/
def State.viewRefused (s : State) (a : Accessor) (die off : Nat) : Bool :=
  match regOver die off with
  | some r => r.defined && !s.inView a die r
  | none => false

/-- Words of a table entry that is wider than a register. -/
def RegFam.words : RegFam → Nat
  | .mdaLtab => 16
  | .mdaRqt => 4
  | .nocRgt => 2
  | _ => 1

/-- Whether an access is to a whole entry of such a table, which is as wide as the entry (R347). -/
def Reg.isEntry (r : Reg) (die off len : Nat) : Bool :=
  decide (1 < r.fam.words) && decide (r.j % r.fam.words = 0) && decide (regAt die off = some r) && decide (len = 8 * r.fam.words)

/-- An access to a whole entry. -/
def State.entryAccess (s : State) (a : Accessor) (die : Nat) (r : Reg) (w : Option (List Byte)) : State :=
  let word (i : Nat) : Reg := { r with j := r.j + i }
  match w with
  | none =>
    let (bs, s) := (List.range r.fam.words).foldl (fun (x : List Byte × State) i =>
      let t := x.2.regRead die (word i)
      (x.1 ++ t.resp.data, t)) ([], s)
    s.respond 0 bs
  | some bs =>
    let v (i : Nat) : Nat := numAt bs (8 * i) 8
    if r.fam = .mdaLtab then s.ltabWrite die r.i 0 ((List.range 16).map (fun i => BitVec.ofNat 64 (v i)))
    else (List.range r.fam.words).foldl (fun s i => s.regWrite a die (word i) (v i)) s

/-- What the target die does with an access (R336, R348): the status of R350 and the data stand in `resp`. A place without a
register, memory or window is ADDR for every accessor. -/
def State.target (s : State) (a : Accessor) (die off len : Nat) (w : Option (List Byte)) : State :=
  match regOver die off with
  | some r =>
    if !r.defined then s.respond 1
    else if !s.inView a die r then
      s.respond (match a.who with | .vf _ _ => if a.spkg = s.pkgId die then isoStatus else 2 | _ => 2)
    else if a.who = .jtag ∧ !r.isDebug then s.respond 2
    else if r.isEntry die off len then s.entryAccess a die r w
    else if !r.fits die off len then s.respond 2
    else
      let home := r.home die
      match w with
      | none => if s.readsMirror die r then s.mirrorRead r else s.regRead home r
      | some bs => s.regWrite a home r (ofBytes bs)
  | none =>
    if die < 32 then
      if !cdPopulated off then s.respond 1
      else if a.ctx = none ∧ a.who ≠ .jtag then s.cdMemory die off len w
      else s.respond 2
    else if die < 36 then s.mdMemory a die off len w
    else if die < 38 then s.respond 1
    else s.kdMemory a die off len w

/-- Reads that fail return zeros (R6, R365). -/
def State.zeroFill (s : State) (len : Nat) (w : Option (List Byte)) : State :=
  if w = none ∧ s.resp.status ≠ 0 ∧ s.resp.status ≠ 4 then s.respond s.resp.status (List.replicate len 0#8)
  else if w ≠ none then s.respond s.resp.status else s

/-- The target's own record of a refused access (R375, R376). -/
def State.noteRefusal (s : State) (a : Accessor) (die tag : Nat) (read : Bool) : State :=
  let st := s.resp.status
  if st ≠ 1 ∧ st ≠ 2 ∧ st ≠ isoStatus then s
  else
    let r := s.resp
    let gen := if die = a.sdie then 0 else Tab.get 0 (s.fab a.sdie).gens (4096 * a.unit + tag)
    let s := s.fabErr die (if st = 1 then 0 else 1)
      { type := if read then 1 else 2, spkg := a.spkg, sdie := a.sdie, unit := a.unit, tag, gen } 0
    { s with resp := r }

/-- The tag of an access to another die of the package that is performed within the step: the lowest free one. None where it
has to wait, for a tag, on a link, or behind an earlier request of its unit that is still under way (R349, R353, R366). -/
def State.tagAtOnce (s : State) (a : Accessor) (die : Nat) : Option Nat :=
  let f := s.fab a.sdie
  let behind := f.waits.any (fun w => decide (w.1 = a.unit)) || f.reqs.any (fun r => decide (r.unit = a.unit) && !r.remote)
  if behind || !s.reaches a.sdie die then none else f.freeTag a.unit

/-- The request of an access, with its view and context. -/
def State.accessRequest (s : State) (a : Accessor) (die off len : Nat) (w : Option (List Byte)) : Msg :=
  { accessMsg (pkgAddr die off) len w with dpkg := s.pkgId a.sdie, priv := a.ctx.isNone, ctx := a.ctx.getD 0 }

/-- An access to a die of the own package (R336, R353, R364). Die 40 to 63 is ADDR at the requester's die. One to the own die
needs no message. One to another die takes a tag: where nothing holds it up it is performed and answered within the step,
and the tag is free again; else it goes as a request, whose answer does what `use` says (log entry 41). -/
def State.access (s : State) (a : Accessor) (use : Use) (die off len : Nat) (w : Option (List Byte)) : State :=
  if 40 ≤ die then
    ((s.fabErr a.sdie 0 { s.accessRequest a die off len w with unit := a.unit, sdie := a.sdie, spkg := a.spkg } 0).respond 1).zeroFill len w
  else if die = a.sdie then ((s.target a die off len w).noteRefusal a die 0 w.isNone).zeroFill len w
  else
    match s.tagAtOnce a die with
    | some tag =>
      let m := { s.accessRequest a die off len w with spkg := a.spkg, sdie := a.sdie, inp := s.entry a.sdie die }
      let s := (s.cross die m).target a die off len w
      ((s.crossBack die m (if w.isNone then s.resp.data else [])).noteRefusal a die tag w.isNone).zeroFill len w
    | none =>
      if (match a.who with | .vf _ _ => s.viewRefused a die off | _ => false) then (s.respond isoStatus).zeroFill len w
      else (s.requestWait a.sdie a.unit use (s.accessRequest a die off len w)).respond waitStatus

/-- The global address of a die's offset in the own package (R5). -/
def State.globalAddr (s : State) (die off : Nat) : Nat := s.pkgId 38 * 2 ^ 52 + pkgAddr die off

/-- An MMIO access that has been answered: an error is recorded at the accessing function, and the data are zeros (R415). -/
def State.mmioDone (s : State) (who : Who) (addr : Nat) : State :=
  let st := s.resp.status
  let bs := s.resp.data
  if st = 0 ∨ st = 4 ∨ st = waitStatus then s
  else if st = isoStatus then (s.isolation who addr).respond 2 bs
  else (s.mmioError who st addr).respond st bs

/-- An MMIO access (R415): an error completes it with zeros, and is recorded at the accessing function. -/
def State.mmio (s : State) (who : Who) (use : Use) (die off len : Nat) (w : Option (List Byte)) : State :=
  (s.access (s.accessor who) use die off len w).mmioDone who (s.globalAddr die off)

/-- The function block of function `f` (R414). -/
def fnBlock (f : Nat) : Nat := 0x3F0000100000 + 0x10000 * f

/-- Whether a place lies where the BARs of an accessor lead: a virtual function's to its own function block alone (R413). -/
def barReaches (who : Who) (die off : Nat) : Bool :=
  match who with
  | .vf p f => decide (die = 38 + p) && decide (fnBlock f ≤ off) && decide (off < fnBlock f + 0x10000)
  | _ => true

/-- A read or write of a register by a command of the block's user. -/
def State.mmioOf (s : State) (who : Who) (die off len : Nat) (w : Option (List Byte)) : State :=
  if barReaches who die off then s.mmio who (.mmio who (s.globalAddr die off)) die off len w
  else ((s.respond isoStatus).zeroFill len w).mmioDone who (s.globalAddr die off)

/-- REGISTER_WRITE: a write of `width` bits. -/
def execRegisterWrite (who : Who) (die off width : Nat) (v : Word64) (s : State) : Out :=
  .next (s.mmioOf who die off (width / 8) (some (toBytes (width / 8) v.toNat)))

/-- READ_CLEAR: a read; RC fields clear after it (R7, R8). -/
def execReadClear (who : Who) (die off width : Nat) (s : State) : Out :=
  .next (s.mmioOf who die off (width / 8) none)

end Sys2Proof.Machine
end

