-- ==== Sys2Proof/Machine/Switch.lean ====
section
/-!
DEFINITION. Step-program images and the running of a switch (R397 to R400, R429, R432 to R434).
-/

namespace Sys2Proof.Machine

/-! ## Step-program images (R432) -/

/-- A section of an image. -/
structure Section where
  die : Nat
  kind : Nat
  off : Nat
  data : List Byte
  deriving DecidableEq, Repr

/-- The sections of an image's bytes after its header: exactly `n` of them, padded with zeros to 16 bytes. -/
def sections : Nat → List Byte → Option (List Section)
  | 0, bs => if bs = [] then some [] else none
  | n + 1, bs =>
    let len := numAt bs 8 4
    let whole := 16 + ceilDiv len 16 * 16
    let data := (bs.drop 16).take len
    let pad := ((bs.drop 16).take (whole - 16)).drop len
    if bs.length < whole ∨ len = 0 ∨ len % 4 ≠ 0 ∨ 16777216 < len ∨ pad.any (fun b => decide (b ≠ 0#8)) then none
    else
      (sections n (bs.drop whole)).map (fun t =>
        { die := byteAt bs 0 % 64, kind := byteAt bs 1, off := numAt bs 2 6 % 2 ^ 46, data } :: t)

/-- The sections of an image whose header is good. -/
def imageSections (img : List Byte) : Option (List Section) :=
  if img.length < 64 ∨ numAt img 0 4 ≠ 0x4D525053 ∨ numAt img 4 2 ≠ 1 then none
  else sections (numAt img 8 4) (img.drop 64)

/-- The registers that a REG section may write. -/
def RegFam.inImage : RegFam → Bool
  | .coreFmode | .coreWdog | .coreSoft | .engTvCtl | .engScrubCtl | .nocRgt | .nocMgt | .nocCrt | .mdaLtab
  | .srvCosta | .srvCostb => true
  | _ => false

/-- The writes of a REG section, in order: a register with its values. Both words of a NOC_RGT entry are written second
word first, and all the words of an MDA_LTAB entry as one, so that each is checked with its whole contents. -/
def sectionWrites (die : Nat) : Nat → Nat → List Byte → Option (List (Reg × List Nat))
  | 0, _, bs => if bs = [] then some [] else none
  | n + 1, off, bs =>
    if bs = [] then some []
    else
      match regAt die off with
      | none => none
      | some r =>
        let w := r.fam.shape.width / 8
        let v (i : Nat) : Nat := numAt bs (8 * i) 8
        if !r.fam.inImage ∨ bs.length < w then none
        else if r.fam = .nocRgt ∧ r.j % 2 = 0 ∧ 16 ≤ bs.length then
          (sectionWrites die n (off + 16) (bs.drop 16)).map (fun t => (⟨.nocRgt, r.i, r.j + 1⟩, [v 1]) :: (r, [v 0]) :: t)
        else if r.fam = .mdaLtab ∧ r.j = 0 ∧ 128 ≤ bs.length then
          (sectionWrites die n (off + 128) (bs.drop 128)).map (fun t => (r, (List.range 16).map v) :: t)
        else (sectionWrites die n (off + w) (bs.drop w)).map (fun t => (r, [numAt bs 0 w]) :: t)

/-- Where PMAP entries lie, 16,384 of them. -/
def pmapBase : Nat := Reg.off ⟨.wgtPmap, 0, 0⟩

/-- A section is of the kinds and targets of R432. -/
def Section.wellFormed (x : Section) : Bool :=
  match x.kind with
  | 1 => decide (x.die < 32) &&
    (decide (x.off + x.data.length ≤ 0x6000000) || (decide (0x8000000 ≤ x.off) && decide (x.off + x.data.length ≤ 0x9000000)))
  | 2 => (sectionWrites x.die x.data.length x.off x.data).isSome
  | 3 => decide (x.die = 38) && decide (pmapBase ≤ x.off) && decide (x.off % 4 = 0) &&
    decide (x.off + x.data.length ≤ pmapBase + 65536)
  | _ => false

/-- One write of a REG section; whether it was accepted. -/
def State.imageWrite (s : State) (die : Nat) (r : Reg) (vs : List Nat) : Bool × State :=
  let s := s.respond 0
  let s := match r.fam, vs with
    | .mdaLtab, _ => s.ltabWrite die r.i r.j (vs.map (BitVec.ofNat 64))
    | _, v :: _ => s.regWrite (s.accessor .firmware) die r v
    | _, [] => s
  (decide (s.resp.status = 0), s)

/-- Apply a section; whether every register write of it was accepted. -/
def State.applySection (s : State) (x : Section) : Bool × State :=
  match x.kind with
  | 1 => (true, s.writeMem x.die x.off x.data)
  | 2 =>
    match sectionWrites x.die x.data.length x.off x.data with
    | none => (false, s)
    | some ws => ws.foldl (fun a w => let (ok, s) := a.2.imageWrite x.die w.1 w.2; (a.1 && ok, s)) (true, s)
  | 3 =>
    (true, (List.range (x.data.length / 4)).foldl (fun s i =>
      s.setReg 38 .wgtPmap (numAt x.data (4 * i) 4 &&& 0x80000FFF) ((x.off - pmapBase) / 4 + i)) s)
  | _ => (false, s)

def State.applySections (s : State) (xs : List Section) : Bool × State :=
  xs.foldl (fun a x => let (ok, s) := a.2.applySection x; (a.1 && ok, s)) (true, s)

/-- Whether a register key lies in a table that an image starts from zero: NOC_RGT, NOC_MGT, NOC_CRT, MDA_LTAB. -/
def imageTable (key : Nat) : Bool :=
  let die := key / 2 ^ 46
  let off := key % 2 ^ 46
  (decide (die < 32) && decide (0x3F0018000000 ≤ off) && decide (off < 0x3F0018400000)) ||
  (decide (32 ≤ die) && decide (die < 36) && decide (0x3F0042000000 ≤ off) && decide (off < 0x3F0042080000))

/-- Every NOC_RGT, NOC_MGT, NOC_CRT and MDA_LTAB entry becomes zero; the instance counters go with their entries. -/
def State.zeroTables (s : State) : State :=
  { s with csr := Tab.keep (fun k => !imageTable k) s.csr
           routers := Tab.mapAll {} (fun _ r => { r with inst := [], badInst := [] }) s.routers }

/-- The content checks of R433: the writes are checked as applied to tables that are all zero, with nothing running. -/
def State.imageAccepted (s : State) (xs : List Section) : Bool :=
  let t := { s.zeroTables with cores := [], routers := [], engines := [] }
  let t := { t with csr := Tab.keep (fun k => !(decide (0x3F0043000000 ≤ k % 2 ^ 46) && decide (k % 2 ^ 46 < 0x3F0043080000))) t.csr }
  (t.applySections (xs.filter (fun x => decide (x.kind = 2)))).1

/-! ## Staging (R429, R433) -/

/-- CMD_STAGE: STATE, LEN and BASE. -/
def State.setStage (s : State) (st base len : Nat) : State :=
  s.setReg 38 .cmdStage (st * 2 ^ 62 + len % 2 ^ 32 * 2 ^ 30 + base / 65536 % 2 ^ 30)

def State.stageState (s : State) : Nat := s.fld 38 .cmdStage 63 62

/-- Nothing is staged any more. -/
def State.unstage (s : State) : State :=
  let s := { s.setStage 0 0 0 with host := { s.host with stage := none } }
  (List.range 6).foldl (fun s i => s.setReg 38 .cmdSdig 0 i) s

/-- PROG_STAGE starts: a status with which it completes at once, or the hash begins. -/
def State.progStage (s : State) (fn q id off len : Nat) (digest : List Byte) : Option Nat × State :=
  if s.swState = 3 ∨ s.swState = 4 ∨ s.fld 38 .wgtSeal 30 30 = 1 ∨ s.stageState = 1 then (some 0x0E, s)
  else if off % 65536 ≠ 0 ∨ len = 0 ∨ !insideRegion (s.region 32 4) off len then (some 0x0D, s.unstage)
  else
    let v := s.reg 38 .cmdStage
    let x : Stage := { fn, q, id, digest
                       oldBase := bits v 29 0 * 65536, oldLen := if s.stageState = 2 then bits v 61 30 else 0 }
    let s := s.unstage.setStage 1 off len
    (none, { s with host := { s.host with stage := some x } })

/-- STAGE_HASH_DONE: the checks of R433, and the completion of the PROG_STAGE. -/
def State.stageHashDone (s : State) : State :=
  match s.host.stage with
  | none => s
  | some x =>
    let v := s.reg 38 .cmdStage
    let base := bits v 29 0 * 65536
    let len := bits v 61 30
    let (img, bad, s) := s.hbmRead 32 base len
    let ok := !bad && decide (sha384 img = x.digest) && (match imageSections img with
      | some xs => xs.all (fun y => y.wellFormed) && s.imageAccepted xs
      | none => false)
    let s := s.unstage
    if ok then
      let s := s.setStage 2 base len
      let s := (List.range 6).foldl (fun s i => s.setReg 38 .cmdSdig (numAt x.digest (8 * i) 8) i) s
      s.complete x.fn x.q x.id 0 0
    else s.complete x.fn x.q x.id 0x0D 0

def execStageHashDone (s : State) : Out := .next s.stageHashDone

/-- PROG_UNSTAGE: its status; one that ends a hash completes the waiting PROG_STAGE with DIGEST. -/
def State.progUnstage (s : State) : Nat × State :=
  if s.swState = 3 ∨ s.swState = 4 then (0x0E, s)
  else
    let t := s.unstage
    (0, match s.host.stage with | some x => t.complete x.fn x.q x.id 0x0D 0 | none => t)

/-! ## The switch itself (R397) -/

/-- The staged image's sections, as they stand in MD0. -/
def State.stagedSections (s : State) : List Section :=
  let v := s.reg 38 .cmdStage
  (imageSections (s.readMem 32 (bits v 29 0 * 65536) (bits v 61 30))).getD []

/-- Step 3: tables to zero, then the image in its order (R434). -/
def State.applyImage (s : State) : State :=
  let s := s.zeroTables
  let s := { s with csr := Tab.keep (fun k => !(decide (pkgAddr 38 pmapBase ≤ k) && decide (k < pkgAddr 38 pmapBase + 65536))) s.csr }
  let s := (s.applySections s.stagedSections).2
  -- every request slot is FREE, so nothing is retained, logged or owed for the programs that have stopped (R570)
  let s := (List.range 32).foldl (fun s cd =>
    let d := s.die cd
    (s.setFab cd { s.fab cd with retained := [], log := [] }).setDie cd { d with ras := { d.ras with owed := [], csets := [], grants := [] } }) s
  { s with sec := { s.sec with program := s.stagedDigest } }

/-- Every entry of ENG_MAPL of every core with EN = 0. -/
def State.clearMaps (s : State) : State :=
  (s.touched .engMapl).foldl (fun s e => (List.range 16).foldl (fun s l => s.maplWrite e.1 e.2 l false (s.mapl e.1 e.2 l).2) s) s

/-- Step 5 for the record of side index `r`: it starts on its way into the engine of its entry. -/
def State.fillRecord (s : State) (set side r : Nat) : State :=
  if s.swState ≠ 4 then s
  else
    let (cd, k, l) := recordPlace side r
    let md := primaryOf cd
    match s.refillRead md set r with
    | (none, s) => s.switchFail 7
    | (some b, s) => s.addLoader (loaderOf md cd k (s.mapl cd k l).2 l 0 b)

/-- Steps 4 and 5: the engines of every valid record of the set are chosen, and then the records are sent; none when some core
has too few engines. -/
def State.startFill (s : State) (set : Nat) : State :=
  let rs (side : Nat) : List Nat := s.validRecords (32 + 2 * side) set
  match (s.placeRecords 0 (rs 0)).bind (fun s => s.placeRecords 1 (rs 1)) with
  | none => s.switchFail 6
  | some s => [0, 1].foldl (fun s side => (rs side).foldl (fun s r => s.fillRecord set side r) s) s

/-- SWITCH_CORES_STOPPED: steps 2 to 5, once every core is STOPPED. -/
def State.coresStopped (s : State) : State :=
  if s.swState = 4 ∧ !s.switch.applied ∧ s.cores.all (fun e => decide (e.2.run = .stopped)) then
    let set := s.fld 38 .wgtSwctl 27 27
    let s := mdIds.foldl (fun s d => (s.setFld d .mdaGold 0 0 set).setGold d { s.gold d with refills := [] }) s
    let s := { s with loaders := s.loaders.filter (fun x => x.reply.isSome), switch := { s.switch with applied := true }, plat := { s.plat with noSpare := false } }
    s.applyImage.clearMaps.startFill set
  else s

def execSwitchCoresStopped (s : State) : Out := .next (s.coresStopped)

/-- Dies that stand FAILED with NO_SPARE return to IDLE: the new configuration runs without the lost engines. -/
def State.clearNoSpare (s : State) : State :=
  (List.range 32).foldl (fun s d =>
    if s.fld d .rasStat 63 61 = 7 ∧ s.fld d .rasStat 60 56 = 0x0B then
      let s := s.setFld d .rasStat 63 61 0
      (s.setReg 38 .rasAlert (setBits (s.reg 38 .rasAlert) d d 0)).setDie d { s.die d with faults := [], ras := {} }
    else s) s

/-- Every core of every CD starts. -/
def State.runAll (s : State) : State :=
  (List.range 32).foldl (fun s cd => s.watch cd (List.range 512) (fun s => (List.range 512).foldl (fun s k => s.coreRun cd k) s)) s

/-- Firmware may start cores: KD0's waggle state is LOCKED or HOLDOVER, and every copy of a CD is valid (R495, R632). -/
def State.mayRun (s : State) : Bool :=
  decide (2 ≤ s.fld 38 .wagStat 31 29) && (List.range 32).all (fun cd => (s.die cd).wagValid)

/-- SWITCH_FILL_DONE: step 7; a die that had run out of spares is in service again (R576). -/
def State.fillDone (s : State) : State :=
  if s.swState = 4 ∧ s.switch.applied ∧ s.loaders.all (fun x => decide (x.why ≠ 0)) ∧ s.mayRun then
    let s := s.clearNoSpare.runAll
    let s := (s.setSw 0).swResult 0
    let s := s.setFld 38 .wgtSwstat 15 0 (min 0xFFFF ((s.hc - s.switch.startHc) / 100))
    let s := { s with switch := {} }
    (s.eventBoth 2 (s.reg 38 .wgtSwstat)).evalAll
  else s

def execSwitchFillDone (s : State) : Out := .next s.fillDone

end Sys2Proof.Machine
end

