-- ==== Sys2Proof/Machine/HostCmd.lean ====
section
/-!
DEFINITION. The commands of the host queues: fetching, field checks, the CP2 and CP1 commands, host-memory reads,
apertures, function resets and configuration requests (R412 to R440, R465, R599).
-/

namespace Sys2Proof.Machine

/-! ## Fetching (R417, R439) -/

/-- SQ_FETCH: the next entry of an ACTIVE pair is read once the CQ has room for its completion. -/
def State.sqFetch (s : State) (fn q : Nat) : State :=
  let p := s.pair fn q
  let n := s.sqSize fn q
  if s.qstate fn q = 1 ∧ p.tail ≠ p.fetched % n ∧ p.cmds.length + (p.posted - p.consumed) < s.cqSize fn q then
    let d := 38 + fnPort fn
    let base := bits (s.reg d .cmdSqb (fnNo fn) q) 63 12 * 4096
    let s := s.readHost fn (base + s.entrySize fn q * (p.fetched % n)) (s.entrySize fn q) (.entry fn q p.fetched)
    let s := s.setPair fn q { p with cmds := p.cmds ++ [{ id := p.fetched }], fetched := p.fetched + 1 }
    s.setFld d .cmdQstat 27 16 ((p.fetched + 1) % n) (fnNo fn) q
  else s

def execSqFetch (fn q : Nat) (s : State) : Out := onPair fn q s (fun s => s.sqFetch fn q)

/-! ## Which command starts (R419, R420) -/

/-- Change a command of a pair. -/
def State.updCmd (s : State) (fn q id : Nat) (f : Cmd → Cmd) : State :=
  let p := s.pair fn q
  s.setPair fn q { p with cmds := p.cmds.map (fun c => if c.id = id then f c else c) }

/-- A command has started and has not completed. -/
def State.begun (s : State) (fn q id : Nat) : State := s.updCmd fn q id (fun c => { c with started := true })

/-- The command of a pair that starts next: the first that has not started, once its entry has arrived; one with FENCE
waits until every earlier one has completed. -/
def State.nextCmd (s : State) (fn q : Nat) : Option (Nat × List Byte) :=
  let p := s.pair fn q
  match p.cmds.find? (fun c => !c.started) with
  | none => none
  | some c =>
    match c.bytes with
    | none => none
    | some b =>
      let fence := !s.isCp1 fn q && bit (byteAt b 1) 0
      if fence && !decide (p.cmds.head?.map (fun x => x.id) = some c.id) then none else some (c.id, b)

/-- Opcodes that control-die firmware performs (R425). -/
def isFirmware (opc : Nat) : Bool := [0x20, 0x21, 0x30].contains opc

/-- Firmware takes the commands of a port in the order of their arrival: no command for it that arrived earlier is next in
another queue of the port (R420). -/
def State.firmwareTurn (s : State) (fn q id : Nat) : Bool :=
  let seqOf (p : Pair) (i : Nat) : Nat := ((p.cmds.find? (fun c => decide (c.id = i))).map (fun c => c.seq)).getD 0
  let mine := seqOf (s.pair fn q) id
  s.host.pairs.all (fun (e : Nat × Pair) =>
    let f := e.1 / 64
    let r := e.1 % 64
    decide (fnPort f ≠ fnPort fn) || (decide (f = fn) && decide (r = q)) || s.isCp1 f r ||
    (match s.nextCmd f r with
     | some (i, b) => !isFirmware (byteAt b 0) || decide (mine < seqOf e.2 i)
     | none => true))

/-! ## Fields (R423, R435) -/

/-- A number whose ones are the bits that the listed fields (byte, length, mask) may set. -/
def fieldMask (fields : List (Nat × Nat)) : Nat := fields.foldl (fun a f => a ||| f.2 <<< (8 * f.1)) 0

/-- Every bit outside the mask is zero. -/
def unusedZero (n : Nat) (b : List Byte) (fields : List (Nat × Nat)) : Bool :=
  decide (numAt b 0 n &&& fieldMask fields = numAt b 0 n)

/-- OPC, FENCE, CID and CTX of a CP2 entry. -/
def cp2Common : List (Nat × Nat) := [(0, 0xFF), (1, 1), (2, 0xFFFF), (4, 0x3FF)]

/-- The fields of each CP2 opcode beside the common ones (R425); none for a code that is not one. -/
def cp2Fields (opc : Nat) : Option (List (Nat × Nat)) :=
  let dptr := (8, 2 ^ 64 - 1)
  let dlen := (16, 2 ^ 32 - 1)
  let slot := (20, 0x3FFF)
  let p1 := (24, 2 ^ 64 - 1)
  match opc with
  | 0x01 => some [dptr, (20, 0x0FFF800F), (64, 2 ^ 512 - 1)]
  | 0x02 => some [slot]
  | 0x03 => some [slot, dptr, dlen]
  | 0x04 => some [slot, (24, 0x1FFF)]
  | 0x10 => some [p1, (20, 1)]
  | 0x11 => some [p1, (32, 2 ^ 64 - 1), (20, 1)]
  | 0x12 => some [dptr, dlen, p1, (20, 1)]
  | 0x13 => some [dptr, dlen, p1]
  | 0x20 => some [p1, dlen, (64, 2 ^ 384 - 1)]
  | 0x21 | 0x30 | 0x3F => some []
  | _ => none

/-- The fields of each CP1 opcode (R435, R436). -/
def cp1Fields (opc : Nat) : Option (List (Nat × Nat)) :=
  let head : List (Nat × Nat) := [(0, 0xFF), (2, 0xFFFF)]
  match opc with
  | 0x01 => some (head ++ [(1, 3), (4, 0x3FF), (6, 2 ^ 408 - 1), (60, 2 ^ 32 - 1)])
  | 0x02 => some (head ++ [(4, 0x3FFF)])
  | 0x03 => some (head ++ [(8, 2 ^ 64 - 1)])
  | 0x04 => some (head ++ [(8, 2 ^ 64 - 1), (16, 2 ^ 32 - 1)])
  | 0x05 => some head
  | _ => none

/-- Opcodes that a virtual function may not use. -/
def pfOnly (opc : Nat) : Bool := [0x12, 0x13, 0x20, 0x21].contains opc

/-- The command of protocol `cp1` and opcode `opc` that stands first in a pair is performed by `f`. A code that is no
opcode, or not one for the view, completes with OPCODE whichever row names the pair, and a bad field with FIELD (log
entry 81). -/
def State.runSq (s : State) (fn q : Nat) (cp1 : Bool) (opc : Nat) (f : State → Nat → List Byte → State) : State :=
  match s.nextCmd fn q with
  | none => s
  | some (id, b) =>
    let o := byteAt b 0
    if s.isCp1 fn q ≠ cp1 then s
    else
      match (if cp1 then cp1Fields o else (cp2Fields o).map (fun l => cp2Common ++ l)) with
      | none => s.complete fn q id 3 0
      | some fields =>
        let vf := decide (fnNo fn ≠ 0)
        if !cp1 && vf && pfOnly o then s.complete fn q id 3 0
        else if o ≠ opc ∨ (!cp1 && isFirmware o && !s.firmwareTurn fn q id) then s
        else if !unusedZero (if cp1 then 64 else 128) b fields ||
            (vf && (!cp1 || decide (o = 1)) && decide (numAt b 4 2 ≠ 0)) then s.complete fn q id 4 0
        else f s id b

/-- A row of one pair. -/
def onSq (fn q : Nat) (cp1 : Bool) (opc : Nat) (s : State) (f : State → Nat → List Byte → State) : Out :=
  onPair fn q s (fun s => s.runSq fn q cp1 opc f)

/-! ## Requests (R424 to R426, R436) -/

/-- The context that a command of a function acts for: a physical function names it in its entry. -/
def State.cmdCtx (s : State) (fn named : Nat) : Nat := (s.whoCtx (whoOf fn)).getD named

/-- SUBMIT of a slot's contents. -/
def State.submitCmd (s : State) (fn q id named : Nat) (x : SlotSt) : State :=
  if x.rsz < 5 ∨ 13 < x.rsz ∨ x.ring % 4096 ≠ 0 ∨ 2 ^ x.rsz < x.outmax + 1 then s.complete fn q id 4 0
  else
    let (st, res, s) := s.submit x (s.cmdCtx fn named)
    s.complete fn q id st res

/-- The slot contents of a SUBMIT entry (R424, R425). -/
def submitSlot (fn : Nat) (b : List Byte) : SlotSt :=
  let p0 := numAt b 20 4
  { block := (b.drop 64).take 64, fn, ring := numAt b 8 8, rsz := p0 % 16, ive := bit p0 15, vec := bits p0 27 16 }

/-- SUBMIT (R424, R425). -/
def State.cp2Submit (s : State) (fn q id : Nat) (b : List Byte) : State :=
  s.submitCmd fn q id (numAt b 4 2) (submitSlot fn b)

def execSubmit (fn q : Nat) (s : State) : Out := onSq fn q false 0x01 s (fun s id b => s.cp2Submit fn q id b)

/-- A positive normal FP32 value. -/
def posNormal (t : Nat) : Bool := decide (0x00800000 ≤ t) && decide (t < 0x7F800000)

/-- The parameter block of a GEN entry (R436). -/
def genBlock (b : List Byte) : List Byte :=
  let t := numAt b 24 4
  let inv := if posNormal t then (fDiv .rne (v32 0x3FB8AA3B) (v32 t)).1 else 0
  let outmax := min 4096 (2 ^ byteAt b 56 - 1)
  let flags := b2n (bit (byteAt b 1) 1) + 8
  (b.drop 8).take 8 ++ (b.drop 16).take 8 ++ (b.drop 6).take 2 ++ toBytes 1 flags ++ toBytes 1 0 ++ toBytes 4 inv ++
  (b.drop 28).take 4 ++ toBytes 4 0 ++ (b.drop 36).take 4 ++ toBytes 2 outmax ++ toBytes 2 0 ++ (b.drop 60).take 4 ++
  List.replicate 12 0xFF#8 ++ (b.drop 40).take 8

/-- The slot contents of a GEN entry: the derived block, its deadline and DROP_LATE (R301, R436). -/
def genSlot (fn : Nat) (b : List Byte) : SlotSt :=
  { block := genBlock b, fn, ring := numAt b 48 8, rsz := byteAt b 56, cp1 := true, deadline := numAt b 32 4
    dropLate := bit (byteAt b 1) 0 }

/-- GEN: a SUBMIT with the derived block (R301, R436). -/
def State.cp1Gen (s : State) (fn q id : Nat) (b : List Byte) : State :=
  s.submitCmd fn q id (numAt b 4 2) (genSlot fn b)

def execGen (fn q : Nat) (s : State) : Out := onSq fn q true 0x01 s (fun s id b => s.cp1Gen fn q id b)

/-- A slot command of a function: a slot of another context is an isolation event and completes with VIEW (R425). -/
def State.slotCmd (s : State) (fn q id k off : Nat) (f : State → State) : State :=
  if s.mayTouch (whoOf fn) k then f s
  else (s.isolation (whoOf fn) (s.kd0Addr off)).complete fn q id 5 0

/-- CANCEL: SLOT when it has no effect (R309, R426). -/
def State.cancelCmd (s : State) (fn q id k : Nat) : State :=
  s.slotCmd fn q id k (Reg.off ⟨.srvSlot3, k, 0⟩) (fun s =>
    if [1, 2, 3, 4, 7].contains (s.sstate k) then (s.cancel k).complete fn q id 0 0 else s.complete fn q id 0x0C 0)

def execCp2Cancel (fn q : Nat) (s : State) : Out :=
  onSq fn q false 0x02 s (fun s id b => s.cancelCmd fn q id (numAt b 20 4))
def execCp1Abort (fn q : Nat) (s : State) : Out :=
  onSq fn q true 0x02 s (fun s id b => s.cancelCmd fn q id (numAt b 4 2))

/-- ACK: ACCESS when it is too large, SLOT when the slot is FREE (R297, R426). -/
def State.ackCmd (s : State) (fn q id k n : Nat) : State :=
  s.slotCmd fn q id k (Reg.off ⟨.srvSlot3, k, 0⟩) (fun s =>
    if s.generated k - s.ackedOf k < n then s.complete fn q id 7 0
    else if s.sstate k = 0 then s.complete fn q id 0x0C 0
    else (s.ack k n).2.complete fn q id 0 0)

def execCp2Ack (fn q : Nat) (s : State) : Out :=
  onSq fn q false 0x04 s (fun s id b => s.ackCmd fn q id (numAt b 20 4) (numAt b 24 8))

/-- DRAFT: the record is read from host memory, and then written into the draft window. -/
def State.draftCmd (s : State) (fn q id : Nat) (b : List Byte) : State :=
  let k := numAt b 20 4
  let n := numAt b 16 4
  if n < 8 ∨ 256 < n ∨ n % 4 ≠ 0 then s.complete fn q id 4 0
  else
    s.slotCmd fn q id k (draftOff k) (fun s =>
      if s.sstate k = 0 then s.complete fn q id 0x0C 0
      else (s.begun fn q id).readHost fn (numAt b 8 8) n (.draft fn q id k))

def execDraft (fn q : Nat) (s : State) : Out := onSq fn q false 0x03 s (fun s id b => s.draftCmd fn q id b)

/-- CMD_ACKDB: the ACK doorbell of a function (R447). -/
def execCmdAckdb (fn : Nat) (v : Word64) (s : State) : Out :=
  onPair fn 0 s (fun s =>
    let off := Reg.off ⟨.cmdAckdb, fnNo fn, 0⟩
    let a := s.globalAddr (38 + fnPort fn) off
    let s := s.ackDb fn v.toNat
    if s.resp.status = 0 then s
    else if s.resp.status = isoStatus then (s.isolation (whoOf fn) a).respond 2
    else s.mmioError (whoOf fn) s.resp.status a)

/-! ## Register commands (R428) -/

/-- The CP2 status of a status of R350 (R415, R426). -/
def cp2Status : Nat → Nat
  | 0 => 0
  | 1 => 6
  | 2 => 7
  | 3 => 8
  | 4 => 0x0A
  | 5 => 9
  | _ => 5

/-- An access of a function's command to its own package: status, data, and the state with the MMIO answer as it was. -/
def State.cmdAccess (s : State) (fn : Nat) (use : Use) (addr len : Nat) (w : Option (List Byte)) : Nat × List Byte × State :=
  let t := s.access (s.accessor (whoOf fn)) use (addrDie addr) (addrOff addr) len w
  (t.resp.status, t.resp.data, { t with resp := s.resp })

/-- A register command: to another package it becomes a request of the host port, and waits while no tag is free. -/
def State.regCmd (s : State) (fn q id addr len : Nat) (w : Option (List Byte)) : State :=
  if addrPkg addr = s.pkgId (38 + fnPort fn) then
    let (st, bs, s) := s.cmdAccess fn (.regCmd fn q id) addr len w
    if st = waitStatus then s.begun fn q id
    else
      let s := if st = isoStatus then s.isolation (whoOf fn) addr else s
      s.complete fn q id (cp2Status st) (if w.isSome ∨ (st ≠ 0 ∧ st ≠ 4) then 0 else ofBytes bs)
  else if fnNo fn ≠ 0 then (s.isolation (whoOf fn) addr).complete fn q id 5 0
  else
    match s.request (38 + fnPort fn) 0 (.regCmd fn q id) (accessMsg addr len w) with
    | some t => t.begun fn q id
    | none => s

/-- The width of a register command: 4 bytes, or 8 with P0[0]. -/
def p0Width (b : List Byte) : Nat := if bit (byteAt b 20) 0 then 8 else 4

def execRegRead (fn q : Nat) (s : State) : Out :=
  onSq fn q false 0x10 s (fun s id b => s.regCmd fn q id (numAt b 24 8) (p0Width b) none)
def execRegWrite (fn q : Nat) (s : State) : Out :=
  onSq fn q false 0x11 s (fun s id b => s.regCmd fn q id (numAt b 24 8) (p0Width b) (some ((b.drop 32).take (p0Width b))))
def execRdreg (fn q : Nat) (s : State) : Out :=
  onSq fn q true 0x03 s (fun s id b => s.regCmd fn q id (numAt b 8 8) 4 none)
def execWrreg (fn q : Nat) (s : State) : Out :=
  onSq fn q true 0x04 s (fun s id b => s.regCmd fn q id (numAt b 8 8) 4 (some ((b.drop 16).take 4)))

/-! ## MEM_WRITE and MEM_READ (R427) -/

/-- The messages of a range: global address, host address, length; none crosses a 4 KiB boundary. -/
def pieces : Nat → Nat → Nat → Nat → List (Nat × Nat × Nat)
  | 0, _, _, _ => []
  | f + 1, a, h, n =>
    if n = 0 then []
    else
      let k := min n (4096 - a % 4096)
      (a, h, k) :: pieces f (a + k) (h + k) (n - k)

def Move.same (m : Move) (fn q id : Nat) : Bool := decide (m.fn = fn) && decide (m.q = q) && decide (m.id = id)

def State.findMove (s : State) (fn q id : Nat) : Option Move := s.host.moves.find? (fun m => m.same fn q id)

/-- Put a move back with its new progress, or take it out. -/
def State.putMove (s : State) (fn q id : Nat) (m : Option Move) : State :=
  { s with host := { s.host with moves := s.host.moves.filter (fun x => !x.same fn q id) ++ m.toList } }

/-- The move is over: it completes with a status and the bytes performed. -/
def State.endMove (s : State) (m : Move) (status : Nat) : State :=
  (s.putMove m.fn m.q m.id none).complete m.fn m.q m.id status m.done

/-- The first message of a move has been performed with a status of R350; a read brings its data to the host. -/
def State.movePiece (s : State) (m : Move) (st : Nat) (bs : List Byte) : Move × Bool × State :=
  match m.todo with
  | [] => (m, false, s)
  | (_, h, k) :: rest =>
    let s := if m.read ∧ (st = 0 ∨ st = 4) then s.hostWrite m.fn h bs else s
    if st = 0 then ({ m with todo := rest, data := none, sent := false, done := m.done + k }, true, s)
    else (m, false, s)

/-- Carry a move on: a message inside the own package is performed at once, one to another package is sent, and the data
of a write are first read from the host. -/
def State.moveOn (s : State) (m : Move) : Nat → State
  | 0 => s.putMove m.fn m.q m.id (some m)
  | f + 1 =>
    match m.todo with
    | [] => s.endMove m 0
    | (a, h, k) :: _ =>
      if !m.read && m.data.isNone then
        (s.putMove m.fn m.q m.id (some m)).readHost m.fn h k (.source m.fn m.q m.id)
      else if addrPkg a = s.pkgId (38 + fnPort m.fn) then
        let (st, bs, s) := s.cmdAccess m.fn (.move m.fn m.q m.id) a k m.data
        if st = waitStatus then s.putMove m.fn m.q m.id (some { m with sent := true })
        else
          let (m, ok, s) := s.movePiece m st bs
          if ok then s.moveOn m f else s.endMove m (cp2Status st)
      else
        match s.request (38 + fnPort m.fn) 0 (.move m.fn m.q m.id) (accessMsg a k m.data) with
        | some t => t.putMove m.fn m.q m.id (some { m with sent := true })
        | none => s.putMove m.fn m.q m.id (some m)

/-- The most messages of a range: 1 MiB in pieces of 4 KiB, two more at its ends. -/
def moveFuel : Nat := 300

/-- The answer of a message that a move sent to another package. -/
def State.moveAnswer (s : State) (fn q id st : Nat) (bs : List Byte) : State :=
  match s.findMove fn q id with
  | none => s
  | some m =>
    let (m, ok, s) := s.movePiece m st bs
    if ok then s.moveOn m moveFuel else s.endMove m (cp2Status st)

/-- MEM_WRITE and MEM_READ: bytes 0 to 63 of a write with HLAST form the last message, and the rest of their 4 KiB block
the first (log entry 82). -/
def State.memCmd (s : State) (fn q id : Nat) (read : Bool) (b : List Byte) : State :=
  let a := numAt b 24 8
  let h := numAt b 8 8
  let n := numAt b 16 4
  if a % 64 ≠ 0 ∨ h % 64 ≠ 0 ∨ n % 64 ≠ 0 ∨ n < 64 ∨ 1048576 < n then s.complete fn q id 4 0
  else
    let todo := if !read && bit (byteAt b 20) 0 then pieces moveFuel (a + 64) (h + 64) (n - 64) ++ [(a, h, 64)]
      else pieces moveFuel a h n
    (s.begun fn q id).moveOn { fn, q, id, read, todo } moveFuel

/-- A move of the pair that waits for a tag tries again. -/
def State.retryMove (s : State) (fn q : Nat) (read : Bool) : State :=
  match s.host.moves.find? (fun m => decide (m.fn = fn) && decide (m.q = q) && decide (m.read = read) && !m.sent &&
      (m.read || m.data.isSome)) with
  | some m => s.moveOn m moveFuel
  | none => s

def execMemWrite (fn q : Nat) (s : State) : Out :=
  onPair fn q s (fun s => (s.retryMove fn q false).runSq fn q false 0x12 (fun s id b => s.memCmd fn q id false b))
def execMemRead (fn q : Nat) (s : State) : Out :=
  onPair fn q s (fun s => (s.retryMove fn q true).runSq fn q false 0x13 (fun s id b => s.memCmd fn q id true b))

/-! ## Firmware commands (R429, R431, R433) -/

def State.stageCmd (s : State) (fn q id : Nat) (b : List Byte) : State :=
  match s.progStage fn q id (numAt b 24 8) (numAt b 16 4) ((b.drop 64).take 48) with
  | (some st, s) => s.complete fn q id st 0
  | (none, s) => s.begun fn q id

def execProgStage (fn q : Nat) (s : State) : Out := onSq fn q false 0x20 s (fun s id b => s.stageCmd fn q id b)

def execProgUnstage (fn q : Nat) (s : State) : Out :=
  onSq fn q false 0x21 s (fun s id _ => let (st, s) := s.progUnstage; s.complete fn q id st 0)

/-- EVENT_WAIT: a pending event is delivered at once, the lowest kind first. -/
def State.eventWait (s : State) (fn q id : Nat) : State :=
  if s.qstate fn q = 3 then s.complete fn q id 0x0F 0
  else if 4 ≤ (s.host.waits.filter (fun w => decide (w.1 = fn))).length then s.complete fn q id 4 0
  else
    match s.host.events.find? (fun e => decide (e.1 / 8 = fn)) with
    | some (k, n, d) =>
      { s with host := { s.host with events := Tab.erase s.host.events k } }.complete fn q id 0
        (k % 8 + (min n 0xFFFF) <<< 8 + (d % 2 ^ 32) <<< 32)
    | none => { s with host := { s.host with waits := s.host.waits ++ [(fn, q, id)] } }.begun fn q id

def execEventWait (fn q : Nat) (s : State) : Out := onSq fn q false 0x30 s (fun s id _ => s.eventWait fn q id)

def execNop (fn q : Nat) (s : State) : Out := onSq fn q false 0x3F s (fun s id _ => s.complete fn q id 0 0)
def execCp1Nop (fn q : Nat) (s : State) : Out := onSq fn q true 0x05 s (fun s id _ => s.complete fn q id 0 0)

/-! ## Host-memory reads (R439, R440) -/

/-- The outstanding read of a port's tag. -/
def State.findRead (s : State) (port tag : Nat) : Option HostRead :=
  s.host.reads.find? (fun r => decide (fnPort r.fn = port) && decide (r.tag = tag))

/-- A read is over, and a waiting one may be issued. -/
def State.endRead (s : State) (r : HostRead) : State :=
  { s with host := { s.host with reads := s.host.reads.filter (fun x => x ≠ r) } }.issueReads (fnPort r.fn) 1

/-- Whether a prompt read is the newest of its slot; an older one belongs to a request that has ended. -/
def State.newestPrompt (s : State) (k : Nat) : Bool := !s.host.reads.any (fun r => decide (r.use = .prompt k))

/-- A failed read (R439). -/
def State.readFailed (s : State) (r : HostRead) : State :=
  match r.use with
  | .entry fn q id =>
    let p := s.pair fn q
    let s := s.setPair fn q { p with cmds := p.cmds.filter (fun c => decide (c.id ≠ id)) }
    (if s.qstate fn q = 1 then s.setQstate fn q 2 else s).drainedPair fn q
  | .prompt k => if s.newestPrompt k then s.endRequest k 0x13 else s
  | .draft fn q id _ => s.complete fn q id 0x0B 0
  | .source fn q id =>
    match s.findMove fn q id with
    | some m => s.endMove m 0x0B
    | none => s

/-- The tokens of a prompt chunk: 18 bits of each word; one that is no token ends the request with PARAM (R273, log
entry 83). -/
def State.promptData (s : State) (k : Nat) (bs : List Byte) : State :=
  let toks := (List.range (bs.length / 4)).map (fun i => numAt bs (4 * i) 4)
  if !s.newestPrompt k ∨ (s.sstate k ≠ 2 ∧ s.sstate k ≠ 4) then s
  else if toks.any (fun t => decide (s.vocab ≤ t)) then s.endRequest k 0x01
  else s.updSlot k (fun x => { x with chunk := some toks })

/-- The data of a read that has completed. -/
def State.readData (s : State) (r : HostRead) (bs : List Byte) : State :=
  match r.use with
  | .entry fn q id =>
    let s := s.updCmd fn q id (fun c => { c with bytes := some bs, seq := s.host.arrived })
    { s with host := { s.host with arrived := s.host.arrived + 1 } }
  | .prompt k => s.promptData k bs
  | .draft fn q id k =>
    s.slotCmd fn q id k (draftOff k) (fun s =>
      if s.sstate k = 0 then s.complete fn q id 0x0C 0 else (s.draftWrite k 0 bs).complete fn q id 0 0)
  | .source fn q id =>
    match s.findMove fn q id with
    | some m => s.moveOn { m with data := some bs } moveFuel
    | none => s

/-- HOST_READ_COMPLETION: `ok` says that no completion was in error or poisoned. A tag that names no outstanding read is
an unexpected completion; it ends the tag's quarantine (R440). -/
def State.readCompletion (s : State) (port tag : Nat) (ok : Bool) (bs : List Byte) : State :=
  match (if tag < 16384 then s.findRead port tag else none) with
  | none =>
    let s := s.addFld (38 + port) .cmdHtmo 15 0 1
    { s with host := { s.host with unexpected := Tab.set false s.host.unexpected port true, quar := s.host.quar.filter (fun q => !(decide (q.1 = port) && decide (q.2.1 = tag))) } }.issueReads port 1
  | some r =>
    let s := s.endRead r
    if ok ∧ bs.length = r.len then s.readData r bs else s.readFailed r

def execHostReadCompletion (port tag : Nat) (ok : Bool) (bs : List Byte) (s : State) : Out :=
  if port < 2 then .next (s.readCompletion port tag ok bs) else .fault .noSuchUnit

/-- The completion timeout of a value of Device Control 2, in hc; none while it is disabled. -/
def hostLimit (v : Nat) : Option Nat :=
  if bit v 4 then none
  else
    match v % 16 with
    | 1 => some 9000
    | 2 => some 900000
    | 5 => some 5000000
    | 6 => some 20000000
    | _ => some 4000000

/-- HOST_READ_TIMEOUT: at hclk time `h` a read times out, and its tag enters quarantine. -/
def State.readTimeout (s : State) (port tag h : Nat) : State :=
  match (if tag < 16384 then s.findRead port tag else none) with
  | none => s
  | some r =>
    match hostLimit (Tab.get 0 s.host.devCtl2 r.fn) with
    | none => s
    | some n =>
      if r.at_ + n ≤ h then
        let s := s.toHc h
        let s := { s with host := { s.host with quar := s.host.quar ++ [(port, tag, h)] } }
        (s.endRead r).readFailed r
      else s

def execHostReadTimeout (port tag h : Nat) (s : State) : Out :=
  if port < 2 then .next (s.readTimeout port tag h) else .fault .noSuchUnit

/-- HOST_TAG_RELEASE: a quarantined tag is free again after QUAR ms. -/
def State.hostTagRelease (s : State) (port tag h : Nat) : State :=
  let wait := s.fld (38 + port) .cmdHtmo 31 16 * 100000
  if s.host.quar.any (fun q => decide (q.1 = port) && decide (q.2.1 = tag) && decide (q.2.2 + wait ≤ h)) then
    let s := s.toHc h
    { s with host := { s.host with quar := s.host.quar.filter (fun q => !(decide (q.1 = port) && decide (q.2.1 = tag))) } }.issueReads port 1
  else s

def execHostTagRelease (port tag h : Nat) (s : State) : Out :=
  if port < 2 then .next (s.hostTagRelease port tag h) else .fault .noSuchUnit

/-! ## Apertures (R414, R465) -/

/-- A TLP that fails its IDE check on a stream. -/
def State.ideFail (s : State) (port stream : Nat) : State :=
  { s.addFld 38 .secIso 30 16 1 with sec := { s.sec with ideBad := s.sec.ideBad ||| 2 ^ (8 * port + stream % 8) } }

/-- The answer of a TLP: a read always completes successfully, with zeros after an error (R415). -/
def State.tlpAnswer (s : State) (fn tag len : Nat) (read : Bool) (bs : List Byte) : State :=
  if read then s.toHost (.tlp fn tag 0 (if bs.length = len then bs else List.replicate len 0#8)) else s

/-- APERTURE_ACCESS: a TLP of the physical function of a port at BAR2 offset 0x400_0000 × `n` + `a`. -/
def State.aperture (s : State) (port n a tag len : Nat) (w : Option (List Byte)) : State :=
  let fn := fnId port 0
  let v := s.reg (38 + port) .cmdAper n
  let addr := bits v 63 26 * 2 ^ 26 + a
  let bad (s : State) (st : Nat) : State :=
    (s.mmioError (.pf port) st addr).tlpAnswer fn tag len w.isNone []
  if !bit v 0 then bad s 2
  else if addrPkg addr = s.pkgId (38 + port) then
    let s := s.mmio (.pf port) (.tlp fn tag addr) (addrDie addr) (addrOff addr) len w
    if s.resp.status = waitStatus then s else s.tlpAnswer fn tag len w.isNone s.resp.data
  else if !formOk (addrOff addr) len then bad s 2
  else
    s.requestWait (38 + port) 0 (.tlp fn tag addr) (accessMsg addr len w)

/-- `ide` names the IDE stream on which the TLP failed its check, if it did. -/
def execApertureAccess (port n a tag len : Nat) (w : Option (List Byte)) (ide : Option Nat) (s : State) : Out :=
  if port < 2 ∧ n < 16 ∧ a < 2 ^ 26 ∧ w.all (fun bs => bs.length = len) then
    .next (match ide with
      | some st => s.ideFail port st
      | none => s.aperture port n a tag len w)
  else .fault .noSuchUnit

/-! ## Function resets (R412, R422) -/

/-- Every queue pair of the functions goes to DISABLED, with its pending completions dropped. -/
def State.dropPairs (s : State) (port : Nat) (p : Nat → Bool) : State :=
  let keys := s.csr.filterMap (fun e =>
    match RegFam.at? .cmdQcfg (e.1 % 2 ^ 46) with
    | some r => if e.1 / 2 ^ 46 = 38 + port ∧ p (fnId port r.i) then some (r.i, r.j) else none
    | none => none)
  let s := keys.foldl (fun s k => (s.setFld (38 + port) .cmdQcfg 31 31 0 k.1 k.2).setFld (38 + port) .cmdQcfg 29 28 0 k.1 k.2) s
  let h := s.host
  { s with host := { h with
    pairs := Tab.keep (fun k => !p (k / 64)) h.pairs
    waits := h.waits.filter (fun w => !p w.1)
    events := Tab.keep (fun k => !p (k / 8)) h.events
    moves := h.moves.filter (fun m => !p m.fn)
    reads := h.reads.filter (fun r => !p r.fn)
    quar := h.quar ++ (h.reads.filter (fun r => p r.fn && decide (r.tag < 16384))).map (fun r => (port, r.tag, s.hc)) } }

/-- The functions' requests end with CANCEL, and nothing more is written to their host memory. -/
def State.dropRequests (s : State) (p : Nat → Bool) : State :=
  (s.slotList.filter (fun k => decide (s.sstate k ≠ 0) && p (s.slot k).fn)).foldl (fun s k =>
    (s.updSlot k (fun x => { x with mute := true })).cancel k) s

/-- The functions' semaphores are released. -/
def State.dropSems (s : State) (p : Nat → Bool) : State :=
  (List.range 256).foldl (fun s n => if s.semHeld n && p (s.fld 38 .sem 10 0 n) then s.semFree n else s) s

/-- The effects of R422 on the functions that satisfy `p`, all of one port. -/
def State.resetFunctions (s : State) (port : Nat) (p : Nat → Bool) : State :=
  ((s.dropPairs port p).dropRequests p).dropSems p

/-- FUNCTION_LEVEL_RESET; that of a physical function resets its virtual functions too (log entry 84). -/
def execFunctionLevelReset (fn : Nat) (s : State) : Out :=
  if fnPort fn < 2 ∧ fnNo fn ≤ 512 then
    .next (s.resetFunctions (fnPort fn) (fun f => if fnNo fn = 0 then decide (fnPort f = fnPort fn) && decide (fnNo f ≤ 512) else decide (f = fn)))
  else .fault .noSuchUnit

/-! ## Configuration requests (R410, R439, R599) -/

/-- Where Device Control 2 stands: 0x28 into the PCI Express capability, whose place the spec leaves open (log entry 80). -/
def devCtl2At : Nat := 64 + 4 * (Config.pcieCap % 32) + 0x28

/-- The dword at an offset of a function's configuration space: Device ID, class code and Device Control 2 by the spec,
everything else given by the implementation (log entry 80). -/
def State.configDword (s : State) (fn off : Nat) : Nat :=
  let given : Nat := ofBytes ((List.range 4).map (fun i => Config.givenByte 9 (off + i)))
  if off = 0 then (if fnNo fn = 0 then 0x4E40 else 0x4E41) <<< 16 + given % 65536
  else if off = 8 then 0x120000 <<< 8 + given % 256
  else if off = devCtl2At then (given / 65536) <<< 16 + Tab.get 0 s.host.devCtl2 fn % 65536
  else given

/-- CONFIGURATION_REQUEST: a read, or a write of a dword; Configuration Request Retry Status (2) before the port's
firmware is ready. -/
def State.configRequest (s : State) (fn tag off : Nat) (w : Option Word32) : State :=
  if !bit s.plat.ready (fnPort fn) then s.toHost (.tlp fn tag 2 [])
  else
    match w with
    | none => s.toHost (.tlp fn tag 0 (toBytes 4 (s.configDword fn off)))
    | some v =>
      let s := if off = devCtl2At then
          { s with host := { s.host with devCtl2 := Tab.set 0 s.host.devCtl2 fn (v.toNat % 65536) } } else s
      s.toHost (.tlp fn tag 0 [])

def execConfigurationRequest (fn tag off : Nat) (w : Option Word32) (s : State) : Out :=
  if fnPort fn < 2 ∧ fnNo fn ≤ 512 ∧ off < 4096 then .next (s.configRequest fn tag (off / 4 * 4) w) else .fault .noSuchUnit

end Sys2Proof.Machine
end

