-- ==== Sys2Proof/Machine/Messages.lean ====
section
/-!
DEFINITION. Fabric messages at the dies: what a target performs, what is forwarded, what a sender retains, what the
answers of requests do, timeouts, and the rows of the die links and ports (R336 to R368, R381, R568 to R573).
-/

namespace Sys2Proof.Machine

/-! ## Retention and replay (R568 to R573) -/

/-- The request slot that is not known yet. -/
def noSlot : Nat := 16384

/-- Whether a write goes into a memory die's command window (R239). -/
def Msg.isCommand (m : Msg) : Bool :=
  decide (m.type = 2) && decide (32 ≤ m.ddie) && decide (m.ddie < 36) &&
  decide (0x3F0044000000 ≤ m.addr) && decide (m.addr < 0x3F0045000000)

/-- The messages that a die retains: every MCV, every memory-die command (R568). -/
def Msg.isRetained (m : Msg) : Bool := !m.aborted && (decide (m.type = 5) || m.isCommand)

/-- The receiving group of an MCV, behind the group map of a link die (R381). -/
def State.finalGroup (s : State) (m : Msg) : Nat :=
  if m.ddie = 36 ∨ m.ddie = 37 then bits (s.reg m.ddie .lnkGmap m.group) 40 31 else m.group

/-- A send that ends a step: its descriptor, on a receiving group from 1,008, or a candidate list to a KD (R568,
R570). -/
def State.closesStep (s : State) (m : Msg) : Bool := decide (m.type = 5) && (decide (1008 ≤ s.finalGroup m) || decide (38 ≤ m.ddie))

/-- The step of slot `k` is complete in a log: it has been closed since its last input landed (R570). -/
def State.stepClosed (s : State) (k : Nat) (log : List LogEntry) : Bool :=
  log.foldl (fun done e => match e with
    | .landing _ _ _ x _ => if x = k then false else done
    | .sent x m => if x = k ∧ s.closesStep m then true else done
    | _ => done) false

/-- The slot of the oldest step of a die that is not complete. -/
def State.openStep (s : State) (die : Nat) : Nat :=
  let log := (s.fab die).log
  let ks := log.filterMap (fun e => match e with
    | .landing _ _ _ k _ => if k < noSlot ∧ !s.stepClosed k log then some k else none
    | _ => none)
  ks.headD noSlot

/-- The slot of a message and what is left of the command it belongs to: a command names its slot in bytes 2 to 3, a
descriptor in bytes 0 to 1, and a candidate list belongs to the oldest open step (R241, R283, R568). -/
def State.slotOf (s : State) (die : Nat) (m : Msg) : Nat × FabDie :=
  let f := s.fab die
  if m.slot < noSlot then (m.slot, f)
  else if m.type = 5 ∧ 32 ≤ m.ddie ∧ m.ddie < 36 then
    let key := 1024 * (m.ddie - 32) + m.group
    let (k, left) := Tab.get (0, 0) f.outCmd key
    if 0 < left then (k, { f with outCmd := Tab.set (0, 0) f.outCmd key (if m.data.length < left then (k, left - m.data.length) else (0, 0)) })
    else
      let k := numAt m.data 2 2 % 16384
      let n := match s.cmdLen m.ddie m.data with | .bytes n => n | _ => 0
      (k, if m.data.length < n ∧ 64 ≤ m.data.length then { f with outCmd := Tab.set (0, 0) f.outCmd key (k, n - m.data.length) } else f)
  else if m.type = 5 ∧ 1008 ≤ s.finalGroup m then (numAt m.data 0 2 % 16384, f)
  else if s.closesStep m then (s.openStep die, f)
  else (noSlot, f)

/-- Once a descriptor names its slot, the outputs sent before it carry that slot too. -/
def FabDie.retag (f : FabDie) (slot : Nat) : FabDie :=
  { f with
    retained := f.retained.map (fun r => if r.1 = noSlot then (slot, r.2) else r)
    log := f.log.map (fun e => match e with
      | .sent k m => if k = noSlot then .sent slot m else .sent k m
      | e => e) }

/-- What two sends have in common when they stand at the same place of the log. -/
def Msg.samePlace (m x : Msg) : Bool :=
  decide (m.type = x.type) && decide (m.dpkg = x.dpkg) && decide (m.ddie = x.ddie) && decide (m.group = x.group)

/-- Whether two sends carry the same. -/
def Msg.sameContent (m x : Msg) : Bool :=
  decide (m.data = x.data) && decide (m.len = x.len) && decide (m.emax = x.emax) && decide (m.addr = x.addr) &&
  decide (m.poison = x.poison)

/-- The event ring of a die's reliability engine (R618). -/
def rasRing (die : Nat) : Ring := .unit (if die < 32 then 70 else if die < 36 then 23 else 3)

/-- A die's reliability engine enters a state (R584). -/
def State.rasEnter (s : State) (die st cause : Nat) : State :=
  ((s.setFld die .rasStat 63 61 st).setFld die .rasStat 60 56 cause).ring die (rasRing die) 0x16 (st + cause <<< 3)

/-- Replay is over once no retained copy is awaited any more (R571). -/
def State.replayDone (s : State) (die : Nat) : State :=
  let d := s.die die
  if s.fld die .rasStat 63 61 = 5 ∧ d.ras.expect = [] then
    let us := match d.ras.rec_ with | some r => (s.hc - r.since) / 100 | none => 0
    let cause := s.fld die .rasStat 60 56
    let s := (s.setFld die .rasStat 31 16 (min us 0xFFFF)).setFld die .rasCtl 30 30 0
    let s := s.setReg 38 .rasAlert (setBits (s.reg 38 .rasAlert) die die 0)
    (s.setDie die { s.die die with ras := { d.ras with rec_ := none } }).rasEnter die 0 cause
  else s

/-- Count a send that leaves the die against the counter that paid for it. -/
def State.noteEdge (s : State) (die : Nat) (m : Msg) : State :=
  let src := m.src - 1
  if m.src = 0 ∨ src < 512 ∨ outside ≤ src then s
  else
    let d := s.die die
    s.setDie die { d with ras := { d.ras with owed := Tab.upd 0 d.ras.owed (32 * (src % 512) + (src / 512 - 1)) (· + 1) } }

/-- A message of the die's own leaves: retained and logged, or, in replay, compared with its retained copy and
suppressed (R568, R569, R571, R573). -/
def State.sendOwn (s : State) (die : Nat) (m : Msg) : State :=
  let d := s.die die
  if m.type = 6 then
    let key := routeKey m.ddie m.group m.ctr
    let n := Tab.get 0 d.ras.grants key
    if 0 < n then s.setDie die { d with ras := { d.ras with grants := Tab.set 0 d.ras.grants key (n - 1) } }
    else
      let f := s.fab die
      (s.setFab die { f with log := f.log ++ [.credit key m.amt] }).sendOn die m
  else if !m.isRetained then s.sendOn die m
  else
    match d.ras.expect.find? (fun x => m.samePlace x) with
    | some x =>
      let s := s.setDie die { d with ras := { d.ras with expect := d.ras.expect.erase x } }
      if m.sameContent x then s.replayDone die else s.classE die 9
    | none =>
      let (slot, f) := s.slotOf die m
      let m := { m with slot, held := false }
      let f := if slot < noSlot ∧ m.type = 5 ∧ !(decide (32 ≤ m.ddie) && decide (m.ddie < 36)) then f.retag slot else f
      ((s.setFab die { f with retained := f.retained ++ [(slot, m)], log := f.log ++ [.sent slot m] }).noteEdge die m).sendOn die m

/-- The slot of a message that lands, from its sender's copy in the own package. -/
def State.landingSlot (s : State) (m : Msg) : Nat :=
  if m.slot < noSlot then m.slot
  else
    match (s.fab m.sdie).retained.find? (fun r => decide (r.2.data = m.data) && decide (r.2.group = m.group) && decide (r.2.type = m.type)) with
    | some r => if m.spkg = s.pkgId m.sdie then r.1 else noSlot
    | none => noSlot

/-- Log the landing of a retained message (R569). -/
def State.logLanding (s : State) (die : Nat) (m : Msg) : State :=
  if m.aborted then s
  else
    let f := s.fab die
    s.setFab die { f with log := f.log ++ [.landing m.spkg m.sdie m.group (s.landingSlot m) m] }

/-! ## What the target does (R336, R348, R352) -/

/-- The accessor behind a request (R364). -/
def Msg.accessor (m : Msg) : Accessor :=
  { who := (match m.unit with | 0 => .pf (m.sdie - 38) | 1 => .bmc | 6 => .jtag | _ => .firmware)
    unit := m.unit, sdie := m.sdie, spkg := m.spkg, ctx := if m.priv then none else some m.ctx }

/-- An RD or WR at its target. A write through a loader window is answered when its packets are in. -/
def State.performRequest (s : State) (die : Nat) (m : Msg) : State :=
  match s.windowWrite die m with
  | some s => s
  | none =>
    let was := s.resp
    let t := s.target m.accessor die m.addr m.len (if m.type = 2 then some m.data else none)
    let st := if t.resp.status = isoStatus then 2 else t.resp.status
    let data := if st = 0 ∨ st = 4 then t.resp.data else []
    let t := { t with resp := was }
    let t := if m.isCommand then t.logLanding die m else t
    let t := if st = 1 ∨ st = 2 then t.fabErr die (st - 1) m m.inp else t
    let t := t.crossBack die m (if m.type = 1 then data else [])
    t.answer die m st (if m.type = 1 then data else [])

/-- A message with a group that the die does not take (R352). -/
def State.noGroup (s : State) (die : Nat) (m : Msg) : State := s.fabErr die 6 m m.inp

/-- Forward under the group map of a link die (R381). -/
def State.mapGroup (s : State) (die : Nat) (m : Msg) : State :=
  let e := s.reg die .lnkGmap m.group
  if !bit e 63 then s.noGroup die m
  else s.queuePort die (bits e 62 59) { m with dpkg := bits e 58 47, ddie := bits e 46 41, group := bits e 40 31 }

/-- An MCV at the die it names. -/
def State.performVector (s : State) (die : Nat) (m : Msg) : State :=
  if die < 32 then (s.logLanding die m).enterMesh die m
  else if die < 36 then
    if m.aborted then s
    else (s.logLanding die m).mdBytes die { spkg := m.spkg, sdie := m.sdie, mcv := true, id := m.group } none m.data
  else if die < 38 then s.mapGroup die m
  else if m.group < 16 then
    -- the control die that serves nothing takes a list and does nothing with it
    if m.aborted ∨ die ≠ s.servingDie then s
    else
      let s := s.logLanding die m
      { s with srv := { s.srv with lists := Tab.upd [] s.srv.lists m.group (fun l => l ++ [m.data]) } }
  else s.noGroup die m

/-- An MCC at the die it names. -/
def State.performCredit (s : State) (die : Nat) (m : Msg) : State :=
  if die < 32 then s.enterMesh die m
  else if die = 36 ∨ die = 37 then s.mapGroup die m
  else s.noGroup die m

/-! ## Answers (R364 to R366) -/

/-- The event ring of a requester unit (R618, R619). -/
def unitRing (die unit : Nat) : Ring :=
  if die < 32 then .unit 70
  else if die < 36 then .unit (if unit = 5 then 16 else 23)
  else .unit (match unit with | 0 => 2 | 3 => 0 | 4 => 3 | _ => 8)

/-- What becomes of an answer with a status of R350 and its data. -/
def State.useAnswer (s : State) (r : Req) (st : Nat) (bs : List Byte) : State :=
  match r.use with
  | .quiet => s
  | .resp => s.respond st bs
  | .mmio who addr => (s.respond st bs).mmioDone who addr
  | .regCmd fn q id => s.complete fn q id (cp2Status st) (if r.read ∧ (st = 0 ∨ st = 4) then ofBytes bs else 0)
  | .move fn q id => s.moveAnswer fn q id st bs
  | .tlp fn tag addr =>
    let s := if st = 0 ∨ st = 4 then s else s.mmioError (.pf (fnPort fn)) st addr
    s.tlpAnswer fn tag bs.length r.read bs
  | .copy md _ => s.copyAnswer md st
  | .sink cd _ => if st = 0 then s else s.setFld cd .dbgTstat 30 30 1
  | .bmc => { s with plat := { s.plat with bmc := toBytes 1 st ++ bs } }

/-- What a read that fails returns: zeros (R6, R365). -/
def Req.zeros (r : Req) : List Byte := if r.read then List.replicate r.len 0#8 else []

/-- A CPL or ACK at its requester's die. -/
def State.performAnswer (s : State) (die : Nat) (m : Msg) : State :=
  match (s.fab die).match? m with
  | none => s.lateCpl die m
  | some r =>
    let s := (s.endReq die r).sample die 5 (8 * (s.hc - r.at_) : Nat)
    let s := s.sendWaiting die r.unit
    s.useAnswer r m.status (if m.status = 0 ∨ m.status = 4 then m.data else r.zeros)

/-! ## A message of a die's inbox -/

/-- A die in recovery lands nothing new before replay has landed its inputs again: arrivals wait in order (R571, R579). -/
def State.holdsArrivals (s : State) (die : Nat) : Bool :=
  let st := s.fld die .rasStat 63 61
  [1, 2, 3, 4, 6].contains st || (decide (st = 5) && (match (s.die die).ras.rec_ with | some r => !r.landed | none => false))

/-- Whether a message waits where it is: an arrival of a die in recovery, or a send without room in the retention
store. -/
def State.waitsHere (s : State) (die : Nat) (m : Msg) : Bool :=
  if s.endsHere die m then s.holdsArrivals die && (decide (5 ≤ m.type) || m.isCommand)
  else decide (m.inp = 8) && m.isRetained && !(s.die die).ras.expect.any (fun x => m.samePlace x) &&
    decide (65536 < s.storeUsed die + 1 + m.flits)

/-- Whether a message is the die's own send, which it retains and logs. -/
def ownSend (die : Nat) (m : Msg) : Bool := decide (m.inp = 8) && decide (die ≠ 36) && decide (die ≠ 37)

/-- Message `n` of a die's inbox, of one type, is handled: performed where it ends, sent on elsewhere. -/
def State.message (s : State) (die n type : Nat) (perform : State → Msg → State) : State :=
  match s.takeMsg die n type with
  | none => s
  | some (m, t) =>
    if s.waitsHere die m then
      if m.held ∨ s.endsHere die m then s
      else
        let f := s.fab die
        (s.setFab die { f with inbox := f.inbox.set n { m with held := true } }).addFld die .rasStore 31 16 1
    else
      let t := t.cross die m
      let t := if s.endsHere die m then perform t m
        else if ownSend die m then t.sendOwn die m else t.sendOn die m
      t.portsRun die

/-- A message of one die. -/
def onMsg (die n type : Nat) (s : State) (perform : State → Msg → State) : Out :=
  if die < 40 then
    .next (s.message die n type perform)
  else .fault .noSuchUnit

def execRd (die n : Nat) (s : State) : Out := onMsg die n 1 s (fun s m => s.performRequest die m)
def execWr (die n : Nat) (s : State) : Out := onMsg die n 2 s (fun s m => s.performRequest die m)
def execCpl (die n : Nat) (s : State) : Out := onMsg die n 3 s (fun s m => s.performAnswer die m)
def execAck (die n : Nat) (s : State) : Out := onMsg die n 4 s (fun s m => s.performAnswer die m)
def execMcv (die n : Nat) (s : State) : Out := onMsg die n 5 s (fun s m => s.performVector die m)
def execMcc (die n : Nat) (s : State) : Out := onMsg die n 6 s (fun s m => s.performCredit die m)

/-! ## Timeouts (R365, R366) -/

/-- REQUEST_TIMEOUT: at hclk time `h` a request is given up; one whose completion has arrived is not. -/
def State.requestTimeout (s : State) (die unit tag h : Nat) : State :=
  match (s.fab die).reqs.find? (fun r => decide (r.unit = unit) && decide (r.tag = tag)) with
  | none => s
  | some r =>
    let us := if r.remote then s.fld die .pfabTmo 47 32 else s.fld die .pfabTmo 31 16
    let come (m : Msg) : Bool := (decide (m.type = 3) || decide (m.type = 4)) && decide ((s.fab die).match? m = some r)
    if h < r.at_ + 100 * us ∨ (s.fab die).inbox.any (fun m => s.endsHere die m && come m) then s
    else
      let s := (s.toHc h).endReq die r
      let f := s.fab die
      let s := s.setFab die { f with quar := f.quar ++ [(unit, tag, h)] }
      let s := s.ring die (unitRing die unit) 0x12 (tag + r.gen <<< 12 + unit <<< 16)
      let s := s.fabErr die 3 { type := if r.read then 1 else 2, spkg := s.pkgId die, sdie := die, unit, tag, gen := r.gen } 0
      s.useAnswer r 5 r.zeros

def execRequestTimeout (die unit tag h : Nat) (s : State) : Out :=
  if die < 40 then .next (s.requestTimeout die unit tag h) else .fault .noSuchUnit

/-- QUARANTINE_EXPIRY. -/
def State.quarExpiry (s : State) (die unit tag h : Nat) : State :=
  if (s.fab die).quar.any (fun q => decide (q.1 = unit) && decide (q.2.1 = tag) &&
      decide (q.2.2 + 100000 * s.fld die .pfabTmo 63 48 ≤ h)) then
    ((s.toHc h).freeQuar die unit tag).sendWaiting die unit
  else s

def execQuarantineExpiry (die unit tag h : Nat) (s : State) : Out :=
  if die < 40 then .next (s.quarExpiry die unit tag h) else .fault .noSuchUnit

/-! ## Rows of the die links -/

def onLink (die l : Nat) (s : State) (f : State → State) : Out :=
  if die < 40 ∧ l < 6 then .next (f s) else .fault .noSuchUnit

def execDieLinkFlit (die l : Nat) (noise : BitVec 544) (s : State) : Out := onLink die l s (fun s => s.dieLinkFlit die l noise)
def execFlitAck (die l : Nat) (s : State) : Out := onLink die l s (fun s => s.flitAck die l)
def execFlitNak (die l : Nat) (s : State) : Out := onLink die l s (fun s => s.flitNak die l)
def execAbort (die l : Nat) (s : State) : Out := onLink die l s (fun s => s.abortFlit die l)
def execAckDue (die l : Nat) (s : State) : Out := onLink die l s (fun s => s.ackDue die l)
/-- CREDIT_RETURN, at hclk time `h`. -/
def execCreditReturn (die l vc h : Nat) (s : State) : Out := onLink die l s (fun s => (s.toHc h).creditReturn die l vc)
def execLinkTrainingDone (die l : Nat) (low high : Bool) (s : State) : Out :=
  onLink die l s (fun s => s.linkTrained die l low high)

/-- LINK_STALL: `l` is a die link, or 16 + p port p of a link die. -/
def execLinkStall (die l h : Nat) (s : State) : Out :=
  if die < 40 ∧ (l < 6 ∨ (16 ≤ l ∧ l < 32 ∧ (die = 36 ∨ die = 37))) then .next (s.linkStall die l h) else .fault .noSuchUnit

/-- PFAB_LOCK: PFAB_CTL.LOCK is set (R372). -/
def execPfabLock (die : Nat) (s : State) : Out := onDie die s (fun s => (s.setFld die .pfabCtl 31 31 1).respond 0)

/-! ## Rows of the ports -/

/-- Corrected symbols of an arriving flit, by lane; more than SYMTHR on a lane within 1 ms degrades the port (R360). -/
def State.portSymbols (s : State) (die p h : Nat) (words : List (List Nat)) : State :=
  let s := s.toHc h
  let e := s.port die p
  let lanes := s.fld die .lnkPstat 28 26 p
  let e := if e.symHc + 100000 ≤ h then { e with sym := [], symHc := h } else e
  let e := { e with sym := (List.range lanes).foldl (fun t i => Tab.upd 0 t i (fun n => n + laneCorrected lanes i words)) e.sym }
  if e.sym.any (fun x => decide (s.fld die .lnkPcfg 27 16 p < x.2)) then
    (s.setPort die p { e with sym := [] }).portDegrade die p
  else s.setPort die p e

/-- A control flit of a port: a MAC, a sync request or a sync response (R468, R493). `ph`, `steps` and `ph3` are the
phases that the link die reads for an answer. -/
def State.portControl (s : State) (die p : Nat) (bs : List Byte) (ph steps ph3 : Nat) : State :=
  match byteAt bs 0 with
  | 1 => s.macFlit die p (byteAt bs 1) (numAt bs 4 8) (BitVec.ofNat 128 (numAt bs 12 16))
  | 2 => s.syncReq die p (byteAt bs 2) ph steps ph3
  | 3 => s.syncRsp die p (byteAt bs 2) (bit (byteAt bs 1) 0) (bit (byteAt bs 1) 1) (numAt bs 4 8) (numAt bs 12 2)
      (numAt bs 20 8) (numAt bs 28 2) ph
  | _ => s

/-- A sequenced flit that is accepted returns the credits it names (R357). -/
def PortEnd.credited (e : PortEnd) (h1 : Nat) : PortEnd :=
  { e with used := Tab.upd 0 e.used (4 * bits h1 13 13 + bits h1 15 14) (fun n => n - bits h1 12 0) }

/-- An ILP flit arrives (R357, R359). -/
def State.ilpReceive (s : State) (die p : Nat) (flit : BitVec 2048) (ph steps ph3 : Nat) : State :=
  let bs := toBytes 256 flit.toNat
  if numAt bs 252 4 ≠ crc32 (bs.take 252) then s.portNak die p
  else
    let h0 := numAt bs 0 2
    let s := s.portAck die p (bits h0 15 9) (bit h0 8)
    let body := (bs.drop 4).take 248
    if bit h0 7 then s.portControl die p body ph steps ph3
    else if bits h0 6 0 = (s.port die p).rxSeq then
      (s.setPort die p ((s.port die p).credited (numAt bs 2 2))).portAccept die p body
    else s.portNak die p

/-- ILP_FLIT: a flit arrives at hclk time `h`; `words` are the codewords that end with it, each given by its symbols in error
(R358). One that cannot be corrected leaves the flit with a failing CRC. -/
def State.ilpFlitIn (s : State) (die p h : Nat) (words : List (List Nat)) (flit : BitVec 2048) (ph steps ph3 : Nat) : State :=
  if !s.portUp die p then s
  else
    let (cor, unc) := fecCounts words
    let s := s.setPort die p { s.port die p with line := [] }
    let s := (s.addFld die .lnkPcnt 31 0 cor p).addFld die .lnkPcnt 63 48 unc p
    let s := if 0 < unc then s.portNak die p else s.ilpReceive die p flit ph steps ph3
    (s.portSymbols die p h words).portsRun die

/-- ILP_FLIT: `first` is the codeword that the flit begins in, `align` the alignment codeword that may follow that one, and
`last` the codeword it ends in, each empty where it holds no error or came with an earlier flit. -/
def execIlpFlit (die p h : Nat) (first align last : List Nat) (flit : BitVec 2048) (ph steps ph3 : Nat) (s : State) : Out :=
  let words := [first, align, last]
  if ph < 808 ∧ ph3 < 808 ∧ steps ≤ 4 ∧ words.all (fun e => e.all (fun i => decide (i < 544))) then
    onPort die p s (fun s => s.ilpFlitIn die p h words flit ph steps ph3)
  else .fault .noSuchUnit

def execMac (die p slot win : Nat) (tag : BitVec 128) (s : State) : Out := onPort die p s (fun s => s.macFlit die p slot win tag)
def execMacResend (die p : Nat) (s : State) : Out := onPort die p s (fun s => s.macResend die p)
def execKeyChange (die p : Nat) (s : State) : Out := onPort die p s (fun s => s.keyChange die p)
def execPortLaneLoss (die p : Nat) (s : State) : Out := onPort die p s (fun s => s.portLaneLoss die p)
def execPortTrainingDone (die p peer peerPort : Nat) (nonce : BitVec 128) (s : State) : Out :=
  onPort die p s (fun s => s.portTrained die p peer peerPort nonce)
def execLnkPcfgEn (die p : Nat) (en : Bool) (s : State) : Out := onPort die p s (fun s => (s.portEnable die p en).respond 0)

/-! ## Trace writes (R616, R617) -/

/-- The next core of a die, from the collector's turn on, whose queue holds a record. -/
def State.traceCore (s : State) (cd : Nat) : Option Nat :=
  let t := (Tab.get {} s.collectors cd).turn
  let ks := (s.cores.filter (fun e => decide (e.1 / 512 = cd) && !e.2.trace.isEmpty)).map (fun e => e.1 % 512)
  match ks.find? (fun k => decide (t ≤ k)) with
  | some k => some k
  | none => ks.head?

def State.setCollector (s : State) (cd : Nat) (c : Collector) : State :=
  { s with collectors := Tab.set {} s.collectors cd c }

/-- Write a pair of records to the sink: a request of the reliability engine (log entry 85). False while no tag is free. -/
def State.sinkWrite (s : State) (cd : Nat) (a b : BitVec 256) (n : Nat) : Bool × State :=
  let size := s.fld cd .dbgTsize 15 0 * 65536
  let written := s.reg cd .dbgTwptr
  let wrap := s.fld cd .dbgTcfg 29 29 = 1
  if !wrap ∧ size < 32 * (written + 2) then
    (true, (s.setFld cd .dbgTstat 29 29 1).addFld cd .dbgTdrop 63 0 n 0)
  else
    let addr := s.reg cd .dbgTsink + 32 * written % size
    let w := accessMsg addr 64 (some (toBytes 32 a.toNat ++ toBytes 32 b.toNat))
    match s.request cd 4 (.sink cd n) w with
    | none => (false, s)
    | some t => (true, t.setReg cd .dbgTwptr (written + 2))

/-- Whether the collector has stopped: FULL or SINKERR. -/
def State.sinkStopped (s : State) (cd : Nat) : Bool := decide (s.fld cd .dbgTstat 30 29 ≠ 0)

/-- TRACE_WRITE: the collector takes the next record, and writes it with the one that waits for its pair. -/
def State.traceWrite (s : State) (cd : Nat) : State :=
  match s.traceCore cd with
  | none => s
  | some k =>
    match (s.core cd k).trace with
    | [] => s
    | r :: rest =>
      let c := Tab.get {} s.collectors cd
      let take (s : State) : State := s.setCore cd k { s.core cd k with trace := rest }
      let turn := (k + 1) % 512
      if s.sinkStopped cd then ((take s).setCollector cd { c with turn }).addFld cd .dbgTdrop 63 0 1 k
      else
        match c.half with
        | none => (take s).setCollector cd { half := some (r, s.hc), turn }
        | some (a, _) =>
          let (done, t) := s.sinkWrite cd a r 2
          if done then (take t).setCollector cd { half := none, turn } else s

def execTraceWrite (cd : Nat) (s : State) : Out := onCd cd s (fun s => s.traceWrite cd)

/-- TRACE_FLUSH: at hclk time `h` a record has waited 1 µs for its pair, or the window has ended. -/
def State.traceFlush (s : State) (cd h : Nat) : State :=
  let c := Tab.get {} s.collectors cd
  match c.half with
  | none => s
  | some (a, at_) =>
    if h < at_ + 100 ∧ (s.die cd).inWindow then s
    else
      let s := s.toHc h
      let (done, t) := s.sinkWrite cd a 0 1
      if done then t.setCollector cd { c with half := none } else s

def execTraceFlush (cd h : Nat) (s : State) : Out := onCd cd s (fun s => s.traceFlush cd h)

end Sys2Proof.Machine
end

