-- ==== Sys2Proof/Machine/Moves.lean ====
section
/-!
DEFINITION. The engine-load, data-move and network instructions of a core (R138 to R142, R148 to R153).
-/

namespace Sys2Proof.Machine

/-! ## Buffers -/

/-- VLD: v[D] := 256 bytes of the core buffer. -/
def vldGo (cd k : Nat) (w : IWord) (s : State) : State × Option Nat :=
  let (bs, s) := s.coreRead cd k (addrAX (s.core cd k) w) 256
  (s.onCore cd k (fun c => c.setV w.d (ofBytes bs)), none)

def execVld (cd k : Nat) (s : State) : Out := instrRow cd k 0x60 s (vldGo cd k)

/-- VST: 256 bytes of the core buffer := v[D]. Every buffer access of a core is done as its instruction issues, in issue order
(log entry 170). -/
def vstGo (cd k : Nat) (w : IWord) (s : State) : State × Option Nat :=
  let c := s.core cd k
  (s.writeMem cd (coreBuf k + addrAX c w) (toBytes 256 (c.vreg w.d)), none)

def execVst (cd k : Nat) (s : State) : Out := instrRow cd k 0x61 s (vstGo cd k)

/-- DMOV: s[C] bytes from s[A] to s[B], core buffer to cluster buffer when X[0] = 0, back when X[0] = 1 (R148). -/
def dmovGo (cd k : Nat) (w : IWord) (s : State) : State × Option Nat :=
  let c := s.core cd k
  let a := c.sreg w.a
  let b := c.sreg w.b
  let n := c.sreg w.c
  if n = 0 then (s, none)
  else if bit w.x 0 then
    let (bs, s) := s.clusterRead cd k a n
    (s.writeMem cd (coreBuf k + b) bs, none)
  else
    let (bs, s) := s.coreRead cd k a n
    (s.writeMem cd (clusterBuf (k / 8) + b) bs, none)

def execDmov (cd k : Nat) (s : State) : Out := instrRow cd k 0x62 s (dmovGo cd k)

/-! ## Engine loads -/

/-- The EV code of R36 and R37: (e_max − 127) + EVOFF + 512. -/
def evCode (emax : Nat) (evoff : Int) : Nat := unsigned 10 ((emax : Int) - 127 + evoff + 512)

/-- ELD (R138, R139): one load per set MASK bit, ascending; every value is taken at issue. `pc` is its index. -/
def eldGo (cd k pc : Nat) (w : IWord) (s : State) : State × Option Nat :=
  let c := s.core cd k
  let emax := if bit w.x 31 then c.sreg w.b % 256 else (Tab.get 0#8 c.h w.b).toNat
  let (evoff, g) := s.evoffG cd (k / 8) (bits w.x 25 16)
  let loads := (eldEngines w).zipIdx.map (fun lm =>
    ({ seq := c.seq, l := lm.1, el := eldElement c w lm.2, ex := eldExponent c w lm.2, ev := evCode emax evoff, g := g,
       pq := if bit w.x 30 then w.d + lm.2 else w.d, pc := pc, at_ := (s.die cd).cc } : Load))
  (s.setCore cd k { c with loads := c.loads ++ loads }, none)

def execEld (cd k : Nat) (s : State) : Out := instrRow cd k 0x30 s (eldGo cd k (s.core cd k).pc.toNat)

/-- The largest of exponent bytes other than 0xFF, or 0x00 (R141). -/
def largestExp (bs : List Byte) : Nat := ((bs.map (fun b => b.toNat)).filter (fun e => decide (e ≠ 0xFF))).foldl max 0

/-- EMAX (R141). -/
def emaxGo (cd k : Nat) (w : IWord) (s : State) : State × Option Nat :=
  let (bs, s) := s.coreRead cd k ((s.core cd k).sreg w.a) (w.x % 256)
  (s.onCore cd k (fun c => c.setS w.d (largestExp bs)), none)

def execEmax (cd k : Nat) (s : State) : Out := instrRow cd k 0x31 s (emaxGo cd k)

/-- PQCLR (R142). -/
def pqclrGo (cd k : Nat) (w : IWord) (s : State) : State × Option Nat :=
  (s.onCore cd k (fun c => { c with
    pq := Tab.set {} c.pq w.d {}, pqBad := c.pqBad.filter (fun x => decide (x ≠ w.d)) }), none)

def execPqclr (cd k : Nat) (s : State) : Out := instrRow cd k 0x32 s (pqclrGo cd k)

/-! ## Sends -/

/-- Take credits for a send with NC = 0 (R150). -/
def Core.takeCredit (c : Core) (nc : Bool) (i n : Nat) : Core :=
  if nc then c else { c with c := Tab.set 0#8 c.c i (BitVec.ofNat 8 (c.cred i - n)) }

/-- SEND (R149 to R151): the entry is taken by the send port, which sends it once its passes have written. -/
def sendGo (cd k pc : Nat) (w : IWord) (s : State) : State × Option Nat :=
  let s := s.onCore cd k (fun c => c.takeCredit (bit w.x 8) w.a 1)
  (s.queueJob cd k (.pq (s.core cd k).seq w.d (bits w.x 25 16) (64 * (w.x % 8 + 1)) pc), none)

def execSend (cd k : Nat) (s : State) : Out := instrRow cd k 0x70 s (sendGo cd k (s.core cd k).pc.toNat)

/-- The bytes of a vector and the flits that a double-bit error touches (R113, R217). -/
def State.sendRead (s : State) (cd k : Nat) (clb : Bool) (a n : Nat) : List Byte × (Nat → Bool) × State :=
  let base := pkgAddr cd (if clb then clusterBuf (k / 8) + a else coreBuf k + a)
  let bad (o : Nat) : Bool := decide ((s.worstErr (base + 128 * o) (min 128 (n - 128 * o))).1 = 2)
  let r := if clb then s.clusterRead cd k a n else s.coreRead cd k a n
  (r.1, bad, r.2)

/-- MCAST (R149, R196). -/
def mcastGo (cd k : Nat) (w : IWord) (s : State) : State × Option Nat :=
  let c := s.core cd k
  let s := s.onCore cd k (fun c => c.takeCredit (bit w.x 8) w.c 1)
  let (bs, bad, s) := s.sendRead cd k (bit w.x 0) (c.sreg w.a) (c.sreg w.b)
  let group := bits w.x 25 16
  (s.queueJob cd k (.flits 1 group (vectorFlits (sourceOf k (bit w.x 8) w.c) group (c.sreg w.d % 256) bs bad)), none)

def execMcast (cd k : Nat) (s : State) : Out := instrRow cd k 0x71 s (mcastGo cd k)

/-- Send a vector to the experts of a GATE record, in record order, up to one whose table entry is not valid (R116,
R152, R161). In an entry the group stands in bits [9:0] and the valid bit is bit 63, places that the rules do not give
(log entry 169). -/
def State.sendExperts (s : State) (cd k src pc table emax : Nat) (bs : List Byte) (bad : Nat → Bool) :
    List Nat → State
  | [] => s
  | x :: t =>
    let (eb, s) := if x < 256 then s.coreRead cd k (table + 8 * x) 8 else ([], s)
    let e := ofBytes eb
    if !bit e 63 then s.raiseCore cd k [0x0C] pc
    else
      let g := bits e 9 0
      State.sendExperts (s.queueJob cd k (.flits 2 g (vectorFlits src g emax bs bad))) cd k src pc table emax bs bad t

/-- MCASTX (R149, R150, R152): a record with count 0 sends nothing and takes no credit. -/
def mcastxGo (cd k pc : Nat) (w : IWord) (s : State) : State × Option Nat :=
  let c := s.core cd k
  let n := s.gateCount cd k (c.sreg w.c)
  let (rec, s) := s.coreRead cd k (c.sreg w.c) 72
  if n = 0 then (s, none)
  else
    let s := s.onCore cd k (fun c => c.takeCredit (bit w.x 5) (bits w.x 4 0) n)
    let (bs, bad, s) := s.sendRead cd k false (c.sreg w.a) (c.sreg w.b)
    let experts := (List.range n).map (fun j => numAt rec (8 + 8 * j) 2)
    (s.sendExperts cd k (sourceOf k (bit w.x 5) (bits w.x 4 0)) pc (bits w.x 31 16) (c.sreg w.d % 256) bs bad experts, none)

def execMcastx (cd k : Nat) (s : State) : Out := instrRow cd k 0x72 s (mcastxGo cd k (s.core cd k).pc.toNat)

/-- GRANT (R153, R202): one credit flit on the route's group; a route that is not VALID emits nothing. -/
def grantGo (cd k : Nat) (w : IWord) (s : State) : State × Option Nat :=
  let r := w.x % 256
  let e := s.reg cd .nocCrt (k / 8) r
  if !bit e 63 then (s.nocError cd (k / 8) 1 (5 + k % 8) 1 r 0, none)
  else (s.queueJob cd k (.flits 3 r [.cr (bits e 25 16) (bits e 4 0) (bits w.x 15 8)]), none)

def execGrant (cd k : Nat) (s : State) : Out := instrRow cd k 0x73 s (grantGo cd k)

end Sys2Proof.Machine
end

