-- ==== Sys2Proof/Machine/Recovery.lean ====
section
/-!
DEFINITION. The reliability engines: releases and resends, recovery of a die by replay, die reset, the loss of a control
die (R566 to R581, R583, R584).
-/

namespace Sys2Proof.Machine

/-! ## Releases and resends (R570, R577) -/

/-- Package, die and group at which a message lands, behind the group map of a link die (R381). -/
def State.finalDie (s : State) (m : Msg) : Nat × Nat :=
  if m.type = 5 ∧ (m.ddie = 36 ∨ m.ddie = 37) then
    let e := s.reg m.ddie .lnkGmap m.group
    (bits e 58 47, bits e 46 41)
  else (m.dpkg, m.ddie)

/-- The step of slot `k` on a die of the package is complete: on a CD it is closed, on an MD every command of the slot has
been performed and its rows have left (R570). -/
def State.stepComplete (s : State) (die k : Nat) : Bool :=
  if die < 32 then s.stepClosed k (s.fab die).log
  else if die < 36 then
    let m := s.md die
    !((m.cmds ++ m.asm).any (fun c => decide (numAt c.bytes 2 2 % 16384 = k)) ||
      (s.fab die).inbox.any (fun x => decide (x.inp = 8) && decide (x.slot = k)))
  else true

/-- STEP_RELEASE: the release of slot `k` by die `rdie` of package `rpkg` reaches die `die`. -/
def State.stepRelease (s : State) (die k rpkg rdie : Nat) : State :=
  let pkg := s.pkgId die
  let own := decide (rpkg = pkg)
  if own && !s.stepComplete rdie k then s
  else
    let s := s.dropCopies die (fun x m => decide (x = k) && decide (s.finalDie m = (rpkg, rdie)))
    if own then s.dropLandings rdie k (fun p d => decide (p = pkg) && decide (d = die)) else s

/-- Whether a die has a reliability engine (R583 to R586). -/
def hasRas (die : Nat) : Bool := decide (die < 36) || decide (die = 38) || decide (die = 39)

def execStepRelease (die slot rpkg rdie : Nat) (s : State) : Out :=
  if hasRas die ∧ slot < 16384 then .next (s.stepRelease die slot rpkg rdie) else .fault .noSuchUnit

/-- Retained copies of a die are read. A correctable error is corrected and counted in CE_COUNT; an uncorrectable one sets UE
and ends the request of its slot with FAULT, or is class E where the slot cannot be told (R566, R581, R586). -/
def State.readStore (s : State) (die : Nat) (p : Nat → Msg → Bool) : State :=
  let hit := (s.fab die).retained.filter (fun r => decide (r.2.storeErr ≠ 0) && p r.1 r.2)
  if hit = [] then s
  else
    let s := s.addFld die .rasStore 15 0 (hit.filter (fun r => decide (r.2.storeErr = 1))).length
    let f := s.fab die
    let s := s.setFab die { f with
      retained := f.retained.map (fun r => if r.2.storeErr = 1 ∧ p r.1 r.2 then (r.1, { r.2 with storeErr := 0 }) else r) }
    let bad := hit.filter (fun r => decide (2 ≤ r.2.storeErr))
    let s := if bad = [] then s else s.orReg die .rasStore (2 ^ 63)
    bad.foldl (fun s r => if r.2.storeErr = 2 ∧ r.1 < 16384 then s.faultSlot r.1 else s.classE die 8) s

/-- RESEND_REQUEST: die `die` sends again its retained messages for a receiver and group, but for those that the
receiver's log holds: counted there for a die of the package, `skip` for another. -/
def State.resend (s : State) (die rpkg rdie group skip : Nat) : State :=
  let pkg := s.pkgId die
  let held (e : LogEntry) : Bool := match e with
    | .landing p d g _ _ => decide (p = pkg) && decide (d = die) && decide (g = group)
    | _ => false
  let n := if rpkg = pkg then ((s.fab rdie).log.filter held).length else skip
  let mine (s : State) (m : Msg) : Bool := decide (s.finalDie m = (rpkg, rdie)) && decide (s.finalGroup m = group)
  let t := s.readStore die (fun _ m => mine s m)
  let ms := ((t.fab die).retained.filter (fun r => mine s r.2)).drop n
  (ms.foldl (fun t r => if r.2.storeErr = 0 then t.sendOn die r.2 else t) t).portsRun die

def execResendRequest (die rpkg rdie group skip : Nat) (s : State) : Out :=
  if hasRas die then .next (s.resend die rpkg rdie group skip) else .fault .noSuchUnit

/-! ## Preparing replay (R571 step 6, R573) -/

def State.updRas (s : State) (die : Nat) (f : Ras → Ras) : State :=
  s.setDie die { s.die die with ras := f (s.die die).ras }

/-- Whether the step of a slot is still to be replayed: an unknown slot always is. -/
def State.replays (s : State) (die : Nat) : Nat → Bool :=
  let log := (s.fab die).log
  fun k => decide (k = noSlot) || !s.stepClosed k log

/-- Per credit route, how many of the granted inputs are landed again. -/
def State.regrants (s : State) (die : Nat) : Tab Nat :=
  let log := (s.fab die).log
  let again := s.replays die
  let routes := log.filterMap (fun e => match e with | .credit r _ => some r | _ => none)
  let lands := log.filterMap (fun e => match e with
    | .landing p d g k _ => (s.routeOf die p d g).map (fun r => (r, again k))
    | _ => none)
  routes.eraseDups.foldl (fun t r =>
    let mine := lands.filter (fun x => decide (x.1 = r))
    Tab.set 0 t r (((mine.take (routes.count r)).filter (fun x => x.2)).length)) []

/-- What replay will repeat: the retained copies of incomplete steps, the grants for inputs landed again, the counters
that a CSET will set. -/
def State.prepareReplay (s : State) (die : Nat) : State :=
  let again := s.replays die
  let s := s.readStore die (fun k _ => again k)
  let expect := (s.fab die).log.filterMap (fun e => match e with
    | .sent k m => if again k then some m else none
    | _ => none)
  let owing := (s.die die).ras.owed.map (fun e => e.1)
  let paid := (expect.filter (fun m => decide (512 < m.src) && decide (m.src ≤ outside))).map (fun m =>
    32 * ((m.src - 1) % 512) + ((m.src - 1) / 512 - 1))
  let csets := (owing ++ paid).foldl (fun t k => Tab.set false t k true) []
  let grants := s.regrants die
  s.updRas die (fun r => { r with expect, csets, grants })

/-- The slots whose inputs are landed again. -/
def State.replayedSlots (s : State) (die : Nat) : List Nat :=
  let again := s.replays die
  ((s.fab die).log.filterMap (fun e => match e with
    | .landing _ _ _ k _ => if again k then some k else none
    | _ => none)).eraseDups

/-- Land the inputs of the incomplete steps again, in the order of the log. -/
def State.reland (s : State) (die : Nat) : State :=
  let again := s.replays die
  let steps := if die < 32 then (s.replayedSlots die).length else if die < 36 then (s.md die).cmds.length else 0
  let s := s.setFld die .rasStat 15 0 (min 0xFFFF steps)
  -- the senders' copies are what is landed; one that its store has lost is not (R571, R581)
  let pkg := s.pkgId die
  let lost (d k : Nat) (m : Msg) : Bool := (s.fab d).retained.any (fun r =>
    decide (2 ≤ r.2.storeErr) && decide (r.1 = k) && decide (s.finalDie r.2 = (pkg, die)) && decide (r.2.data = m.data))
  let gone := (s.fab die).log.filter (fun e => match e with
    | .landing p d _ k m => decide (p = pkg) && again k && lost d k m
    | _ => false)
  let s := (List.range 40).foldl (fun s d => s.readStore d (fun k m => again k && decide (s.finalDie m = (pkg, die)))) s
  -- a memory die has kept its incomplete commands, which are performed once (log entry 88)
  if 32 ≤ die then s
  else (s.fab die).log.foldl (fun s e => match e with
    | .landing _ _ _ k m => if again k && !gone.contains e then s.enterMesh die m else s
    | _ => s) s

/-! ## The steps of a recovery (R571) -/

/-- A class-C fault: the die is reset next; within 1 s of another, and on a die that has no die reset, class E (R566,
R579). -/
def State.classC (s : State) (die cause : Nat) : State :=
  let d := s.die die
  let again : Bool := match d.ras.lastC with
    | some h => decide (s.hc < h + 100000000)
    | none => false
  if again ∨ 36 ≤ die then s.classE die cause
  else
    let s := s.setDie die { d with
      faults := []
      ras := { d.ras with lastC := some s.hc, rec_ := some { cause, since := s.hc } } }
    ((s.raiseAlert .rasAlert (2 ^ die)).eventBoth 3 0).rasEnter die 6 cause

/-- Faults that no recovery has taken yet start one, or start the running one again. -/
def State.recoveryStart (s : State) (die : Nat) : State :=
  let d := s.die die
  let cause := d.faults.headD 0
  let times := d.ras.times.filter (fun h => decide (s.hc < h + 100000))
  if d.faults.contains 7 then s.classC die 7
  else if s.fld die .rasCtl 31 31 = 0 ∧ d.faults.any (fun c => decide (c ≠ 0x0E)) then
    (s.setDie die { d with faults := [] }).classE die cause
  else
    match d.ras.rec_ with
    | some r =>
      (s.setDie die { d with faults := [], ras := { d.ras with rec_ := some { r with landed := false } } }).rasEnter die 1 cause
    | none =>
      if s.fld die .rasCtl 3 0 ≤ times.length then s.classC die 0x0D
      else
        let s := s.setDie die { d with
          faults := []
          ras := { d.ras with times := times ++ [s.hc], rec_ := some { cause, since := s.hc } } }
        (s.addFld die .rasStat 47 32 1).rasEnter die 1 cause

/-- The listed cores of a CD. -/
def State.coresOf (s : State) (cd : Nat) : List Nat :=
  (s.cores.filter (fun e => decide (e.1 / 512 = cd))).map (fun e => e.1 % 512)

/-- Vectors partly sent end as ABORT; what the die's own units have not sent yet is dropped, and replay makes it again. -/
def State.abortSends (s : State) (cd : Nat) : State :=
  let f := s.fab cd
  let own := s.pkgId cd
  let cut := (f.edge.filter (fun e => e.2.opened)).map (fun e =>
    let m : Msg := { type := 5, priv := true, dpkg := own, spkg := own, sdie := cd, ddie := e.2.rdie, group := e.2.rgroup,
                     len := e.2.len, emax := e.2.emax, data := e.2.data, aborted := true }
    m)
  s.setFab cd { f with edge := [], inbox := f.inbox.filter (fun m => !(decide (m.inp = 8) && decide (5 ≤ m.type))) ++ cut }

/-- Step 2. -/
def State.quiesce (s : State) (die cause : Nat) : State :=
  if 32 ≤ die then s.rasEnter die 2 cause
  else
    let s := (s.coresOf die).foldl (fun s k =>
      let c := s.core die k
      if c.run ≠ .stopped ∧ !c.stopping then s.coreStop die k else s) s
    if (s.coresOf die).all (fun k => decide ((s.core die k).run = .stopped)) then (s.abortSends die).rasEnter die 2 cause else s

/-- A core with the state of R123 at its reset values. -/
def Core.cleared (c : Core) : Core :=
  { c with
    s := [], v := [], p := [], a := [], h := [], c := [], pq := [], pc := 0, run := .stopped, stopping := false,
    loads := [], jobs := [], withheld := [], waitFrom := none, waitHc := none, waitAcc := 0, vBad := [], pqBad := [] }

/-- Registers of the families and dies that satisfy `p` take their reset values. -/
def State.resetRegs (s : State) (p : Nat → RegFam → Bool) : State :=
  { s with csr := Tab.keep (fun key =>
      match regAt (key / 2 ^ 46) (key % 2 ^ 46) with
      | some r => !p (key / 2 ^ 46) r.fam
      | none => false) s.csr }

/-- DBG_TCFG.EPOCH of a die is as in `was`: counters of observation outlive a die reset and a warm restart (R628). -/
def State.keepEpoch (s was : State) (die : Nat) : State := s.setFld die .dbgTcfg 7 0 (was.fld die .dbgTcfg 7 0)

/-- The faulted engines of a CD: core, engine, and the entry that names it, if any. -/
def State.faultedEngines (s : State) (cd : Nat) : List (Nat × Nat × Option Nat) :=
  (s.engines.filter (fun e => decide (e.1 / 17 / 512 = cd) && decide (e.2.state = .faulted))).map (fun e =>
    (e.1 / 17 % 512, e.1 % 17, s.namedBy cd (e.1 / 17 % 512) (e.1 % 17)))

/-- A refill of an engine is queued or under way. -/
def State.refilling (s : State) (cd k p : Nat) : Bool :=
  s.loaders.any (fun x => decide (x.cd = cd) && decide (x.k = k) && decide (x.p = p)) ||
  s.golds.any (fun g => g.2.refills.any (fun x => decide (x.cd = cd) && decide (x.k = k) && decide (x.p = p)))

/-- A faulted engine that no entry names: retired after a second fault within 1 h, else refilled after the recovery with
the record of logical engine `l` (R574, R575). -/
def State.shelve (s : State) (cd k l p : Nat) : State :=
  let e := s.engine cd k p
  if e.state ≠ .faulted then s
  else if e.again then s.retireEngine cd k p
  else if (s.die cd).ras.later.any (fun x => decide (x.1 = k) && decide (x.2.2 = p)) then s
  else s.updRas cd (fun r => { r with later := r.later ++ [(k, l, p)] })

/-- The lowest enabled logical engine of a core: its record refills a spare whose own record is not known (log entry 89). -/
def State.firstLogical (s : State) (cd k : Nat) : Nat := ((List.range 16).find? (fun l => (s.mapl cd k l).1)).getD 0

/-- Step 3. -/
def State.clear (s : State) (cd cause : Nat) : State :=
  let s := s.prepareReplay cd
  if 32 ≤ cd then s.rasEnter cd 4 cause
  else
    let s := { s with
      cores := Tab.mapAll {} (fun k c => if k / 512 = cd then c.cleared else c) s.cores
      routers := Tab.keep (fun k => decide (k / 64 ≠ cd)) s.routers }
    let s := s.resetRegs (fun d f => decide (d = cd) && decide (f = .coreFmode))
    let bad := s.faultedEngines cd
    let repair := bad.filterMap (fun x => x.2.2.map (fun l => (x.1, l, (none : Option Nat))))
    let s := bad.foldl (fun s x =>
      if x.2.2.isSome ∨ s.refilling cd x.1 x.2.1 ∨ (s.engine cd x.1 x.2.1).loaded then s
      else s.shelve cd x.1 (s.firstLogical cd x.1) x.2.1) s
    let s := s.updRas cd (fun r => { r with rec_ := r.rec_.map (fun y => { y with repair }) })
    s.rasEnter cd (if repair = [] then 4 else 3) cause

/-! ## Repair (R574 to R576) -/

/-- An IDLE physical engine of a core that nothing uses. -/
def State.spareOf (s : State) (cd k : Nat) (chosen : List (Nat × Nat × Option Nat)) : Option Nat :=
  (s.usable cd k).find? (fun p =>
    decide ((s.engine cd k p).state = .idle) && (s.namedBy cd k p).isNone && !s.refilling cd k p &&
    !chosen.any (fun x => decide (x.1 = k) && decide (x.2.2 = some p)))

/-- Ask the primary memory die to refill an engine; false while its queue is full. -/
def State.askRefill (s : State) (cd k l p : Nat) : Bool × State :=
  let md := primaryOf cd
  if 64 ≤ (s.gold md).refills.length then (false, s)
  else
    let was := s.resp
    (true, { s.refillWrite cd md (2 ^ 63 + cd <<< 50 + k <<< 41 + l <<< 37 + p <<< 32) with resp := was })

/-- One faulted engine of the list goes one step further: what is left of it. -/
def State.repairOne (s : State) (cd : Nat) (all : List (Nat × Nat × Option Nat)) (x : Nat × Nat × Option Nat) :
    Option (Nat × Nat × Option Nat) × State :=
  let (k, l, o) := x
  match o with
  | none =>
    match s.spareOf cd k all with
    | none => (some x, s.outOfSpares cd)
    | some p =>
      let (ok, s) := s.askRefill cd k l p
      (some (k, l, if ok then some p else none), s)
  | some p =>
    let e := s.engine cd k p
    if s.refilling cd k p then (some x, s)
    else if e.state = .idle ∧ e.loaded ∧ e.tested then
      let was := s.resp
      let old := (s.mapl cd k l).2
      let s := { s.maplWrite cd k l true p with resp := was }
      (none, s.shelve cd k l old)
    else if e.state = .idle ∧ e.loaded then (some x, s)
    else (some (k, l, none), s.shelve cd k l p)

/-- Step 4. -/
def State.repair (s : State) (cd cause : Nat) : State :=
  let list := match (s.die cd).ras.rec_ with | some r => r.repair | none => []
  let (list, s) := list.foldl (fun a x =>
    if a.2.fld cd .rasStat 63 61 = 7 then a
    else
      let (y, s) := a.2.repairOne cd (a.1 ++ list) x
      (a.1 ++ y.toList, s)) (([] : List (Nat × Nat × Option Nat)), s)
  if s.fld cd .rasStat 63 61 = 7 then s
  else
    let s := s.updRas cd (fun r => { r with rec_ := r.rec_.map (fun y => { y with repair := list }) })
    if list = [] then s.rasEnter cd 4 cause else s

/-- Step 5: no core starts before the die's waggle copy is valid (R632). -/
def State.restart (s : State) (die cause : Nat) : State :=
  if 32 ≤ die then s.rasEnter die 5 cause
  else if !(s.die die).wagValid then s
  else (s.watch die (List.range 512) (fun s => (List.range 512).foldl (fun s k => s.coreRun die k) s)).rasEnter die 5 cause

/-- Step 6: the inputs land again, once; replay may then be over at once. -/
def State.replay (s : State) (die : Nat) : State :=
  match (s.die die).ras.rec_ with
  | some r =>
    let s := if r.landed then s
      else (s.reland die).updRas die (fun x => { x with rec_ := some { r with landed := true } })
    s.replayDone die
  | none => s.replayDone die

/-- After a recovery, a faulted engine is refilled in the background (R574). -/
def State.background (s : State) (cd : Nat) : State :=
  match (s.die cd).ras.later with
  | [] => s
  | (k, l, p) :: rest =>
    let (ok, s) := s.askRefill cd k l p
    if ok then s.updRas cd (fun r => { r with later := rest }) else s

/-- FAULT_RECOVERY: a die's reliability engine takes its next step. -/
def State.faultRecovery (s : State) (die : Nat) : State :=
  let st := s.fld die .rasStat 63 61
  let cause := s.fld die .rasStat 60 56
  let new := (s.die die).faults
  if st = 7 then s
  else if st = 6 then (if new.contains 7 then s.classC die 7 else s)
  else if new ≠ [] then s.recoveryStart die
  else match st with
    | 1 => s.quiesce die cause
    | 2 => s.clear die cause
    | 3 => s.repair die cause
    | 4 => s.restart die cause
    | 5 => s.replay die
    | _ => s.background die

def execFaultRecovery (die : Nat) (s : State) : Out :=
  if hasRas die then .next (s.faultRecovery die) else .fault .noSuchUnit

/-- RAS_FORCE: a write of RAS_CTL.FORCE (R583). -/
def State.rasForce (s : State) (die : Nat) : State :=
  if s.fld die .rasCtl 30 30 = 1 then s else (s.setFld die .rasCtl 30 30 1).faultA die 0x0E

def execRasForce (die : Nat) (s : State) : Out :=
  if hasRas die then .next ((s.rasForce die).respond 0) else .fault .noSuchUnit

/-! ## Die reset (R579, R589, R590) -/

/-- Register families that a die reset keeps, or that firmware reloads with the values they had (R590). -/
def keptByDieReset (f : RegFam) : Bool :=
  match f with
  | .pfabCtl | .pfabPkgid | .pfabLnk | .pfabRt | .pfabArbw | .pfabPsel | .nocCtl | .rasStat | .rasStore
  | .dbgRingc | .dbgRingu | .dbgRstatc | .dbgRstatu | .dbgRfreeze | .monCfg | .monLbase | .monCtl
  | .monMissed | .dbgTdrop | .dbgTwptr
  | .mdaRgn | .mdaCtl | .mdaPool | .mdaRsv | .mdaLtab | .mdaRqt | .mdaGold => true
  | _ => false

/-! The retirement record in the flash (R595). -/

def retCopy (c : Nat) : Nat := 0x2030000 + 0x10000 * c
def retSize : Nat := 34880

/-- A copy is valid. -/
def State.retValid (s : State) (c : Nat) : Bool :=
  let b := s.readFlash (retCopy c) 20
  decide (numAt b 0 4 = 0x54455252) && decide (numAt b 8 4 = s.reg 38 .cmdIdent) && decide (numAt b 12 8 = s.sec.fuses.serial) &&
  (let a := s.readFlash (retCopy c) (retSize + 4)
   decide (crc32c (a.take retSize) = numAt a retSize 4))

def State.retSeq (s : State) (c : Nat) : Nat := ofBytes (s.readFlash (retCopy c + 4) 4)

/-- The valid copy with the higher SEQ. -/
def State.retBest (s : State) : Option Nat :=
  match s.retValid 0, s.retValid 1 with
  | true, true => some (if s.retSeq 0 < s.retSeq 1 then 1 else 0)
  | true, false => some 0
  | false, true => some 1
  | false, false => none

/-- The engines whose bits are set in a copy. -/
def State.retBits (s : State) (c : Nat) : List Nat :=
  (List.range 34816).flatMap (fun i => onesFrom 8 (s.flashByte (retCopy c + 64 + i)).toNat (8 * i))

/-- The engines that firmware retires at a reset: those of the record, and those whose bit it is about to write (R595; log
entry 165). -/
def State.recordedEngines (s : State) : List Nat :=
  (match s.retBest with | some c => s.retBits c | none => []) ++ s.plat.retire

/-- An engine after a reset of its die. -/
def Engine.afterReset (e : Engine) (retired : Bool) : Engine :=
  { e with
    state := if retired || e.fused then .retired else .idle
    loaded := false, tested := false, written := 0, passes := [], lastLoad := none, test := none, forced := false
    lastPassHc := 0, lastTestHc := 0, cmd := none, portAt := 0, scrubRow := 0, scrubDue := 0, leaving := false }

/-- Refill every engine of a CD that has a valid record in the active set (R397 step 4, R579). -/
def State.refillDie (s : State) (cd : Nat) : State :=
  let md := primaryOf cd
  let set := s.activeSet md
  let side := cdSide cd
  let rs := (s.validRecords md set).filter (fun r => decide ((recordPlace side r).1 = cd))
  match s.placeRecords side rs with
  | none => s.outOfSpares cd
  | some s =>
    rs.foldl (fun s r =>
      let (_, k, l) := recordPlace side r
      match s.refillRead md set r with
      | (some b, s) => s.addLoader (loaderOf md cd k (s.mapl cd k l).2 l 2 b)
      | (none, s) => s) s

/-- Every link of the die trains again, at the width it had; what was on it is lost, and the die's count of NAKs is as after a
reset (R377, R590). -/
def State.retrainLinks (s : State) (die : Nat) : State :=
  (List.range 6).foldl (fun s l =>
    match partner die l with
    | none => s
    | some (d, _) =>
      -- the partner's crossing has lost the side that was reset (R488)
      if s.linkState die l = 0 then s
      else (((s.linkCut die l).setLinkState die l 1 (s.linkWidth die l)).setFld die .pfabLnk 15 0 0 l).orReg d .clkErr 4) s

/-- The refills that a memory die loses with its reset: the compute die asks again for those of its repair, and for those of
its faulted engines later, so that no spare is mapped on cells from another record (R72, R93). -/
def State.forgetRefills (s : State) (md : Nat) : State :=
  let lost : List Refill := (s.gold md).refills ++
    (s.loaders.filter (fun x => decide (x.why = 1) && decide (x.md = md))).map (fun x => ⟨x.cd, x.k, x.l, x.p⟩)
  lost.foldl (fun s x =>
    let mine := match (s.die x.cd).ras.rec_ with
      | some r => r.repair.any (fun y => decide (y.1 = x.k) && decide (y.2.2 = some x.p))
      | none => false
    s.updRas x.cd (fun r =>
      if mine then
        { r with rec_ := r.rec_.map (fun y => { y with
          repair := y.repair.map (fun z => if z.1 = x.k ∧ z.2.2 = some x.p then (z.1, z.2.1, none) else z) }) }
      else { r with later := r.later ++ [(x.k, x.l, x.p)] })) s

/-- What the reset of a die clears. -/
def State.clearDie (s : State) (die : Nat) : State :=
  let was := s
  let s := s.resetRegs (fun d f => decide (d = die) && !keptByDieReset f)
  let s := if die < 32 then s.keepEpoch was die else s
  let s := if 32 ≤ die then s
    else { s with
      mem := Tab.keep (fun a => decide (a / 2 ^ 46 ≠ die)) s.mem
      memErr := Tab.keep (fun w => decide (8 * w / 2 ^ 46 ≠ die)) s.memErr
      cores := Tab.keep (fun k => decide (k / 512 ≠ die)) s.cores
      routers := Tab.keep (fun k => decide (k / 64 ≠ die)) s.routers
      collectors := Tab.erase s.collectors die
      engines :=
        let gone := s.recordedEngines
        Tab.mapAll {} (fun k e => if k / 17 / 512 = die then e.afterReset (gone.contains k) else e) s.engines }
  let s := if 32 ≤ die ∧ die < 36 then (s.forgetRefills die).setGold die { lost := (s.gold die).lost } else s
  let s := { s with loaders := s.loaders.filter (fun x => !((decide (x.why = 1) && decide (x.md = die)) || ((decide (x.why = 1) || x.reply.isSome) && decide (x.cd = die)))) }
  let s := { s with monitors := Tab.mapAll {} (fun k m => if k / 16 = die then m.afterReset else m) s.monitors }
  let f := s.fab die
  let s := s.setFab die { f with
    inbox := f.inbox.filter (fun m => s.endsHere die m && (decide (5 ≤ m.type) || m.isCommand)), edge := [], reqs := [], waits := [],
    quar := [] }
  let d := s.die die
  s.setDie die { d with
    wagValid := false, wagV := 0, wagStart := none, adj := [], adjIn := [], inWindow := false, tempRefused := none
    heat := { tripped := d.heat.tripped, failed := d.heat.failed } }

/-- The trims of the calibration record (R555, R590). -/
def State.trimDie (s : State) (die : Nat) : State :=
  match s.calBest with
  | some c => s.calApplyTo c die false
  | none => s

/-- A CD takes its program stores and tables from the staged image, and its weights from the golden copy (R579). -/
def State.reloadDie (s : State) (die : Nat) : State :=
  if 32 ≤ die then s
  else
    let mine := s.stagedSections.filter (fun x => decide (x.die = die))
    (if s.stageState = 2 then (s.applySections mine).2 else s).refillDie die

/-- DIE_RESET: the die of a class-C recovery is reset, relocked, reloaded and refilled; then it restarts under R571. -/
def State.dieReset (s : State) (die : Nat) : State :=
  let cause := s.fld die .rasStat 60 56
  match (s.die die).ras.rec_ with
  | none => s
  | some r =>
    if s.fld die .rasStat 63 61 ≠ 6 then s
    else if r.landed then
      if s.loaders.any (fun x => decide (x.why = 2) && decide (x.cd = die)) then s
      else (s.updRas die (fun x => { x with rec_ := some { r with landed := false } })).rasEnter die 4 cause
    else
      -- the PLL locks again, which counts as a relock (R502)
      let t := (((s.prepareReplay die).clearDie die).setFld die .clkStat 31 30 3).addFld die .clkStat 15 0 1
      let t := (t.retrainLinks die).trimDie die
      let t := t.updRas die (fun x => { x with rec_ := some { r with landed := true }, later := [] })
      { t.reloadDie die with resp := s.resp }

def execDieReset (die : Nat) (s : State) : Out := if die < 36 then .next (s.dieReset die) else .fault .noSuchUnit

/-! ## Loss of a control die (R580) -/

/-- KD_HEARTBEAT: the 10 µs of control die `kd` are over; `sent` says whether it sent its heartbeat. -/
def State.heartbeat (s : State) (kd : Nat) (sent : Bool) : State :=
  let got := sent && !(s.die kd).heat.gated && s.arrives kd (77 - kd)
  let p := s.plat
  let next (n : Nat) : Nat := if got then 0 else n + 1
  { s with plat := if kd = 38 then { p with missed0 := next p.missed0 } else { p with missed1 := next p.missed1 } }

def execKdHeartbeat (kd : Nat) (sent : Bool) (s : State) : Out :=
  if kd = 38 ∨ kd = 39 then .next (s.heartbeat kd sent) else .fault .noSuchUnit

/-- Every injection in flight starts again from its slot's last committed position. -/
def State.restartInjections (s : State) : State :=
  let busy := s.slotList.filter (fun k => (s.slot k).inj.isSome || (s.slot k).chunk.isSome)
  let s := busy.foldl (fun s k => s.updSlot k (fun x => { x with
    prompt := match x.inj with | some j => (if j.kind = 0 then j.pos else x.prompt) | none => x.prompt
    chunk := none })) s
  busy.foldl (fun s k => if s.sstate k = 2 then s.readChunk k else s) s.dropFlight

/-- CONTROL_DIE_TAKEOVER by control die `kd`, once three heartbeats of the other in a row are missing. -/
def State.takeover (s : State) (kd : Nat) : State :=
  let other := 77 - kd
  let missed := if other = 38 then s.plat.missed0 else s.plat.missed1
  if missed < 3 ∨ s.plat.lostKd = 1 + other then s
  else if s.plat.lostKd ≠ 0 then s.classE other 0
  else
    let s := { s with plat := { s.plat with lostKd := 1 + other } }
    let s := (s.setFld 38 .rasAlertc 11 11 (kd - 38)).alertHost 12
    let mine (fn : Nat) : Bool := decide (fnPort fn = other - 38)
    let s := (s.slotList.filter (fun k => decide (s.sstate k ≠ 0) && mine (s.slot k).fn)).foldl (fun s k =>
      (s.updSlot k (fun x => { x with mute := true })).faultSlot k) s
    if kd = 39 then s.restartInjections else s

def execControlDieTakeover (kd : Nat) (s : State) : Out :=
  if kd = 38 ∨ kd = 39 then .next (s.takeover kd) else .fault .noSuchUnit

end Sys2Proof.Machine
end

