-- ==== Sys2Proof/Machine/Reset.lean ====
section
/-!
DEFINITION. Boot, the cold reset, the warm restart, the retirement record, the reset inputs and the BMC (R459 to R462,
R524, R589 to R599, R601, R608, R609).
-/

namespace Sys2Proof.Machine

/-! ## Slots of the boot ROM (R459, R460) -/

/-- Offset of slot A (0) or B (1) in flash. -/
def slotBase (slot : Nat) : Nat := 0x1000000 * slot

/-- Why the ROM rejects a slot, the lowest code of SEC_BOOT; 0 when it accepts it (log entry 90). -/
def State.slotCode (s : State) (slot : Nat) : Nat :=
  let b := slotBase slot
  let hdr := s.readFlash b 256
  let len := numAt hdr 8 4
  let key := (hdr.drop 16).take 97
  let dig := sha384 key
  if !((decide (dig = s.sec.fuses.rootKey0) && !s.sec.fuses.revoke0) || decide (dig = s.sec.fuses.rootKey1)) then 1
  else if !verifySig key ((hdr.drop 128).take 96) (hdr.take 128 ++ s.readFlash (b + 256) (min len 16776960)) then 2
  else if byteAt hdr 4 < s.sec.fuses.svn then 3
  else if numAt hdr 0 4 ≠ 0x4E345746 ∨ 16776960 < len then 4
  else 0

/-- Load SEC_BOOT of both control dies. -/
def State.setBoot (s : State) (v : Nat) : State := (s.setReg 38 .secBoot v).setReg 39 .secBoot v

/-- Step 7 of R591: slot A, then slot B. True when one runs; RECOVERY otherwise. -/
def State.bootRom (s : State) : Bool × State :=
  let a := s.slotCode 0
  let b := if a = 0 then 0 else s.slotCode 1
  if a ≠ 0 ∧ b ≠ 0 then (false, (s.setBoot (2 <<< 30 + a <<< 4 + b)).alertHost 7)
  else
    let slot := if a = 0 then 0 else 1
    let hdr := s.readFlash (slotBase slot) 256
    let s := s.setBoot (1 <<< 30 + slot <<< 29 + (byteAt hdr 4 % 128) <<< 16 + a <<< 4 + b)
    let image := sha384 (hdr ++ s.readFlash (slotBase slot + 256) (numAt hdr 8 4))
    (true, { s with sec := { s.sec with image } })

/-! ## Tables (R230, R335, R354, R461) -/

/-- The registers that firmware loads from the installation record. -/
def RegFam.inRecord : RegFam → Bool
  | .pfabArbw | .pfabPsel | .lnkPkgrt | .lnkGmap | .lnkArbw | .lnkPcfg | .wagCfg | .mdaRgn | .nocArbw => true
  | _ => false

/-- The link by which a compute die at column `c`, row `r` reaches column `x`, row `y` (R354). -/
def gridStep (c r x y : Nat) : Nat := if c < x then 1 else if x < c then 3 else if r < y then 2 else 0

/-- A value moved into a range. -/
def clampTo (lo hi v : Nat) : Nat := max lo (min hi v)

/-- The standard route from die `d` to die `t`: a link index (R354). -/
def stdRoute (d t : Nat) : Nat :=
  let c := d % 8
  let r := d / 8
  if d < 32 then
    -- a memory die is left for at the end of the row, a control die through its memory die
    let west (l : Nat) : Nat := if c = 0 then l else 3
    let east (l : Nat) : Nat := if c = 7 then l else 1
    if t < 32 then gridStep c r (t % 8) (t / 8)
    else match t with
      | 32 | 38 => west 4
      | 33 => west 5
      | 34 => east 4
      | 35 | 39 => east 5
      | 36 => if 2 ≤ c ∧ c ≤ 5 then 0 else gridStep c r (clampTo 2 5 c) r
      | _ => if 2 ≤ c ∧ c ≤ 5 then 2 else gridStep c r (clampTo 2 5 c) r
  else if d < 36 then
    -- a compute die is entered in its row; the memory die of a pair that faces the control die leads to it
    if t < 32 then t / 8
    else match d, t with
      | 32, 33 | 33, 32 | 33, 38 | 34, 35 | 35, 34 | 34, 39 => 4
      | 32, 38 | 35, 39 => 5
      | _, _ => 0
  else if d = 36 then (if t < 32 then clampTo 2 5 (t % 8) - 2 else if t = 38 then 4 else 0)
  else if d = 37 then (if t < 32 then clampTo 2 5 (t % 8) - 2 else if t = 39 then 4 else 0)
  else if d = 38 then (if t < 32 then min 1 (t % 8) else if t = 32 ∨ t = 33 then 2 else if t = 36 then 3 else 0)
  else (if t < 32 then clampTo 6 7 (t % 8) - 6 else if t = 34 ∨ t = 35 then 2 else if t = 37 then 3 else 0)

/-- The standard routes of every die. -/
def State.loadRoutes (s : State) : State :=
  (List.range 40).foldl (fun s d => (List.range 40).foldl (fun s t =>
    if d = t then s else s.setReg d .pfabRt (2 ^ 31 + stdRoute d t) t) s) s

/-- The outputs that a message from die `s` to die `t` passes: die, input and output, from die `d` and its input `i` on. -/
def routeHops (t : Nat) : Nat → Nat → Nat → List (Nat × Nat × Nat)
  | 0, _, _ => []
  | n + 1, d, i =>
    if d = t then []
    else
      let l := stdRoute d t
      match partner d l with
      | some (x, m) => (d, i, l) :: routeHops t n x m
      | none => []

/-- The weights of the die-link outputs: for each input and output, the number of source dies with a route from the one to the
other (R370). Keyed as PFAB_ARBW is: die, output, input. -/
def stdWeights : Tab Nat :=
  (List.range 40).foldl (fun w s =>
    let hops := ((List.range 40).flatMap (fun t => routeHops t 40 s 8)).eraseDups
    hops.foldl (fun w h => Tab.upd 0 w (64 * h.1 + 9 * h.2.2 + h.2.1) (· + 1)) w) []

/-- Firmware sets the weights of every die link (R370). -/
def State.loadWeights (s : State) : State :=
  let w := stdWeights
  (List.range 40).foldl (fun s d => (List.range 6).foldl (fun s l =>
    if (partner d l).isNone then s
    else [0, 1, 2, 3, 4, 5, 8].foldl (fun s i => s.setReg d .pfabArbw (Tab.get 0 w (64 * d + 9 * l + i)) l i) s) s) s

/-- Firmware writes the tables of the installation record: die, offset and value of each register. -/
def State.loadTables (s : State) (tables : List (Nat × Nat × Word64)) : State :=
  let was := s.resp
  let s := tables.foldl (fun s x =>
    match regAt x.1 x.2.1 with
    | some r => if r.fam.inRecord then s.regWrite (s.accessor .firmware) x.1 r x.2.2.toNat else s
    | none => s) s
  { s with resp := was }

/-- LNK_PCFG as the record has set it is what later reloads give it again (R335, R590). -/
def State.notePorts (s : State) : State :=
  { s with sec := { s.sec with portCfg := (List.range 32).foldl (fun t k =>
      Tab.set 0 t k (s.reg (36 + k / 16) .lnkPcfg (k % 16))) [] } }

/-- Step 8 of R591 on a cold power-up: the record is accepted or not, and its tables are loaded. -/
def State.loadRecord (s : State) (owned encrypt : Bool) (pkg : Nat) (tables : List (Nat × Nat × Word64)) : State :=
  let owned := owned && decide (s.sec.fuses.ownerKey ≠ [])
  let s := { s with sec := { s.sec with
    record := if owned then sha384 (s.readFlash 0x2000000 4096) else []
    mustEncrypt := owned && encrypt } }
  let s := ((s.setFld 38 .secBoot 28 28 (b2n owned)).setFld 39 .secBoot 28 28 (b2n owned)).loadRoutes.loadWeights
  let s := (List.range 40).foldl (fun s d => s.setFld d .pfabPkgid 11 0 (if owned then pkg % 4096 else 0)) s
  if owned then (s.loadTables tables).notePorts else s.alertHost 7

/-- NOC_CTL.LOCK of every router of the package (R222). -/
def nocLocks : Tab Word64 :=
  (List.range 32).flatMap (fun d => (List.range 64).map (fun c => (pkgAddr d (Reg.off ⟨.nocCtl, c, 0⟩), 0x80000000#64)))

/-- The LOCK bits (R222, R230, R335). -/
def State.lockTables (s : State) : State :=
  let s := (List.range 40).foldl (fun s d => s.setFld d .pfabCtl 31 31 1) s
  let s := { s with csr := Tab.merge (s.csr.length + 2048) s.csr nocLocks }
  mdIds.foldl (fun s d => s.setFld d .mdaCtl 31 31 1) s

/-- Step 6 of R591: the root PLLs of the dies that run are locked to PKG_REFCLK (R502). -/
def State.lockPlls (s : State) : State :=
  (List.range 40).foldl (fun s d => if (s.die d).heat.gated then s else s.setFld d .clkStat 31 30 3) s

/-- Every die link with a partner is trained, at its full width or at the one it has kept (R14, R15, R341). -/
def State.trainLinks (s : State) : State :=
  (List.range 40).foldl (fun s d => (List.range 6).foldl (fun s l =>
    match partner d l with
    | some (x, _) =>
      if x < d ∨ (s.die d).heat.tripped ∨ (s.die x).heat.tripped then s
      else
        let w := s.linkWidth d l
        s.setLinkState d l (if w = fullWidth d l then 2 else 3) w
    | none => s) s) s

/-- The ports get the record's LNK_PCFG; enabled ones start training at the width they have kept, and where the record requires
it, every port is encrypted (R360, R470, R590). -/
def State.trainPorts (s : State) : State :=
  let s := s.sec.portCfg.foldl (fun s x => s.setReg (36 + x.1 / 16) .lnkPcfg x.2 (x.1 % 16)) s
  [36, 37].foldl (fun s d => (List.range 16).foldl (fun s p =>
    let s := if s.sec.mustEncrypt then s.setFld d .lnkSec 63 63 1 p else s
    if s.sec.record = [] then (s.setFld d .lnkPcfg 31 31 0 p).setPortState d p 0 0
    else if s.fld d .lnkPcfg 31 31 p = 1 then s.portTrain d p (s.port d p).width
    else s) s) s

/-! ## The retirement record (R595, R596) -/

/-- Firmware retires the engines of the record; with no valid copy it retires none, and raises the alert. -/
def State.applyRetired (s : State) : State :=
  match s.retBest with
  | none => s.alertHost 7
  | some c =>
    ((s.retBits c) ++ s.plat.retire).foldl (fun s b =>
      if b < 278528 then { s with engines := Tab.upd {} s.engines b (fun e => { e with state := .retired }) } else s) s

/-- The bytes of a copy: the bitmap has the listed bits. -/
def State.retRecord (s : State) (seq : Nat) (ones : List Nat) : List Byte :=
  let map := (List.range 34816).map (fun i =>
    BitVec.ofNat 8 ((List.range 8).foldl (fun a j => a + 2 ^ j * b2n (ones.contains (8 * i + j))) 0))
  let body := toBytes 4 0x54455252 ++ toBytes 4 seq ++ toBytes 4 (s.reg 38 .cmdIdent) ++ toBytes 8 s.sec.fuses.serial ++
    List.replicate 44 0#8 ++ map
  body ++ toBytes 4 (crc32c body) ++ List.replicate 30652 0#8

/-- RETIREMENT_RECORD_WRITE: `ok` says whether the copy reads back. -/
def State.retWrite (s : State) (ok : Bool) : State :=
  if s.plat.retire = [] then s
  else
    let best := s.retBest
    let c := match s.retValid 0, s.retValid 1 with
      | false, _ => 0
      | true, false => 1
      | true, true => if s.retSeq 1 < s.retSeq 0 then 1 else 0
    let ones := (match best with | some k => s.retBits k | none => []) ++ s.plat.retire
    let seq := match best with | some k => s.retSeq k + 1 | none => 1
    let bytes := s.retRecord seq ones
    let s := s.eraseFlash (retCopy c) 65536
    if ok then
      let s := s.programFlash (retCopy c) bytes
      { s with plat := { s.plat with retire := [] } }
    else
      let (bs, s) := s.drawBytes 4361
      (s.programFlash (retCopy c) (bs.take (retSize + 4))).alertHost 7

def execRetirementRecordWrite (ok : Bool) (s : State) : Out := .next (s.retWrite ok)

/-! ## What the resets clear (R589, R590) -/

/-- A flash write under way is cut off (R554). -/
def State.cutFlash (s : State) : State := if s.plat.saving.isSome then s.calSaveDone false else s

/-- The secure state after a reset: fuses and the firmware release, and a new debug nonce (R471). -/
def Sec.afterReset (x : Sec) : Sec :=
  { fuses := x.fuses, release := x.release, nonce := x.nonce + 1 }

/-- What lies outside the dies or in the always-on island: supplies, reset inputs, flash, THERMTRIP_N, the BMC's answer. -/
def Plat.afterReset (p : Plat) : Plat :=
  { vin := p.vin, pwrok := p.pwrok, rstLow := p.rstLow, perst := p.perst, thermtrip := p.thermtrip, flash := p.flash, bmc := p.bmc }

/-- A cold reset: everything but fuses, flash, THM_TRIP and the block's inputs. -/
def State.coldReset (s : State) : State :=
  let s := s.cutFlash
  { State.reset with
    pending := s.pending
    hc := s.hc
    draws := s.draws
    csr := s.csr.filter (fun e => decide (e.1 = pkgAddr 38 (Reg.off ⟨.thmTrip, 0, 0⟩)))
    engines := Tab.mapAll {} (fun _ e => { fused := e.fused, state := if e.fused then .retired else .idle }) s.engines
    dies := Tab.mapAll {} (fun _ d => { heat := { tripped := d.heat.tripped, gated := true } }) s.dies
    plat := s.plat.afterReset
    sec := s.sec.afterReset
    host := { out := s.host.out } }

/-- Register families that a warm restart keeps, or that firmware reloads with the values they had (R590). -/
def keptByWarmRestart (f : RegFam) : Bool :=
  match f with
  | .pfabPkgid | .pfabRt | .pfabArbw | .pfabPsel | .lnkPkgrt | .lnkGmap | .lnkArbw
  | .nocArbw | .mdaRgn | .mdaPool | .mdaGold | .wgtHdr | .wgtDig | .cmdStage | .cmdSdig | .wagCfg | .thmTrip | .secDbgctl
  | .secBoot | .pwrBoot | .dbgRingc | .dbgRingu | .dbgRstatc | .dbgRstatu | .dbgRfreeze
  | .monCfg | .monLbase | .monCtl | .monCtxcfg | .moncCtl | .monMissed | .moncMissed | .dbgTdrop | .dbgTwptr => true
  | _ => false

/-- A warm restart's reset of all dies. -/
def State.warmReset (s : State) : State :=
  let s := s.cutFlash
  let used := s.slotList.filter (fun k => decide (s.sstate k ≠ 0))
  let wag := s.fld 38 .wagStat 31 0
  let t : State := (s.resetRegs (fun _ f => !keptByWarmRestart f))
  let t := (t.setReg 38 .wagStat wag).setFld 38 .secDbgctl 27 24 0
  let t := (List.range 32).foldl (fun t d => t.keepEpoch s d) t
  let t := if s.fld 38 .pwrBoot 59 56 = 0 then t else t.setFld 38 .pwrBoot 59 56 5
  let t := mdIds.foldl (fun t d => [0, 1].foldl (fun t p => t.setFld d .mdaPool 21 0 (t.fld d .mdaPool 53 32 p) p) t) t
  let retired (k : Nat) (e : Engine) : Bool := s.plat.retire.contains k || e.fused
  let k0 := s.die 38
  let t : State := { State.reset with
    pending := t.pending
    hc := t.hc
    draws := t.draws
    csr := t.csr
    mem := Tab.keep (fun a => decide (32 ≤ a / 2 ^ 46) && decide (a / 2 ^ 46 < 36)) t.mem
    memErr := Tab.keep (fun w => decide (32 ≤ 8 * w / 2 ^ 46) && decide (8 * w / 2 ^ 46 < 36)) t.memErr
    engines := Tab.mapAll {} (fun k e => { e.afterReset (retired k e) with lastFaultHc := none, again := false }) t.engines
    dies := Tab.mapAll {} (fun _ d => { cc := d.cc, heat := { tripped := d.heat.tripped, gated := d.heat.tripped, failed := d.heat.failed } }) t.dies
    rings := t.rings
    monitors := Tab.mapAll {} (fun _ m => m.afterReset) t.monitors
    shadows := t.shadows
    -- a degraded width is kept (R341, R590)
    links := Tab.mapAll {} (fun _ e => e.cleared) t.links
    ports := Tab.mapAll {} (fun _ e => e.cleared) t.ports
    golds := Tab.mapAll {} (fun _ g => { lost := g.lost }) t.golds
    sealed_ := t.sealed_
    sync := { t.sync with reqs := [] }
    plat := { t.plat.afterReset with retire := t.plat.retire }
    sec := { t.sec.afterReset with
      image := t.sec.image, record := t.sec.record, portCfg := t.sec.portCfg, mustEncrypt := t.sec.mustEncrypt, unlocking := t.sec.unlocking }
    host := { out := t.host.out } }
  let t := t.setDie 38 { t.die 38 with
    wagValid := k0.wagValid, wagV := k0.wagV, stepHc := k0.stepHc, stepCc := k0.stepCc, adj := k0.adj }
  used.foldl (fun t k => t.setFld 38 .srvSlot0 50 43 0x10 k) t

/-! ## The sequences (R591, R593, R594) -/

/-- Dies of a mask have failed self-test; a bit stays until a cold reset, as SRV_CTL.EN = 0 does (R594). -/
def State.selfTest (s : State) (stfail : Nat) : State :=
  let s := s.orReg 38 .pwrBoot (stfail % 2 ^ 40)
  (onesFrom 40 stfail 0).foldl (fun s d =>
    let s := if hasRas d then (s.setFld d .rasStat 63 61 7).setFld d .rasStat 60 56 0 else s
    (s.raiseAlert .rasAlert (2 ^ d)).eventBoth 3 0) s

/-- Steps 9 to 13: self-test, links, HBM, LOCK bits and ports, calibration; then READY. -/
def State.bringUp (s : State) (stfail : Nat) : State :=
  let s := ((s.selfTest stfail).trainLinks).lockTables
  let s := (match s.calBest with | some c => s.calApply c false | none => s).trainPorts
  let s := (List.range 40).foldl (fun s d => s.calTrigger d true) s
  let s := s.applyRetired.setFld 38 .pwrBoot 59 56 0xF
  let s := if (List.range 40).any (fun d => (s.die d).heat.tripped) then s.alertHost 3 else s
  { s with plat := { s.plat with bootHc := s.hc, ready := 3 - s.plat.perst % 4 } }

/-- The cold power-up after PWROK, from step 4 on: every die runs but one held after a trip. Without an accepted slot
nothing past step 6 is done (R460). -/
def State.coldBoot (s : State) (owned encrypt : Bool) (pkg : Nat) (tables : List (Nat × Nat × Word64)) (stfail : Nat) : State :=
  let s := (List.range 40).foldl (fun s d =>
    s.setDie d { s.die d with heat := { (s.die d).heat with gated := (s.die d).heat.tripped } }) s
  let (ok, s) := (s.lockPlls.setFld 38 .pwrBoot 63 61 0).bootRom
  if !ok then s.setFld 38 .pwrBoot 59 56 6
  else
    let s := (s.loadRecord owned encrypt pkg tables).bringUp stfail
    { s with sync := { s.sync with bringup := s.hc } }

/-- Whether the kept active set passes its check against WGT_DIGn (R393, R593). -/
def State.setIntact (s : State) (set : Nat) : Bool × State :=
  let (w0, _, b0, s) := s.hashSide 32 set
  let (w1, _, b1, s) := s.hashSide 33 set
  let (e0, _, b2, s) := s.hashSide 34 set
  let (e1, _, b3, s) := s.hashSide 35 set
  let dig := (List.range 6).flatMap (fun j => toBytes 8 (s.reg 38 .wgtDig set j))
  (!(b0 || b1 || b2 || b3) && decide (w0 = w1) && decide (e0 = e1) && decide (imageDigest (s.imageHeader set) w0 e0 = dig), s)

/-- The checks of R593, and the switch into the active set when both pass. A set that is not sealed is not checked, and
no switch is made (log entry 91). -/
def State.resume (s : State) : State :=
  let set := s.activeSet 32
  let isSealed := mdIds.all (fun d => s.setValid d set)
  let (good, s) := if isSealed then s.setIntact set else (false, s)
  let s := if isSealed && !good then (s.markSet set 0).alertHost 7 else s
  let staged := decide (s.stageState = 2)
  let v := s.reg 38 .cmdStage
  let (img, bad, s) := if staged then s.hbmRead 32 (bits v 29 0 * 65536) (bits v 61 30) else ([], false, s)
  let same := !bad && decide (sha384 img = s.stagedDigest)
  let s := if staged && !same then s.unstage.alertHost 7 else s
  if isSealed && good && staged && same then
    let s := (s.setSw 4).setFld 38 .wgtSwctl 27 27 set
    { s with switch := { startHc := s.hc } }.coresStopped
  else s

/-- The warm restart from step 6 on; `last` is the code of PWR_BOOT.LAST. The tables are those of the same record. -/
def State.warmBoot (s : State) (last stfail : Nat) : State :=
  let (ok, s) := (s.lockPlls.setFld 38 .pwrBoot 63 61 last).bootRom
  if !ok then s.setFld 38 .pwrBoot 59 56 6
  else
    let owned := decide (s.sec.record ≠ [])
    let s := (s.setFld 38 .secBoot 28 28 (b2n owned)).setFld 39 .secBoot 28 28 (b2n owned)
    let s := if owned then s else s.alertHost 7
    (s.bringUp stfail).resume

/-! ## Reset inputs (R591, R592, R597, R598) -/

/-- Both 12 V and PWROK are there, and RST_N is not: the power-up runs. -/
def State.powerUp (s : State) (owned encrypt : Bool) (pkg : Nat) (tables : List (Nat × Nat × Word64)) (stfail : Nat) : State :=
  if s.plat.vin ∧ s.plat.pwrok ∧ s.plat.rstLow = none then s.coldReset.coldBoot owned encrypt pkg tables stfail else s

/-- VIN_RISE: a PWROK that is already there is acted on now. The operands after `h` are what the flash's installation
record says and which dies fail self-test (log entry 92). -/
def State.vinRise (s : State) (h : Nat) (owned encrypt : Bool) (pkg : Nat) (tables : List (Nat × Nat × Word64)) (stfail : Nat) : State :=
  let s := s.toHc h
  if s.plat.vin then s else { s with plat := { s.plat with vin := true } }.powerUp owned encrypt pkg tables stfail

def execVinRise (h : Nat) (owned encrypt : Bool) (pkg : Nat) (tables : List (Nat × Nat × Word64)) (stfail : Nat) (s : State) : Out :=
  .next (s.vinRise h owned encrypt pkg tables stfail)

/-- VIN_LOSS: a cold reset that also clears THM_TRIP and every trip. -/
def State.vinLoss (s : State) (h : Nat) : State :=
  let s := ((s.toHc h).coldReset).setReg 38 .thmTrip 0
  let s := { s with dies := Tab.mapAll {} (fun _ d => { d with heat := { d.heat with tripped := false } }) s.dies }
  { s with plat := { s.plat with vin := false, thermtrip := false } }

def execVinLoss (h : Nat) (s : State) : Out := .next (s.vinLoss h)

def State.pwrokAssert (s : State) (h : Nat) (owned encrypt : Bool) (pkg : Nat) (tables : List (Nat × Nat × Word64)) (stfail : Nat) : State :=
  let s := s.toHc h
  if s.plat.pwrok then s else { s with plat := { s.plat with pwrok := true } }.powerUp owned encrypt pkg tables stfail

def execPwrokAssert (h : Nat) (owned encrypt : Bool) (pkg : Nat) (tables : List (Nat × Nat × Word64)) (stfail : Nat) (s : State) : Out :=
  .next (s.pwrokAssert h owned encrypt pkg tables stfail)

/-- PWROK_DEASSERT: every clock is gated and the rails go off, a cold reset; THERMTRIP_N is released (R524, R592). -/
def State.pwrokDeassert (s : State) (h : Nat) : State :=
  let s := s.toHc h
  if !s.plat.pwrok then s
  else
    let s := s.coldReset
    let s := (List.range 40).foldl (fun s d => s.setDie d { s.die d with heat := { (s.die d).heat with gated := true } }) s
    { s with plat := { s.plat with pwrok := false, thermtrip := false } }

def execPwrokDeassert (h : Nat) (s : State) : Out := .next (s.pwrokDeassert h)

/-- RST_N_ASSERT: the package is in warm reset. -/
def State.rstAssert (s : State) (h : Nat) : State :=
  let s := s.toHc h
  if s.plat.rstLow.isSome then s else { s.warmReset with plat := { s.warmReset.plat with rstLow := some h } }

def execRstNAssert (h : Nat) (s : State) : Out := .next (s.rstAssert h)

/-- RST_N_RELEASE: the warm restart runs; where no power-up has begun since the supplies came, that power-up. -/
def State.rstRelease (s : State) (h : Nat) (owned encrypt : Bool) (pkg : Nat) (tables : List (Nat × Nat × Word64)) (stfail : Nat) : State :=
  let s := s.toHc h
  if s.plat.rstLow.isNone then s
  else
    let s := { s with plat := { s.plat with rstLow := none } }
    if s.fld 38 .pwrBoot 59 56 = 0 then s.powerUp owned encrypt pkg tables stfail else s.warmBoot 1 stfail

def execRstNRelease (h : Nat) (owned encrypt : Bool) (pkg : Nat) (tables : List (Nat × Nat × Word64)) (stfail : Nat) (s : State) : Out :=
  .next (s.rstRelease h owned encrypt pkg tables stfail)

/-- RST_LONG: at hclk time `h` RST_N is still held; after 1 s RST_LONG, after 10 s ALERT_N. -/
def State.rstLong (s : State) (h : Nat) : State :=
  let s := s.toHc h
  match s.plat.rstLow with
  | none => s
  | some t =>
    let s := if t + 100000000 ≤ h then s.setFld 38 .pwrBoot 60 60 1 else s
    if t + 1000000000 ≤ h then s.alertHost 7 else s

def execRstLong (h : Nat) (s : State) : Out := .next (s.rstLong h)

/-- PWR_RESET_WARM: a write of PWR_RESET.WARM. -/
def execPwrResetWarm (who : Who) (s : State) : Out :=
  .next (s.mmioOf who 38 (Reg.off ⟨.pwrReset, 0, 0⟩) 4 (some (toBytes 4 0x80000000)))

/-- WARM_RESTART: the restart that is due by hclk time `h`. -/
def State.warmRestart (s : State) (h stfail : Nat) : State :=
  match s.warmDue with
  | none => s
  | some d =>
    if h < d then s
    else
      let why := s.plat.warmWhy
      (s.toHc h).warmReset.warmBoot why stfail

def execWarmRestart (h stfail : Nat) (s : State) : Out := .next (s.warmRestart h stfail)

/-! ## Host ports (R598, R599) -/

/-- PERST_ASSERT: the port and its functions are reset (R412, R422). -/
def State.perstAssert (s : State) (port : Nat) : State :=
  let on (v : Nat) : Nat := if bit v port then v else v + 2 ^ port
  let off (v : Nat) : Nat := if bit v port then v - 2 ^ port else v
  let s := s.resetFunctions port (fun f => decide (fnPort f = port))
  let s := { s with
    plat := { s.plat with perst := on s.plat.perst, ready := off s.plat.ready }
    host := { s.host with devCtl2 := Tab.keep (fun f => decide (fnPort f ≠ port)) s.host.devCtl2 } }
  s.setSpdm port {}

def execPerstAssert (port : Nat) (s : State) : Out := if port < 2 then .next (s.perstAssert port) else .fault .noSuchUnit

/-- PERST_RELEASE: the port trains, and its firmware answers once the package has passed step 11. -/
def State.perstRelease (s : State) (port : Nat) : State :=
  let p := s.plat
  let up := decide (s.fld 38 .pwrBoot 59 56 = 0xF)
  if !bit p.perst port then s
  else { s with plat := { p with
    perst := p.perst - 2 ^ port
    ready := if up && !bit p.ready port then p.ready + 2 ^ port else p.ready } }

def execPerstRelease (port : Nat) (s : State) : Out := if port < 2 then .next (s.perstRelease port) else .fault .noSuchUnit

/-! ## The BMC (R601) -/

/-- A register access of the BMC at a global address: its answer is held for the block read. Without a free tag a
request to another package waits. -/
def State.bmcAccess (s : State) (a len : Nat) (w : Option (List Byte)) : State :=
  let d := s.dieOf .bmc
  if addrPkg a = s.pkgId d then
    let t := s.access (s.accessor .bmc) .bmc (addrDie a) (addrOff a) len w
    if t.resp.status = waitStatus then { t with resp := s.resp }
    else { t with resp := s.resp, plat := { t.plat with bmc := toBytes 1 t.resp.status ++ (if w.isSome then [] else t.resp.data) } }
  else s.requestWait d 1 .bmc (accessMsg a len w)

def execBmcRead4 (addr : Word64) (s : State) : Out := .next (s.bmcAccess addr.toNat 4 none)
def execBmcRead8 (addr : Word64) (s : State) : Out := .next (s.bmcAccess addr.toNat 8 none)
def execBmcWrite4 (addr : Word64) (v : Word32) (s : State) : Out := .next (s.bmcAccess addr.toNat 4 (some (toBytes 4 v.toNat)))
def execBmcWrite8 (addr v : Word64) (s : State) : Out := .next (s.bmcAccess addr.toNat 8 (some (toBytes 8 v.toNat)))

/-- BMC_BLOCK_READ: the status byte and data of the previous command. -/
def execBmcBlockRead (s : State) : Out := .next (s.respond 0 s.plat.bmc)

end Sys2Proof.Machine
end

