-- ==== Sys2Proof/Machine/Scalar.lean ====
section
/-!
DEFINITION. The scalar, control and wait instructions of a core, and its run control (R118, R134 to R137, R153 to R160).
-/

namespace Sys2Proof.Machine

/-! ## Scalar arithmetic -/

/-- Shift right with the sign (SRA). -/
def sra32 (a n : Nat) : Nat := unsigned 32 (signed 32 a / ((2 ^ n : Nat) : Int))

/-- The result of a two-operand scalar instruction, by opcode (R134), modulo 2^32 when written. -/
def scalarAlu (op a b : Nat) : Nat :=
  match op with
  | 0x01 => a + b
  | 0x02 => a + (2 ^ 32 - b)
  | 0x03 => a &&& b
  | 0x04 => a ||| b
  | 0x05 => a ^^^ b
  | 0x06 => a <<< (b % 32)
  | 0x07 => a >>> (b % 32)
  | 0x08 => sra32 a (b % 32)
  | 0x09 => a * b
  | 0x0A => if signed 32 a ≤ signed 32 b then a else b
  | _ => if signed 32 a ≤ signed 32 b then b else a

/-- s[D] := s[A] op s[B]. -/
def scalarGo (cd k op : Nat) (w : IWord) (s : State) : State × Option Nat :=
  (s.onCore cd k (fun c => c.setS w.d (scalarAlu op (c.sreg w.a) (c.sreg w.b))), none)

def execAdd (cd k : Nat) (s : State) : Out := instrRow cd k 0x01 s (scalarGo cd k 0x01)
def execSub (cd k : Nat) (s : State) : Out := instrRow cd k 0x02 s (scalarGo cd k 0x02)
def execAnd (cd k : Nat) (s : State) : Out := instrRow cd k 0x03 s (scalarGo cd k 0x03)
def execOr (cd k : Nat) (s : State) : Out := instrRow cd k 0x04 s (scalarGo cd k 0x04)
def execXor (cd k : Nat) (s : State) : Out := instrRow cd k 0x05 s (scalarGo cd k 0x05)
def execShl (cd k : Nat) (s : State) : Out := instrRow cd k 0x06 s (scalarGo cd k 0x06)
def execShr (cd k : Nat) (s : State) : Out := instrRow cd k 0x07 s (scalarGo cd k 0x07)
def execSra (cd k : Nat) (s : State) : Out := instrRow cd k 0x08 s (scalarGo cd k 0x08)
def execMul (cd k : Nat) (s : State) : Out := instrRow cd k 0x09 s (scalarGo cd k 0x09)
def execMin (cd k : Nat) (s : State) : Out := instrRow cd k 0x0A s (scalarGo cd k 0x0A)
def execMax (cd k : Nat) (s : State) : Out := instrRow cd k 0x0B s (scalarGo cd k 0x0B)

/-- ADDI: s[D] := s[A] + X. -/
def addiGo (cd k : Nat) (w : IWord) (s : State) : State × Option Nat :=
  (s.onCore cd k (fun c => c.setS w.d (c.sreg w.a + w.x)), none)

def execAddi (cd k : Nat) (s : State) : Out := instrRow cd k 0x0C s (addiGo cd k)

/-- LI: s[D] := X. -/
def liGo (cd k : Nat) (w : IWord) (s : State) : State × Option Nat :=
  (s.onCore cd k (fun c => c.setS w.d w.x), none)

def execLi (cd k : Nat) (s : State) : Out := instrRow cd k 0x0D s (liGo cd k)

/-- The immediate of CMPI: X[31:3], signed. -/
def cmpiImm (x : Nat) : Nat := unsigned 32 (signed 29 (x / 8))

/-- All 256 bits of a predicate with one value (R124). -/
def predOf (b : Bool) : Nat := if b then allOnes else 0

/-- CMP and CMPI: p[D] := compare, by the codes of R135. -/
def cmpGo (cd k : Nat) (imm : Bool) (w : IWord) (s : State) : State × Option Nat :=
  (s.onCore cd k (fun c =>
    c.setP w.d (predOf (iCompare 32 (w.x % 8) (c.sreg w.a) (if imm then cmpiImm w.x else c.sreg w.b)))), none)

def execCmp (cd k : Nat) (s : State) : Out := instrRow cd k 0x0E s (cmpGo cd k false)
def execCmpi (cd k : Nat) (s : State) : Out := instrRow cd k 0x0F s (cmpGo cd k true)

/-- The predicate operation of PLOG (R134) on one bit of each operand. -/
def plog (f : Nat) (a b : Bool) : Bool :=
  match f with
  | 0 => a && b
  | 1 => a || b
  | 2 => a != b
  | _ => a && !b

/-- PLOG: all 256 bits take one value (R124), that of bit 0 of the operands (log entry 37). -/
def plogGo (cd k : Nat) (w : IWord) (s : State) : State × Option Nat :=
  (s.onCore cd k (fun c => c.setP w.d (predOf (plog (w.x % 4) (bit (c.preg w.a) 0) (bit (c.preg w.b) 0)))), none)

def execPlog (cd k : Nat) (s : State) : Out := instrRow cd k 0x10 s (plogGo cd k)

/-- SLD: s[D] := 4 bytes of the core buffer at s[A] + X. -/
def sldGo (cd k : Nat) (w : IWord) (s : State) : State × Option Nat :=
  let (bs, s) := s.coreRead cd k (addrAX (s.core cd k) w) 4
  (s.onCore cd k (fun c => c.setS w.d (ofBytes bs)), none)

def execSld (cd k : Nat) (s : State) : Out := instrRow cd k 0x11 s (sldGo cd k)

/-- SST: 4 bytes of the core buffer at s[A] + X := s[B]. -/
def sstGo (cd k : Nat) (w : IWord) (s : State) : State × Option Nat :=
  let c := s.core cd k
  (s.writeMem cd (coreBuf k + addrAX c w) (toBytes 4 (c.sreg w.b)), none)

def execSst (cd k : Nat) (s : State) : Out := instrRow cd k 0x12 s (sstGo cd k)

/-- RDW: both halves of the waggle copy, from one cycle (R133). -/
def rdwGo (cd k : Nat) (w : IWord) (s : State) : State × Option Nat :=
  let v := (s.die cd).wagV.toNat
  (s.onCore cd k (fun c => (c.setS w.d (v % 2 ^ 32)).setS (w.d + 1) (v / 2 ^ 32)), none)

def execRdw (cd k : Nat) (s : State) : Out := instrRow cd k 0x13 s (rdwGo cd k)

/-! ## Control -/

/-- BR: PC := X[11:0]; a branch guarded off falls through (R136). -/
def brGo (w : IWord) (s : State) : State × Option Nat := (s, some (w.x % 4096))

def execBr (cd k : Nat) (s : State) : Out := instrRow cd k 0x20 s brGo

/-- JAL: s[D] := PC + 1; PC := X[11:0]. `pc` is the index of the JAL. -/
def jalGo (cd k pc : Nat) (w : IWord) (s : State) : State × Option Nat :=
  (s.onCore cd k (fun c => c.setS w.d (pc + 1)), some (w.x % 4096))

def execJal (cd k : Nat) (s : State) : Out := instrRow cd k 0x21 s (jalGo cd k (s.core cd k).pc.toNat)

/-- JR: PC := s[A][11:0]; s[A][31:12] ≠ 0 has raised PC_RANGE at issue. -/
def jrGo (cd k : Nat) (w : IWord) (s : State) : State × Option Nat := (s, some ((s.core cd k).sreg w.a % 4096))

def execJr (cd k : Nat) (s : State) : Out := instrRow cd k 0x22 s (jrGo cd k)

/-- LOOP: s[A] := s[A] − 1; PC := X[11:0] when the new value is not zero. -/
def loopGo (cd k : Nat) (w : IWord) (s : State) : State × Option Nat :=
  let n := ((s.core cd k).sreg w.a + (2 ^ 32 - 1)) % 2 ^ 32
  (s.onCore cd k (fun c => c.setS w.a n), if n ≠ 0 then some (w.x % 4096) else none)

def execLoop (cd k : Nat) (s : State) : Out := instrRow cd k 0x23 s (loopGo cd k)

/-- HALT: as a stop at this instruction (R137). -/
def haltGo (cd k : Nat) (_ : IWord) (s : State) : State × Option Nat :=
  (s.onCore cd k (fun c => { c with stopping := true }), none)

def execHalt (cd k : Nat) (s : State) : Out := instrRow cd k 0x24 s (haltGo cd k)

/-- Any word that is illegal, whatever its opcode: the rows of the opcode map raise ILLEGAL for their own malformed
words; this row for every illegal word, 0x00 and 0xFF among them (R126). -/
def execIllegalInstruction (cd k : Nat) (s : State) : Out :=
  onCoreCmd cd k s (fun s =>
    let c := s.core cd k
    if c.run ≠ .active ∨ c.stopping ∨ !(s.nextWord cd k).illegal then s
    else s.raiseCore cd k [0x01] c.pc.toNat)

/-! ## Waits and counters -/

/-- WAITA: subtracts n when A[c] ≥ n (R155). -/
def waitaGo (cd k : Nat) (w : IWord) (s : State) : State × Option Nat :=
  (s.onCore cd k (fun c => { c with a := Tab.set 0#16 c.a w.a (BitVec.ofNat 16 (c.arr w.a - w.x % 65536)) }), none)

def execWaita (cd k : Nat) (s : State) : Out := instrRow cd k 0x78 s (waitaGo cd k)

/-- WAITC, WAITW and WAITL change nothing once they are met (R155, R158, R159). -/
def waitGo (_ : IWord) (s : State) : State × Option Nat := (s, none)

def execWaitc (cd k : Nat) (s : State) : Out := instrRow cd k 0x79 s waitGo
def execWaitw (cd k : Nat) (s : State) : Out := instrRow cd k 0x7A s waitGo
def execWaitl (cd k : Nat) (s : State) : Out := instrRow cd k 0x7C s waitGo

/-- After the CSET of a credit counter in replay: the value, less the sends that are still uncredited, plus the sends that
replay suppresses (R573). -/
def State.replayCredit (s : State) (cd k ctr : Nat) : State :=
  let d := s.die cd
  if Tab.get false d.ras.csets (32 * k + ctr) then
    let n := (d.ras.expect.filter (fun m => decide (m.src = 512 * (ctr + 1) + k + 1))).length
    let s := s.setDie cd { d with ras := { d.ras with csets := Tab.erase d.ras.csets (32 * k + ctr) } }
    s.onCore cd k (fun c =>
      { c with c := Tab.set 0#8 c.c ctr (BitVec.ofNat 8 (c.cred ctr + n - Tab.get 0 d.ras.owed (32 * k + ctr))) })
  else s

/-- CSET: A[c] := X[15:0] when X[16] = 1, else C[c] := X[7:0] (R156). -/
def csetGo (cd k : Nat) (w : IWord) (s : State) : State × Option Nat :=
  let s := s.onCore cd k (fun c =>
    if bit w.x 16 then { c with a := Tab.set 0#16 c.a w.a (BitVec.ofNat 16 w.x) }
    else { c with c := Tab.set 0#8 c.c w.a (BitVec.ofNat 8 w.x) })
  (if bit w.x 16 then s else s.replayCredit cd k w.a, none)

def execCset (cd k : Nat) (s : State) : Out := instrRow cd k 0x7B s (csetGo cd k)

/-- TMARK: no effect while the core is not traced (R160, R611); traced, it moves CUR (R613) and emits a record with its
own pair. -/
def tmarkGo (cd k pc : Nat) (w : IWord) (s : State) : State × Option Nat :=
  let layer := bits w.x 31 20
  let op := bits w.x 19 12
  let kind := bits w.x 11 8
  if !s.traced cd k 1 then (s, none)
  else
    let pay := (s.core cd k).sreg w.a
    let s := s.onCore cd k (fun c =>
      if kind = 0 then { c with curLayer := layer, curOp := op }
      else if kind = 1 ∧ c.curLayer = layer ∧ c.curOp = op then { c with curLayer := 0xFFF, curOp := 0xFF }
      else c)
    (s.traceAs cd k 1 kind pc 0 pay layer op, none)

def execTmark (cd k : Nat) (s : State) : Out := instrRow cd k 0x7E s (tmarkGo cd k (s.core cd k).pc.toNat)

/-! ## Run control -/

def execCoreRun (cd k : Nat) (s : State) : Out := onCoreCmd cd k s (fun s => s.coreRun cd k)
def execCoreStop (cd k : Nat) (s : State) : Out := onCoreCmd cd k s (fun s => s.coreStop cd k)
def execCoreStopped (cd k : Nat) (s : State) : Out := onCoreCmd cd k s (fun s => s.coreStopped cd k)
def execWaitTimeout (cd k h : Nat) (s : State) : Out := onCoreCmd cd k s (fun s => s.waitTimeout cd k h)
def execSendDone (cd k : Nat) (s : State) : Out := onCoreCmd cd k s (fun s => s.sendDone cd k)

end Sys2Proof.Machine
end

