-- ==== Sys2Proof/Machine/Dispatch.lean ====
section
/-!
DEFINITION. The one step of the block: each command of the opcode table calls its meaning.
-/

namespace Sys2Proof.Machine

def exec (i : Instr) (s : State) : Host.Outcome State Fault Refusal :=
  match i with
  | .registerWrite who die off width v => Sys2Proof.Machine.execRegisterWrite who die off width v s
  | .readClear who die off width => Sys2Proof.Machine.execReadClear who die off width s
  | .loadStart cd k t => Sys2Proof.Machine.execLoadStart cd k t s
  | .coreGate cd k => Sys2Proof.Machine.execCoreGate cd k s
  | .limRamp cd k => Sys2Proof.Machine.execLimRamp cd k s
  | .enginePass cd k p => Sys2Proof.Machine.execEnginePass cd k p s
  | .rowWrite cd k p index => Sys2Proof.Machine.execRowWrite cd k p index s
  | .scaleWrite cd k p index => Sys2Proof.Machine.execScaleWrite cd k p index s
  | .engWriteDone cd k p mismatches => Sys2Proof.Machine.execEngWriteDone cd k p mismatches s
  | .acceptanceTest cd k p t h => Sys2Proof.Machine.execAcceptanceTest cd k p t h s
  | .periodicTest cd k p t h => Sys2Proof.Machine.execPeriodicTest cd k p t h s
  | .testForce cd k t => Sys2Proof.Machine.execTestForce cd k t s
  | .testOverdue cd k p t h => Sys2Proof.Machine.execTestOverdue cd k p t h s
  | .testSlot1Check cd k p => Sys2Proof.Machine.execTestSlot1Check cd k p s
  | .testSlot2Check cd k p => Sys2Proof.Machine.execTestSlot2Check cd k p s
  | .scrubRowRead cd k p => Sys2Proof.Machine.execScrubRowRead cd k p s
  | .engMaplWrite cd k l en phys => Sys2Proof.Machine.execEngMaplWrite cd k l en phys s
  | .engRetire cd k p => Sys2Proof.Machine.execEngRetire cd k p s
  | .engCodeWrite cd k p code => Sys2Proof.Machine.execEngCodeWrite cd k p code s
  | .coreRun cd k => Sys2Proof.Machine.execCoreRun cd k s
  | .coreStop cd k => Sys2Proof.Machine.execCoreStop cd k s
  | .coreStopped cd k => Sys2Proof.Machine.execCoreStopped cd k s
  | .waitTimeout cd k h => Sys2Proof.Machine.execWaitTimeout cd k h s
  | .add cd k => Sys2Proof.Machine.execAdd cd k s
  | .sub cd k => Sys2Proof.Machine.execSub cd k s
  | .and cd k => Sys2Proof.Machine.execAnd cd k s
  | .or cd k => Sys2Proof.Machine.execOr cd k s
  | .xor cd k => Sys2Proof.Machine.execXor cd k s
  | .shl cd k => Sys2Proof.Machine.execShl cd k s
  | .shr cd k => Sys2Proof.Machine.execShr cd k s
  | .sra cd k => Sys2Proof.Machine.execSra cd k s
  | .mul cd k => Sys2Proof.Machine.execMul cd k s
  | .min cd k => Sys2Proof.Machine.execMin cd k s
  | .max cd k => Sys2Proof.Machine.execMax cd k s
  | .addi cd k => Sys2Proof.Machine.execAddi cd k s
  | .li cd k => Sys2Proof.Machine.execLi cd k s
  | .cmp cd k => Sys2Proof.Machine.execCmp cd k s
  | .cmpi cd k => Sys2Proof.Machine.execCmpi cd k s
  | .plog cd k => Sys2Proof.Machine.execPlog cd k s
  | .sld cd k => Sys2Proof.Machine.execSld cd k s
  | .sst cd k => Sys2Proof.Machine.execSst cd k s
  | .rdw cd k => Sys2Proof.Machine.execRdw cd k s
  | .br cd k => Sys2Proof.Machine.execBr cd k s
  | .jal cd k => Sys2Proof.Machine.execJal cd k s
  | .jr cd k => Sys2Proof.Machine.execJr cd k s
  | .loop cd k => Sys2Proof.Machine.execLoop cd k s
  | .halt cd k => Sys2Proof.Machine.execHalt cd k s
  | .eld cd k => Sys2Proof.Machine.execEld cd k s
  | .emax cd k => Sys2Proof.Machine.execEmax cd k s
  | .pqclr cd k => Sys2Proof.Machine.execPqclr cd k s
  | .vfma cd k => Sys2Proof.Machine.execVfma cd k s
  | .vadd cd k => Sys2Proof.Machine.execVadd cd k s
  | .vsub cd k => Sys2Proof.Machine.execVsub cd k s
  | .vmul cd k => Sys2Proof.Machine.execVmul cd k s
  | .vmin cd k => Sys2Proof.Machine.execVmin cd k s
  | .vmax cd k => Sys2Proof.Machine.execVmax cd k s
  | .viadd cd k => Sys2Proof.Machine.execViadd cd k s
  | .visub cd k => Sys2Proof.Machine.execVisub cd k s
  | .vand cd k => Sys2Proof.Machine.execVand cd k s
  | .vor cd k => Sys2Proof.Machine.execVor cd k s
  | .vxor cd k => Sys2Proof.Machine.execVxor cd k s
  | .vshl cd k => Sys2Proof.Machine.execVshl cd k s
  | .vshr cd k => Sys2Proof.Machine.execVshr cd k s
  | .vsra cd k => Sys2Proof.Machine.execVsra cd k s
  | .vcmp cd k => Sys2Proof.Machine.execVcmp cd k s
  | .vsel cd k => Sys2Proof.Machine.execVsel cd k s
  | .vdot4 cd k => Sys2Proof.Machine.execVdot4 cd k s
  | .vcvt cd k => Sys2Proof.Machine.execVcvt cd k s
  | .vswc cd k => Sys2Proof.Machine.execVswc cd k s
  | .vpart cd k => Sys2Proof.Machine.execVpart cd k s
  | .vquant cd k => Sys2Proof.Machine.execVquant cd k s
  | .vred cd k => Sys2Proof.Machine.execVred cd k s
  | .vtran cd k => Sys2Proof.Machine.execVtran cd k s
  | .vdiv cd k => Sys2Proof.Machine.execVdiv cd k s
  | .vsqrt cd k => Sys2Proof.Machine.execVsqrt cd k s
  | .vtopk cd k => Sys2Proof.Machine.execVtopk cd k s
  | .gate cd k => Sys2Proof.Machine.execGate cd k s
  | .vld cd k => Sys2Proof.Machine.execVld cd k s
  | .vst cd k => Sys2Proof.Machine.execVst cd k s
  | .dmov cd k => Sys2Proof.Machine.execDmov cd k s
  | .send cd k => Sys2Proof.Machine.execSend cd k s
  | .sendDone cd k => Sys2Proof.Machine.execSendDone cd k s
  | .mcast cd k => Sys2Proof.Machine.execMcast cd k s
  | .mcastx cd k => Sys2Proof.Machine.execMcastx cd k s
  | .grant cd k => Sys2Proof.Machine.execGrant cd k s
  | .waita cd k => Sys2Proof.Machine.execWaita cd k s
  | .waitc cd k => Sys2Proof.Machine.execWaitc cd k s
  | .waitw cd k => Sys2Proof.Machine.execWaitw cd k s
  | .cset cd k => Sys2Proof.Machine.execCset cd k s
  | .waitl cd k => Sys2Proof.Machine.execWaitl cd k s
  | .tmark cd k => Sys2Proof.Machine.execTmark cd k s
  | .multicastFlit cd c port take => Sys2Proof.Machine.execMulticastFlit cd c port take s
  | .creditFlit cd c port take => Sys2Proof.Machine.execCreditFlit cd c port take s
  | .reductionFlit cd c port err => Sys2Proof.Machine.execReductionFlit cd c port err s
  | .nocRgtWrite cd c tag w v => Sys2Proof.Machine.execNocRgtWrite cd c tag w v s
  | .nocMgtWrite cd c g v => Sys2Proof.Machine.execNocMgtWrite cd c g v s
  | .nocCrtWrite cd c r v => Sys2Proof.Machine.execNocCrtWrite cd c r v s
  | .nocDiscard cd c tag => Sys2Proof.Machine.execNocDiscard cd c tag s
  | .nocLock cd c => Sys2Proof.Machine.execNocLock cd c s
  | .attend md n units cc => Sys2Proof.Machine.execAttend md n units cc s
  | .commit md n => Sys2Proof.Machine.execCommit md n s
  | .rqOpen md n => Sys2Proof.Machine.execRqOpen md n s
  | .rqRelease md n => Sys2Proof.Machine.execRqRelease md n s
  | .gather md n => Sys2Proof.Machine.execGather md n s
  | .hbmScrubBurst md st => Sys2Proof.Machine.execHbmScrubBurst md st s
  | .mdaLock md => Sys2Proof.Machine.execMdaLock md s
  | .ltabWrite md L word ws => Sys2Proof.Machine.execLtabWrite md L word ws s
  | .submit fn q => Sys2Proof.Machine.execSubmit fn q s
  | .cp2Cancel fn q => Sys2Proof.Machine.execCp2Cancel fn q s
  | .slotCancel who slot => Sys2Proof.Machine.execSlotCancel who slot s
  | .draft fn q => Sys2Proof.Machine.execDraft fn q s
  | .draftWindowWrite who slot off bs => Sys2Proof.Machine.execDraftWindowWrite who slot off bs s
  | .cp2Ack fn q => Sys2Proof.Machine.execCp2Ack fn q s
  | .slotAck who slot n => Sys2Proof.Machine.execSlotAck who slot n s
  | .cmdAckdb fn v => Sys2Proof.Machine.execCmdAckdb fn v s
  | .completionRecord => Sys2Proof.Machine.execCompletionRecord s
  | .injection => Sys2Proof.Machine.execInjection s
  | .slotRelease slot => Sys2Proof.Machine.execSlotRelease slot s
  | .foragerDraw => Sys2Proof.Machine.execForagerDraw s
  | .tokenCommit => Sys2Proof.Machine.execTokenCommit s
  | .ttftDeadline slot h => Sys2Proof.Machine.execTtftDeadline slot h s
  | .costWrite which v => Sys2Proof.Machine.execCostWrite which v s
  | .quotaWrite ctx which v => Sys2Proof.Machine.execQuotaWrite ctx which v s
  | .housekeepingRound h stale rails hbm => Sys2Proof.Machine.execHousekeepingRound h stale rails hbm s
  | .qhWindowEnd => Sys2Proof.Machine.execQhWindowEnd s
  | .qhClr => Sys2Proof.Machine.execQhClr s
  | .rd die n => Sys2Proof.Machine.execRd die n s
  | .wr die n => Sys2Proof.Machine.execWr die n s
  | .cpl die n => Sys2Proof.Machine.execCpl die n s
  | .ack die n => Sys2Proof.Machine.execAck die n s
  | .mcv die n => Sys2Proof.Machine.execMcv die n s
  | .mcc die n => Sys2Proof.Machine.execMcc die n s
  | .dieLinkFlit die l noise => Sys2Proof.Machine.execDieLinkFlit die l noise s
  | .flitAck die l => Sys2Proof.Machine.execFlitAck die l s
  | .flitNak die l => Sys2Proof.Machine.execFlitNak die l s
  | .creditReturn die l vc h => Sys2Proof.Machine.execCreditReturn die l vc h s
  | .abort die l => Sys2Proof.Machine.execAbort die l s
  | .ackDue die l => Sys2Proof.Machine.execAckDue die l s
  | .linkTrainingDone die l low high => Sys2Proof.Machine.execLinkTrainingDone die l low high s
  | .ilpFlit die p h first align last flit ph steps ph3 => Sys2Proof.Machine.execIlpFlit die p h first align last flit ph steps ph3 s
  | .syncReq die p seq ph2 steps ph3 => Sys2Proof.Machine.execSyncReq die p seq ph2 steps ph3 s
  | .syncRsp die p seq locked master v2 ph2 v3 ph3 ph4 => Sys2Proof.Machine.execSyncRsp die p seq locked master v2 ph2 v3 ph3 ph4 s
  | .mac die p slot win tag => Sys2Proof.Machine.execMac die p slot win tag s
  | .macResend die p => Sys2Proof.Machine.execMacResend die p s
  | .portLaneLoss die p => Sys2Proof.Machine.execPortLaneLoss die p s
  | .portTrainingDone die p peer peerPort nonce => Sys2Proof.Machine.execPortTrainingDone die p peer peerPort nonce s
  | .lnkPcfgEn die p en => Sys2Proof.Machine.execLnkPcfgEn die p en s
  | .requestTimeout die unit tag h => Sys2Proof.Machine.execRequestTimeout die unit tag h s
  | .quarantineExpiry die unit tag h => Sys2Proof.Machine.execQuarantineExpiry die unit tag h s
  | .linkStall die l h => Sys2Proof.Machine.execLinkStall die l h s
  | .pfabLock die => Sys2Proof.Machine.execPfabLock die s
  | .goldRecordWrite md set r b bs => Sys2Proof.Machine.execGoldRecordWrite md set r b bs s
  | .loaderWrite n => Sys2Proof.Machine.execLoaderWrite n s
  | .loaderReissue n => Sys2Proof.Machine.execLoaderReissue n s
  | .goldCopy md v => Sys2Proof.Machine.execGoldCopy md v s
  | .goldClear md v => Sys2Proof.Machine.execGoldClear md v s
  | .goldClearDone md => Sys2Proof.Machine.execGoldClearDone md s
  | .sealSet set => Sys2Proof.Machine.execSeal set s
  | .sealDone => Sys2Proof.Machine.execSealDone s
  | .wgtHdrWrite set n v => Sys2Proof.Machine.execWgtHdrWrite set n v s
  | .switchArm => Sys2Proof.Machine.execSwitchArm s
  | .switchDrained => Sys2Proof.Machine.execSwitchDrained s
  | .switchGo => Sys2Proof.Machine.execSwitchGo s
  | .switchAbort => Sys2Proof.Machine.execSwitchAbort s
  | .switchStart => Sys2Proof.Machine.execSwitchStart s
  | .switchCoresStopped => Sys2Proof.Machine.execSwitchCoresStopped s
  | .switchFillDone => Sys2Proof.Machine.execSwitchFillDone s
  | .goldRepair md => Sys2Proof.Machine.execGoldRepair md s
  | .goldRehashDone side => Sys2Proof.Machine.execGoldRehashDone side s
  | .sqFetch fn q => Sys2Proof.Machine.execSqFetch fn q s
  | .cmdSqtdb fn q v => Sys2Proof.Machine.execCmdSqtdb fn q v s
  | .cmdCqhdb fn q v => Sys2Proof.Machine.execCmdCqhdb fn q v s
  | .queueEnable fn q v => Sys2Proof.Machine.execQueueEnable fn q v s
  | .queueDisable fn q v => Sys2Proof.Machine.execQueueDisable fn q v s
  | .regRead fn q => Sys2Proof.Machine.execRegRead fn q s
  | .regWrite fn q => Sys2Proof.Machine.execRegWrite fn q s
  | .memWrite fn q => Sys2Proof.Machine.execMemWrite fn q s
  | .memRead fn q => Sys2Proof.Machine.execMemRead fn q s
  | .progStage fn q => Sys2Proof.Machine.execProgStage fn q s
  | .stageHashDone => Sys2Proof.Machine.execStageHashDone s
  | .progUnstage fn q => Sys2Proof.Machine.execProgUnstage fn q s
  | .eventWait fn q => Sys2Proof.Machine.execEventWait fn q s
  | .nop fn q => Sys2Proof.Machine.execNop fn q s
  | .gen fn q => Sys2Proof.Machine.execGen fn q s
  | .cp1Abort fn q => Sys2Proof.Machine.execCp1Abort fn q s
  | .rdreg fn q => Sys2Proof.Machine.execRdreg fn q s
  | .wrreg fn q => Sys2Proof.Machine.execWrreg fn q s
  | .cp1Nop fn q => Sys2Proof.Machine.execCp1Nop fn q s
  | .semTake n whos => Sys2Proof.Machine.execSemTake n whos s
  | .semGive who n => Sys2Proof.Machine.execSemGive who n s
  | .semForce who n => Sys2Proof.Machine.execSemForce who n s
  | .apertureAccess port n a tag len w ide => Sys2Proof.Machine.execApertureAccess port n a tag len w ide s
  | .hostReadCompletion port tag ok bs => Sys2Proof.Machine.execHostReadCompletion port tag ok bs s
  | .hostReadTimeout port tag h => Sys2Proof.Machine.execHostReadTimeout port tag h s
  | .hostTagRelease port tag h => Sys2Proof.Machine.execHostTagRelease port tag h s
  | .functionLevelReset fn => Sys2Proof.Machine.execFunctionLevelReset fn s
  | .perstAssert port => Sys2Proof.Machine.execPerstAssert port s
  | .perstRelease port => Sys2Proof.Machine.execPerstRelease port s
  | .getVersion port => Sys2Proof.Machine.execGetVersion port s
  | .getCapabilities port => Sys2Proof.Machine.execGetCapabilities port s
  | .negotiateAlgorithms port => Sys2Proof.Machine.execNegotiateAlgorithms port s
  | .getDigests port => Sys2Proof.Machine.execGetDigests port s
  | .getCertificate port slot off n => Sys2Proof.Machine.execGetCertificate port slot off n s
  | .challenge port slot => Sys2Proof.Machine.execChallenge port slot s
  | .getMeasurements port index => Sys2Proof.Machine.execGetMeasurements port index s
  | .keyExchange port => Sys2Proof.Machine.execKeyExchange port s
  | .finish port id verified => Sys2Proof.Machine.execFinish port id verified s
  | .heartbeat port id => Sys2Proof.Machine.execHeartbeat port id s
  | .keyUpdate port id => Sys2Proof.Machine.execKeyUpdate port id s
  | .endSession port id => Sys2Proof.Machine.execEndSession port id s
  | .vendorDefinedRequest port id => Sys2Proof.Machine.execVendorDefinedRequest port id s
  | .setLinkKey port id slot key => Sys2Proof.Machine.execSetLinkKey port id slot key s
  | .keyChange die p => Sys2Proof.Machine.execKeyChange die p s
  | .svnCommit => Sys2Proof.Machine.execSvnCommit s
  | .debugUnlock => Sys2Proof.Machine.execDebugUnlock s
  | .unlockDone => Sys2Proof.Machine.execUnlockDone s
  | .pllLoss die => Sys2Proof.Machine.execPllLoss die s
  | .refLoss => Sys2Proof.Machine.execRefLoss s
  | .waggleStep die cc => Sys2Proof.Machine.execWaggleStep die cc s
  | .waggleStart die lead => Sys2Proof.Machine.execWaggleStart die lead s
  | .waggleAdjust die => Sys2Proof.Machine.execWaggleAdjust die s
  | .syncReqDue alt ph => Sys2Proof.Machine.execSyncReqDue alt ph s
  | .masterTimeout h => Sys2Proof.Machine.execMasterTimeout h s
  | .syncHoldover => Sys2Proof.Machine.execSyncHoldover s
  | .wagCapture die => Sys2Proof.Machine.execWagCapture die s
  | .pkgSyncEdge h high => Sys2Proof.Machine.execPkgSyncEdge h high s
  | .governorStep die h w f pin => Sys2Proof.Machine.execGovernorStep die h w f pin s
  | .thermalSample die h ts => Sys2Proof.Machine.execThermalSample die h ts s
  | .throttleInChange on h => Sys2Proof.Machine.execThrottleInChange on h s
  | .thermalTrip dies => Sys2Proof.Machine.execThermalTrip dies s
  | .inputUndervoltage => Sys2Proof.Machine.execInputUndervoltage s
  | .inputOvervoltage => Sys2Proof.Machine.execInputOvervoltage s
  | .adcSlot kd conv h raw => Sys2Proof.Machine.execAdcSlot kd conv h raw s
  | .urgentConversion kd v => Sys2Proof.Machine.execUrgentConversion kd v s
  | .calGo all die => Sys2Proof.Machine.execCalGo all die s
  | .trimRampStep die item => Sys2Proof.Machine.execTrimRampStep die item s
  | .calSave => Sys2Proof.Machine.execCalSave s
  | .calSaveDone ok => Sys2Proof.Machine.execCalSaveDone ok s
  | .calRestore => Sys2Proof.Machine.execCalRestore s
  | .faultRecovery die => Sys2Proof.Machine.execFaultRecovery die s
  | .refill cd md v => Sys2Proof.Machine.execRefill cd md v s
  | .refillRun md => Sys2Proof.Machine.execRefillRun md s
  | .stepRelease die slot rpkg rdie => Sys2Proof.Machine.execStepRelease die slot rpkg rdie s
  | .resendRequest die rpkg rdie group skip => Sys2Proof.Machine.execResendRequest die rpkg rdie group skip s
  | .dieReset die => Sys2Proof.Machine.execDieReset die s
  | .kdHeartbeat kd sent => Sys2Proof.Machine.execKdHeartbeat kd sent s
  | .controlDieTakeover kd => Sys2Proof.Machine.execControlDieTakeover kd s
  | .rasForce die => Sys2Proof.Machine.execRasForce die s
  | .vinRise h owned encrypt pkg tables stfail => Sys2Proof.Machine.execVinRise h owned encrypt pkg tables stfail s
  | .vinLoss h => Sys2Proof.Machine.execVinLoss h s
  | .pwrokAssert h owned encrypt pkg tables stfail => Sys2Proof.Machine.execPwrokAssert h owned encrypt pkg tables stfail s
  | .pwrokDeassert h => Sys2Proof.Machine.execPwrokDeassert h s
  | .rstNAssert h => Sys2Proof.Machine.execRstNAssert h s
  | .rstNRelease h owned encrypt pkg tables stfail => Sys2Proof.Machine.execRstNRelease h owned encrypt pkg tables stfail s
  | .rstLong h => Sys2Proof.Machine.execRstLong h s
  | .pwrResetWarm who => Sys2Proof.Machine.execPwrResetWarm who s
  | .warmRestart h stfail => Sys2Proof.Machine.execWarmRestart h stfail s
  | .retirementRecordWrite ok => Sys2Proof.Machine.execRetirementRecordWrite ok s
  | .pinSbcfgWrite kd n v => Sys2Proof.Machine.execPinSbcfgWrite kd n v s
  | .sidebandInput kd n h level => Sys2Proof.Machine.execSidebandInput kd n h level s
  | .tachEdge kd n h => Sys2Proof.Machine.execTachEdge kd n h s
  | .pwmToggle kd n h => Sys2Proof.Machine.execPwmToggle kd n h s
  | .ledToggle kd n h => Sys2Proof.Machine.execLedToggle kd n h s
  | .bmcRead4 addr => Sys2Proof.Machine.execBmcRead4 addr s
  | .bmcRead8 addr => Sys2Proof.Machine.execBmcRead8 addr s
  | .bmcWrite4 addr v => Sys2Proof.Machine.execBmcWrite4 addr v s
  | .bmcWrite8 addr v => Sys2Proof.Machine.execBmcWrite8 addr v s
  | .bmcBlockRead => Sys2Proof.Machine.execBmcBlockRead s
  | .traceWindowStart cd => Sys2Proof.Machine.execTraceWindowStart cd s
  | .traceWindowStop cd => Sys2Proof.Machine.execTraceWindowStop cd s
  | .pcSample cd k cc busy => Sys2Proof.Machine.execPcSample cd k cc busy s
  | .traceWrite cd => Sys2Proof.Machine.execTraceWrite cd s
  | .traceFlush cd h => Sys2Proof.Machine.execTraceFlush cd h s
  | .freeze die core u => Sys2Proof.Machine.execFreeze die core u s
  | .thaw die core u => Sys2Proof.Machine.execThaw die core u s
  | .ringFreezeStep die => Sys2Proof.Machine.execRingFreezeStep die s
  | .monSnap ctx die m => Sys2Proof.Machine.execMonSnap ctx die m s
  | .monClr ctx die m => Sys2Proof.Machine.execMonClr ctx die m s
  | .illegalInstruction cd k => Sys2Proof.Machine.execIllegalInstruction cd k s
  | .injectionFinish slot => Sys2Proof.Machine.execInjectionFinish slot s
  | .vrFault => Sys2Proof.Machine.execVrFault s
  | .forwardedClockLoss die l => Sys2Proof.Machine.execForwardedClockLoss die l s
  | .configurationRequest fn tag off w => Sys2Proof.Machine.execConfigurationRequest fn tag off w s

end Sys2Proof.Machine
end

