-- ==== Sys2Proof/WellFormed.lean ====
section
/-!
DEFINITION. Which commands are well formed: the die, core, engine, router, port, queue or slot that an operand names is
one that the package has, and an operand that the spec gives a range lies in it.
-/

namespace Sys2Proof

namespace Unit_

/-- `n` lies below `b`. -/
def lt (n b : Nat) : Bool := decide (n < b)

/-- One of the 512 cores of one of the 32 compute dies (R10, R94). -/
def coreOf (cd k : Nat) : Bool := lt cd 32 && lt k 512

/-- One of a core's 17 engines (R16). -/
def engine (cd k p : Nat) : Bool := coreOf cd k && lt p 17

/-- One of a compute die's 64 routers (R191). -/
def router (cd c : Nat) : Bool := lt cd 32 && lt c 64

/-- A memory die (R10). -/
def memory (md : Nat) : Bool := decide (32 ≤ md) && lt md 36

/-- A control die (R10). -/
def control (kd : Nat) : Bool := decide (kd = 38) || decide (kd = 39)

/-- A link die (R10). -/
def linkDie (ld : Nat) : Bool := decide (ld = 36) || decide (ld = 37)

/-- One of a link die's 16 ports (R10). -/
def port (ld p : Nat) : Bool := linkDie ld && lt p 16

/-- One of a die's six link indices (R353). -/
def link (die l : Nat) : Bool := lt die 40 && lt l 6

/-- A die link, or port `l` − 16 of a link die. -/
def linkOrPort (die l : Nat) : Bool := lt die 40 && (lt l 6 || (decide (16 ≤ l) && lt l 32 && linkDie die))

/-- A sideband pin of a control die (R602). -/
def pin (kd i : Nat) : Bool := control kd && lt i 8

/-- A function of a host port: its physical function or one of its virtual functions (R410, R411). -/
def function (fn : Nat) : Bool := lt (fn / 1024) 2 && lt (fn % 1024) 513

/-- A queue pair: 64 of a physical function, 4 of a virtual function (chapter 13, Queues, doorbells and completions). -/
def pair (fn q : Nat) : Bool := function fn && lt q (if fn % 1024 = 0 then 64 else 4)

/-- A die with a reliability engine that recovers: compute, memory and control dies (R583). -/
def recovers (die : Nat) : Bool := lt die 36 || control die

/-- An event ring: of a core, or of a numbered unit of a die (R618). -/
def ring (die : Nat) (ofCore : Bool) (u : Nat) : Bool :=
  if ofCore then coreOf die u
  else lt die 40 && lt u (if die < 32 then 71 else if die < 36 then 24 else if die < 38 then 21 else 9)

/-- A monitor: one of a die's 16, or one of the two of each serving context (R623, R627). -/
def monitor (ctx : Bool) (die m : Nat) : Bool :=
  if ctx then decide (die = 38) && lt m 2048 else recovers die && lt m 16

/-- A calibrated rail of a die (R551, R565). -/
def regulator (die item : Nat) : Bool :=
  lt die 40 && (decide (item = 1) || decide (item = 3) || (decide (item = 2) && lt die 32))

end Unit_

open Unit_ in
/-- Whether every operand of a command names something that the package has. -/
def Instr.wellFormed : Instr → Bool
  | .registerWrite _ _ _ _ _ => true
  | .readClear _ _ _ _ => true
  | .loadStart cd k _ => coreOf cd k
  | .coreGate cd k => coreOf cd k
  | .limRamp cd k => coreOf cd k
  | .enginePass cd k p => engine cd k p
  | .rowWrite cd k p _ => engine cd k p
  | .scaleWrite cd k p _ => engine cd k p
  | .engWriteDone cd k p _ => engine cd k p
  | .acceptanceTest cd k p _ _ => engine cd k p
  | .periodicTest cd k p _ _ => engine cd k p
  | .testForce cd k _ => coreOf cd k
  | .testOverdue cd k p _ _ => engine cd k p
  | .testSlot1Check cd k p => engine cd k p
  | .testSlot2Check cd k p => engine cd k p
  | .scrubRowRead cd k p => engine cd k p
  | .engMaplWrite cd k l _ _ => coreOf cd k && lt l 16
  | .engRetire cd k p => engine cd k p
  | .engCodeWrite cd k p _ => engine cd k p
  | .coreRun cd k => coreOf cd k
  | .coreStop cd k => coreOf cd k
  | .coreStopped cd k => coreOf cd k
  | .waitTimeout cd k _ => coreOf cd k
  | .add cd k => coreOf cd k
  | .sub cd k => coreOf cd k
  | .and cd k => coreOf cd k
  | .or cd k => coreOf cd k
  | .xor cd k => coreOf cd k
  | .shl cd k => coreOf cd k
  | .shr cd k => coreOf cd k
  | .sra cd k => coreOf cd k
  | .mul cd k => coreOf cd k
  | .min cd k => coreOf cd k
  | .max cd k => coreOf cd k
  | .addi cd k => coreOf cd k
  | .li cd k => coreOf cd k
  | .cmp cd k => coreOf cd k
  | .cmpi cd k => coreOf cd k
  | .plog cd k => coreOf cd k
  | .sld cd k => coreOf cd k
  | .sst cd k => coreOf cd k
  | .rdw cd k => coreOf cd k
  | .br cd k => coreOf cd k
  | .jal cd k => coreOf cd k
  | .jr cd k => coreOf cd k
  | .loop cd k => coreOf cd k
  | .halt cd k => coreOf cd k
  | .eld cd k => coreOf cd k
  | .emax cd k => coreOf cd k
  | .pqclr cd k => coreOf cd k
  | .vfma cd k => coreOf cd k
  | .vadd cd k => coreOf cd k
  | .vsub cd k => coreOf cd k
  | .vmul cd k => coreOf cd k
  | .vmin cd k => coreOf cd k
  | .vmax cd k => coreOf cd k
  | .viadd cd k => coreOf cd k
  | .visub cd k => coreOf cd k
  | .vand cd k => coreOf cd k
  | .vor cd k => coreOf cd k
  | .vxor cd k => coreOf cd k
  | .vshl cd k => coreOf cd k
  | .vshr cd k => coreOf cd k
  | .vsra cd k => coreOf cd k
  | .vcmp cd k => coreOf cd k
  | .vsel cd k => coreOf cd k
  | .vdot4 cd k => coreOf cd k
  | .vcvt cd k => coreOf cd k
  | .vswc cd k => coreOf cd k
  | .vpart cd k => coreOf cd k
  | .vquant cd k => coreOf cd k
  | .vred cd k => coreOf cd k
  | .vtran cd k => coreOf cd k
  | .vdiv cd k => coreOf cd k
  | .vsqrt cd k => coreOf cd k
  | .vtopk cd k => coreOf cd k
  | .gate cd k => coreOf cd k
  | .vld cd k => coreOf cd k
  | .vst cd k => coreOf cd k
  | .dmov cd k => coreOf cd k
  | .send cd k => coreOf cd k
  | .sendDone cd k => coreOf cd k
  | .mcast cd k => coreOf cd k
  | .mcastx cd k => coreOf cd k
  | .grant cd k => coreOf cd k
  | .waita cd k => coreOf cd k
  | .waitc cd k => coreOf cd k
  | .waitw cd k => coreOf cd k
  | .cset cd k => coreOf cd k
  | .waitl cd k => coreOf cd k
  | .tmark cd k => coreOf cd k
  | .multicastFlit cd c port take => router cd c && lt port 13 && lt take.outs 64
  | .creditFlit cd c port take => router cd c && lt port 13 && lt take.outs 64
  | .reductionFlit cd c port _ => router cd c && lt port 13
  | .nocRgtWrite cd c tag w _ => router cd c && lt tag 1024 && lt w 2
  | .nocMgtWrite cd c g _ => router cd c && lt g 1024
  | .nocCrtWrite cd c r _ => router cd c && lt r 256
  | .nocDiscard cd c tag => router cd c && lt tag 1024
  | .nocLock cd c => router cd c
  | .attend md _ _ _ => memory md
  | .commit md _ => memory md
  | .rqOpen md _ => memory md
  | .rqRelease md _ => memory md
  | .gather md _ => memory md
  | .hbmScrubBurst md st => memory md && lt st 2
  | .mdaLock md => memory md
  | .ltabWrite md L _ _ => memory md && lt L 4096
  | .submit fn q => pair fn q
  | .cp2Cancel fn q => pair fn q
  | .slotCancel _ slot => lt slot 16384
  | .draft fn q => pair fn q
  | .draftWindowWrite _ slot off bs => lt slot 16384 && decide (off + bs.length ≤ 256)
  | .cp2Ack fn q => pair fn q
  | .slotAck _ slot n => lt slot 16384 && lt n 8192
  | .cmdAckdb fn _ => pair fn 0
  | .completionRecord => true
  | .injection => true
  | .slotRelease slot => lt slot 16384
  | .foragerDraw => true
  | .tokenCommit => true
  | .ttftDeadline slot _ => lt slot 16384
  | .costWrite which _ => lt which 2
  | .quotaWrite ctx which _ => lt ctx 1024 && lt which 2
  | .housekeepingRound _ _ rails hbm => decide (rails.length = 120) && decide (hbm.length = 8)
  | .qhWindowEnd => true
  | .qhClr => true
  | .rd die _ => lt die 40
  | .wr die _ => lt die 40
  | .cpl die _ => lt die 40
  | .ack die _ => lt die 40
  | .mcv die _ => lt die 40
  | .mcc die _ => lt die 40
  | .dieLinkFlit die l _ => link die l
  | .flitAck die l => link die l
  | .flitNak die l => link die l
  | .creditReturn die l _ _ => link die l
  | .abort die l => link die l
  | .ackDue die l => link die l
  | .linkTrainingDone die l _ _ => link die l
  | .ilpFlit die p _ first align last _ ph steps ph3 =>
    port die p && [first, align, last].all (fun e => e.all (fun i => lt i 544)) && lt ph 808 && lt ph3 808 && lt steps 5
  | .syncReq die p seq ph2 steps ph3 => port die p && lt seq 256 && lt ph2 808 && lt ph3 808 && lt steps 5
  | .syncRsp die p _ _ _ _ _ _ _ _ => port die p
  | .mac die p _ _ _ => port die p
  | .macResend die p => port die p
  | .portLaneLoss die p => port die p
  | .portTrainingDone die p _ _ _ => port die p
  | .lnkPcfgEn die p _ => port die p
  | .requestTimeout die _ _ _ => lt die 40
  | .quarantineExpiry die _ _ _ => lt die 40
  | .linkStall die l _ => linkOrPort die l
  | .pfabLock die => lt die 40
  | .goldRecordWrite md set r b bs => memory md && lt set 2 && lt r 131072 && decide (b + bs.length ≤ 0x4000)
  | .loaderWrite _ => true
  | .loaderReissue _ => true
  | .goldCopy md _ => memory md
  | .goldClear md _ => memory md.of
  | .goldClearDone md => memory md
  | .sealSet set => lt set.of 2
  | .sealDone => true
  | .wgtHdrWrite set i _ => lt set 2 && lt i 32
  | .switchArm => true
  | .switchDrained => true
  | .switchGo => true
  | .switchAbort => true
  | .switchStart => true
  | .switchCoresStopped => true
  | .switchFillDone => true
  | .goldRepair md => memory md.of
  | .goldRehashDone side => lt side 2
  | .sqFetch fn q => pair fn q
  | .cmdSqtdb fn q _ => pair fn q
  | .cmdCqhdb fn q _ => pair fn q
  | .queueEnable fn q _ => pair fn q
  | .queueDisable fn q _ => pair fn q
  | .regRead fn q => pair fn q
  | .regWrite fn q => pair fn q
  | .memWrite fn q => pair fn q
  | .memRead fn q => pair fn q
  | .progStage fn q => pair fn q
  | .stageHashDone => true
  | .progUnstage fn q => pair fn q
  | .eventWait fn q => pair fn q
  | .nop fn q => pair fn q
  | .gen fn q => pair fn q
  | .cp1Abort fn q => pair fn q
  | .rdreg fn q => pair fn q
  | .wrreg fn q => pair fn q
  | .cp1Nop fn q => pair fn q
  | .semTake n _ => lt n 256
  | .semGive _ n => lt n 256
  | .semForce _ n => lt n 256
  | .apertureAccess port n a _ len w _ => lt port 2 && lt n 16 && lt a (2 ^ 26) && w.all (fun bs => decide (bs.length = len))
  | .hostReadCompletion port _ _ _ => lt port 2
  | .hostReadTimeout port _ _ => lt port 2
  | .hostTagRelease port _ _ => lt port 2
  | .functionLevelReset fn => function fn
  | .perstAssert port => lt port 2
  | .perstRelease port => lt port 2
  | .getVersion port => lt port 2
  | .getCapabilities port => lt port 2
  | .negotiateAlgorithms port => lt port 2
  | .getDigests port => lt port 2
  | .getCertificate port _ _ _ => lt port 2
  | .challenge port _ => lt port 2
  | .getMeasurements port _ => lt port 2
  | .keyExchange port => lt port 2
  | .finish port _ _ => lt port 2
  | .heartbeat port _ => lt port 2
  | .keyUpdate port _ => lt port 2
  | .endSession port _ => lt port 2
  | .vendorDefinedRequest port _ => lt port 2
  | .setLinkKey port _ _ _ => lt port 2
  | .keyChange die p => port die p
  | .svnCommit => true
  | .debugUnlock => true
  | .unlockDone => true
  | .pllLoss die => lt die 40
  | .refLoss => true
  | .waggleStep die _ => lt die 40
  | .waggleStart die _ => lt die 40
  | .waggleAdjust die => lt die 40
  | .syncReqDue _ ph => lt ph 808
  | .masterTimeout _ => true
  | .syncHoldover => true
  | .wagCapture die => lt die 40
  | .pkgSyncEdge _ _ => true
  | .governorStep die _ _ _ _ => lt die 40
  | .thermalSample die _ ts => lt die 40 && decide (ts.length = 8)
  | .throttleInChange _ _ => true
  | .thermalTrip _ => true
  | .inputUndervoltage => true
  | .inputOvervoltage => true
  | .adcSlot kd conv _ raw => control kd && lt conv 2 && decide (-2048 ≤ raw) && decide (raw ≤ 4095)
  | .urgentConversion kd _ => control kd
  | .calGo _ _ => true
  | .trimRampStep die item => regulator die item
  | .calSave => true
  | .calSaveDone _ => true
  | .calRestore => true
  | .faultRecovery die => recovers die
  | .refill cd md _ => lt cd 32 && memory md
  | .refillRun md => memory md
  | .stepRelease die slot _ _ => recovers die && lt slot 16384
  | .resendRequest die _ _ _ _ => recovers die
  | .dieReset die => lt die 36
  | .kdHeartbeat kd _ => control kd
  | .controlDieTakeover kd => control kd
  | .rasForce die => recovers die
  | .vinRise _ _ _ _ _ _ => true
  | .vinLoss _ => true
  | .pwrokAssert _ _ _ _ _ _ => true
  | .pwrokDeassert _ => true
  | .rstNAssert _ => true
  | .rstNRelease _ _ _ _ _ _ => true
  | .rstLong _ => true
  | .pwrResetWarm _ => true
  | .warmRestart _ _ => true
  | .retirementRecordWrite _ => true
  | .pinSbcfgWrite kd i _ => pin kd i
  | .sidebandInput kd i _ _ => pin kd i
  | .tachEdge kd i _ => pin kd i
  | .pwmToggle kd i _ => pin kd i
  | .ledToggle kd i _ => pin kd i
  | .bmcRead4 _ => true
  | .bmcRead8 _ => true
  | .bmcWrite4 _ _ => true
  | .bmcWrite8 _ _ => true
  | .bmcBlockRead => true
  | .traceWindowStart cd => lt cd 32
  | .traceWindowStop cd => lt cd 32
  | .pcSample cd k _ _ => coreOf cd k
  | .traceWrite cd => lt cd 32
  | .traceFlush cd _ => lt cd 32
  | .freeze die core u => ring die core u
  | .thaw die core u => ring die core u
  | .ringFreezeStep die => lt die 40
  | .monSnap ctx die m => monitor ctx die m
  | .monClr ctx die m => monitor ctx die m
  | .illegalInstruction cd k => coreOf cd k
  | .injectionFinish slot => lt slot 16384
  | .vrFault => true
  | .forwardedClockLoss die l => lt die 40 && lt l 8
  | .configurationRequest fn _ off _ => function fn && lt off 4096

end Sys2Proof
end

