-- ==== Sys2Proof/Safety.lean ====
section
/-!
DEFINITION. What a safe run is, and the terms in which statements speak of the machine: what a step keeps, when a core
issues an instruction, and what an instruction may change besides its own core.
-/

namespace Sys2Proof.Machine

/-! ## Safe runs -/

/-- A step that answers a next state: the block neither stops nor refuses. -/
def Safe (s : State) : Prop := ∃ t, step s = .next t

/-- The state after `n` steps, if every one of them answers a next state. -/
def run : Nat → State → Option State
  | 0, s => some s
  | n + 1, s => match step s with
    | .next t => run n t
    | _ => none

/-- Every command that waits is well formed: a run that only takes commands from the queue is safe. -/
def State.queueOk (s : State) : Bool := s.pending.all Instr.wellFormed

/-! ## What a step keeps -/

/-- The queue and the fuses, which no command changes (SVN_COMMIT apart, which raises the fused SVN, R462). -/
def State.kept (s : State) : List Instr × Fuses := (s.pending, s.sec.fuses)

/-- The fuses other than the fused SVN. -/
def Fuses.keys (f : Fuses) : Fuses := { f with svn := 0 }

/-- The fuses hold the keys `K`, and a fused SVN of at least `n`. -/
def State.FuseInv (K : Fuses) (n : Nat) (s : State) : Prop := s.sec.fuses.keys = K.keys ∧ n ≤ s.sec.fuses.svn

/-! ## A core that issues an instruction -/

/-- The commands of the core's instruction rows, by opcode (R134). -/
def instrRows (cd k : Nat) : List (Nat × Instr) :=
  [(0x01, .add cd k), (0x02, .sub cd k), (0x03, .and cd k), (0x04, .or cd k), (0x05, .xor cd k), (0x06, .shl cd k),
   (0x07, .shr cd k), (0x08, .sra cd k), (0x09, .mul cd k), (0x0A, .min cd k), (0x0B, .max cd k), (0x0C, .addi cd k),
   (0x0D, .li cd k), (0x0E, .cmp cd k), (0x0F, .cmpi cd k), (0x10, .plog cd k), (0x11, .sld cd k), (0x12, .sst cd k),
   (0x13, .rdw cd k), (0x20, .br cd k), (0x21, .jal cd k), (0x22, .jr cd k), (0x23, .loop cd k), (0x24, .halt cd k)] ++
  [(0x30, .eld cd k), (0x31, .emax cd k), (0x32, .pqclr cd k), (0x40, .vfma cd k), (0x41, .vadd cd k), (0x42, .vsub cd k),
   (0x43, .vmul cd k), (0x44, .vmin cd k), (0x45, .vmax cd k), (0x46, .viadd cd k), (0x47, .visub cd k), (0x48, .vand cd k),
   (0x49, .vor cd k), (0x4A, .vxor cd k), (0x4B, .vshl cd k), (0x4C, .vshr cd k), (0x4D, .vsra cd k), (0x4E, .vcmp cd k),
   (0x4F, .vsel cd k), (0x50, .vdot4 cd k), (0x51, .vcvt cd k), (0x52, .vswc cd k), (0x53, .vpart cd k),
   (0x54, .vquant cd k), (0x55, .vred cd k), (0x56, .vtran cd k), (0x57, .vdiv cd k), (0x58, .vsqrt cd k),
   (0x59, .vtopk cd k), (0x5A, .gate cd k)] ++
  [(0x60, .vld cd k), (0x61, .vst cd k), (0x62, .dmov cd k), (0x70, .send cd k), (0x71, .mcast cd k), (0x72, .mcastx cd k),
   (0x73, .grant cd k), (0x78, .waita cd k), (0x79, .waitc cd k), (0x7A, .waitw cd k), (0x7B, .cset cd k),
   (0x7C, .waitl cd k), (0x7E, .tmark cd k)]

/-- The register file, counters and partial queue of a core (R97, R123). -/
structure CoreRegs where
  s : Tab Word32
  v : Tab VReg
  p : Tab PReg
  a : Tab (BitVec 16)
  h : Tab Byte
  c : Tab Byte
  pq : Tab PQ
  deriving DecidableEq

def Core.regs (c : Core) : CoreRegs := ⟨c.s, c.v, c.p, c.a, c.h, c.c, c.pq⟩

/-- Core `k` of compute die `cd` issues the word `w` in this step: it exists, it runs and no stop waits, `w` is legal and
the next in its program, its guard lets it execute (R131), no precise exception is detected (R161), its wait, if it has
one, is met (R129), and the vector registers that it reads have good parity (R113). -/
structure State.Issues (s : State) (cd k : Nat) (w : IWord) : Prop where
  isCore : isCore cd k = true
  active : (s.core cd k).run = .active
  noStop : (s.core cd k).stopping = false
  word : s.nextWord cd k = w
  legal : w.illegal = false
  guard : s.guardedOff cd k w = false
  checks : s.issueErrors cd k w = []
  met : ∀ x, s.waitOf cd k w = some x → x.met = true
  parity : w.vectorsRead.any (fun i => (s.core cd k).vBad.contains i) = false

/-- The registers that record what core `k` does: its event ring, the ring's status, its count of dropped trace records, and
its die's counts of missed samples (R616, R618, R620, R624). -/
def coreLog (cd k a : Nat) : Prop :=
  (∃ j, j < 128 ∧ a = pkgAddr cd (Reg.off ⟨.dbgRingc, k, j⟩)) ∨ a = pkgAddr cd (Reg.off ⟨.dbgRstatc, k, 0⟩) ∨
  a = pkgAddr cd (Reg.off ⟨.dbgTdrop, k, 0⟩) ∨ ∃ m, m < 16 ∧ a = pkgAddr cd (Reg.off ⟨.monMissed, m, 0⟩)

/-- From `s` to `t` only core `k` of die `cd` changes, its event ring and the registers that record its events (its die's
counts of missed samples among them), those at the addresses `also`, and the monitors. In particular every byte of memory, every other core, every engine and router, every other
register and every other ring keep their values. -/
structure State.OnlyCore (s t : State) (cd k : Nat) (also : Nat → Prop := fun _ => False) : Prop where
  rest : t = { s with cores := t.cores, csr := t.csr, monitors := t.monitors, rings := t.rings }
  stages : ∀ j, j ≠ Ring.key cd (.core k) → Tab.get {} t.rings j = Tab.get {} s.rings j
  others : ∀ j, j ≠ 512 * cd + k → Tab.get {} t.cores j = Tab.get {} s.cores j
  regs : ∀ a, ¬coreLog cd k a → ¬also a → Tab.get 0#64 t.csr a = Tab.get 0#64 s.csr a

/-- Core `k` of die `cd` is as it was, but for the count of its time without issue (R164). -/
def State.SameCore (s t : State) (cd k : Nat) : Prop :=
  ∃ h a, t.core cd k = { s.core cd k with waitHc := h, waitAcc := a }

/-- Every core is. -/
def State.SameCores (s t : State) : Prop := ∀ cd k, s.SameCore t cd k

/-- The index after an instruction at `pc`: a branch target, or the next index. -/
def nextIndex (pc : Nat) : Option Nat → Nat
  | some x => x % 4096
  | none => pc + 1

/-- What every effect of an instruction on its own core leaves alone, even one that ends in an exception: memory, engines,
routers, the other cores, and the core's register file. -/
structure State.CoreSafe (s t : State) (cd k : Nat) : Prop where
  mem : t.mem = s.mem
  memErr : t.memErr = s.memErr
  engines : t.engines = s.engines
  routers : t.routers = s.routers
  kept : t.kept = s.kept
  others : ∀ j, j ≠ 512 * cd + k → Tab.get {} t.cores j = Tab.get {} s.cores j
  regs : (t.core cd k).regs = (s.core cd k).regs

/-- An instruction of core `k` of die `cd` that has completed in `t`, where `s` already holds what it does outside the
core (a store): the core's registers are `r`; memory, engines, routers and the other cores are those of `s`; and, unless
the fetch runs past the last index (R136: `next` is 4,096), nothing else changes but the record of the event and the
registers at `also`, and the core goes on at `next`. -/
structure State.Completes (s t : State) (cd k : Nat) (r : CoreRegs) (next : Nat) (also : Nat → Prop := fun _ => False) :
    Prop where
  regs : (t.core cd k).regs = r
  mem : t.mem = s.mem
  engines : t.engines = s.engines
  routers : t.routers = s.routers
  others : ∀ j, j ≠ 512 * cd + k → Tab.get {} t.cores j = Tab.get {} s.cores j
  goesOn : next < 4096 →
    s.OnlyCore t cd k also ∧ (t.core cd k).pc.toNat = next ∧ (t.core cd k).run = .active ∧
    (t.core cd k).stopping = false
  pastEnd : next = 4096 → (t.core cd k).run = .exception

/-- From a register value `old` to `v`, in elements of `w` bits: element `pos i`, for each i below `n` with `on (pos i)`, is
`f i`; every other element keeps its value. -/
def Lanes (n w : Nat) (pos : Nat → Nat) (on : Nat → Bool) (old v : Nat) (f : Nat → Nat) : Prop :=
  (∀ i, i < n → on (pos i) = true → elem v w (pos i) = f i % 2 ^ w) ∧
  ∀ p, (∀ i, i < n → pos i = p → on p = false) → elem v w p = elem old w p

/-! ## Commands of the host queues -/

/-- Command `id` with entry `b` is the next that pair `q` of function `fn` starts (R419), of protocol `cp1` and opcode
`opc`, one that the function may use, with every bit that R423 or R435 keeps zero zero; a command for firmware is the port's
first (R420). -/
structure State.Takes (s : State) (fn q : Nat) (cp1 : Bool) (opc id : Nat) (b : List Byte) : Prop where
  pair : pairExists fn q = true
  next : s.nextCmd fn q = some (id, b)
  found : (s.pair fn q).cmds.find? (fun c => decide (c.id = id)) = some { id, bytes := some b }
  protocol : s.isCp1 fn q = cp1
  opcode : byteAt b 0 = opc
  view : fnNo fn ≠ 0 → cp1 = false → pfOnly opc = false
  zero : ∀ l, (if cp1 then cp1Fields opc else (cp2Fields opc).map (fun l => cp2Common ++ l)) = some l →
    unusedZero (if cp1 then 64 else 128) b l = true
  ctx : fnNo fn ≠ 0 → (cp1 = false ∨ opc = 1) → numAt b 4 2 = 0
  turn : cp1 = false → isFirmware opc = true → s.firmwareTurn fn q id = true

/-- The completion of command `id`, with entry `b`, of a pair: a CQ entry written to host memory (R421, R435). -/
def State.cqEntry (s : State) (fn q id : Nat) (b : List Byte) (status result : Nat) : HostOut :=
  let p := s.pair fn q
  let n := s.cqSize fn q
  let r := if s.isCp1 fn q then cp1Status status result else (status, result)
  .write (fnPort fn) (bits (s.reg (38 + fnPort fn) .cmdCqb (fnNo fn) q) 63 12 * 4096 + 16 * (p.posted % n))
    (toBytes 8 r.2 ++ toBytes 2 q ++ toBytes 2 ((id + 1) % s.sqSize fn q) ++ toBytes 2 (numAt b 2 2) ++ toBytes 1 r.1 ++
      toBytes 1 (1 - p.posted / n % 2))

/-- From `s` to `t` command `id` of a pair completes with a status and a result, and leaves its pair. -/
structure State.Posts (s t : State) (fn q id : Nat) (b : List Byte) (status result : Nat) : Prop where
  entry : s.cqEntry fn q id b status result ∈ t.host.out
  cmds : (t.pair fn q).cmds = (s.pair fn q).cmds.filter (fun x => decide (x.id ≠ id))
  posted : (t.pair fn q).posted = (s.pair fn q).posted + 1

/-! ## Reductions -/

/-- The words that the three flits of a chunk carry together. -/
def flitsWord (p0 p1 p2 : BitVec 1024) (j : Nat) : Nat := elem (p0.toNat + 2 ^ 1024 * p1.toNat + 2 ^ 2048 * p2.toNat) 48 j

/-- A slot after the three flits of each contribution of a list have joined it, from inputs 0, 1, … in turn. -/
def joinAll (xs : List (BitVec 3072)) : Slot :=
  (List.range xs.length).foldl (fun sl i => (List.range 3).foldl (fun sl f =>
    sl.join 0 0 f i ⟨false, false, 0, 0, 1, BitVec.ofNat 1024 ((xs.getD i 0).toNat >>> (1024 * f)), false, []⟩) sl) {}

end Sys2Proof.Machine
end

