-- ==== Sys2Proof/Certificates/Slice0/Obligations.lean ====
section
/-!
DEFINITION. The statements for the provers.
-/

open Sys2Proof Sys2Proof.Machine

/-! ## The scalar unit -/

/-- The eleven two-operand scalar instructions, ADDI and LI (R134): s[D] takes the result modulo 2^32 (a write to s0 is
discarded, R123), the core goes on at the next index, and nothing else changes. -/
def Claim.ScalarArithmetic : Prop :=
  ∀ (s : State) (cd k : Nat) (w : IWord), s.Issues cd k w →
    let c := s.core cd k
    let a := c.sreg w.a
    let b := c.sreg w.b
    ∀ r ∈ [(0x01, Instr.add cd k, a + b), (0x02, Instr.sub cd k, a + (2 ^ 32 - b)), (0x03, Instr.and cd k, a &&& b),
        (0x04, Instr.or cd k, a ||| b), (0x05, Instr.xor cd k, a ^^^ b), (0x06, Instr.shl cd k, a <<< (b % 32)),
        (0x07, Instr.shr cd k, a >>> (b % 32)),
        (0x08, Instr.sra cd k, unsigned 32 (signed 32 a / ((2 ^ (b % 32) : Nat) : Int))),
        (0x09, Instr.mul cd k, a * b), (0x0A, Instr.min cd k, if signed 32 a ≤ signed 32 b then a else b),
        (0x0B, Instr.max cd k, if signed 32 a ≤ signed 32 b then b else a), (0x0C, Instr.addi cd k, a + w.x),
        (0x0D, Instr.li cd k, w.x)],
      w.op = r.1 → ∃ t, exec r.2.1 s = .next t ∧ s.Completes t cd k (c.setS w.d r.2.2).regs (c.pc.toNat + 1)

/-- CMP and CMPI write all 256 bits of p[D] with the comparison (codes 0 to 5 of R135: EQ, NE, signed LT and GE, unsigned LT
and GE); PLOG writes them all with the AND, OR, XOR or AND-NOT of two predicates (R124, R134), of which bit 0 counts (the
model's choice, log entry 37); a write to p0 is discarded (R123). -/
def Claim.ScalarPredicates : Prop :=
  ∀ (s : State) (cd k : Nat) (w : IWord), s.Issues cd k w →
    let c := s.core cd k
    let a := c.sreg w.a
    let b := if w.op = 0x0F then unsigned 32 (signed 29 (w.x / 8)) else c.sreg w.b
    let rel : Bool := match w.x % 8 with
      | 0 => decide (a = b)
      | 1 => decide (a ≠ b)
      | 2 => decide (signed 32 a < signed 32 b)
      | 3 => decide (signed 32 b ≤ signed 32 a)
      | 4 => decide (a < b)
      | _ => decide (b ≤ a)
    let all : Nat := bif rel then 2 ^ 256 - 1 else 0
    let p := bit (c.preg w.a) 0
    let q := bit (c.preg w.b) 0
    let both : Bool := match w.x % 4 with | 0 => p && q | 1 => p || q | 2 => p != q | _ => p && !q
    let logic : Nat := bif both then 2 ^ 256 - 1 else 0
    ∀ r ∈ [(0x0E, Instr.cmp cd k, all), (0x0F, Instr.cmpi cd k, all),
        (0x10, Instr.plog cd k, logic)],
      w.op = r.1 → ∃ t, exec r.2.1 s = .next t ∧ s.Completes t cd k (c.setP w.d r.2.2).regs (c.pc.toNat + 1)

/-- Branches (R134, R136): BR goes to X[11:0]; JAL saves the next index in s[D] and goes to X[11:0]; JR goes to s[A]; LOOP
decrements s[A] and goes to X[11:0] unless it becomes zero. -/
def Obligations.Branches : Prop :=
  ∀ (s : State) (cd k : Nat) (w : IWord), s.Issues cd k w →
    let c := s.core cd k
    let pc := c.pc.toNat
    let n := (c.sreg w.a + (2 ^ 32 - 1)) % 2 ^ 32
    (w.op = 0x20 → ∃ t, exec (.br cd k) s = .next t ∧ s.Completes t cd k c.regs (w.x % 4096)) ∧
    (w.op = 0x21 → ∃ t, exec (.jal cd k) s = .next t ∧ s.Completes t cd k (c.setS w.d (pc + 1)).regs (w.x % 4096)) ∧
    (w.op = 0x22 → ∃ t, exec (.jr cd k) s = .next t ∧ s.Completes t cd k c.regs (c.sreg w.a)) ∧
    (w.op = 0x23 → ∃ t, exec (.loop cd k) s = .next t ∧
      s.Completes t cd k (c.setS w.a n).regs (if n = 0 then pc + 1 else w.x % 4096))

/-- The waits and counter instructions whose condition is met: WAITA takes n from A[c], WAITC, WAITW and WAITL change
nothing (R155, R158, R159); RDW reads both halves of the waggle copy (R133); CSET writes X[15:0] to A[c] or, outside a
replay, X[7:0] to C[c] (R156). -/
def Claim.WaitsAndCounters : Prop :=
  ∀ (s : State) (cd k : Nat) (w : IWord), s.Issues cd k w →
    let c := s.core cd k
    let v := (s.die cd).wagV.toNat
    (∀ r ∈ [(0x78, Instr.waita cd k, { c with a := Tab.set 0#16 c.a w.a (BitVec.ofNat 16 (c.arr w.a - w.x % 65536)) }),
        (0x79, Instr.waitc cd k, c), (0x7A, Instr.waitw cd k, c), (0x7C, Instr.waitl cd k, c),
        (0x13, Instr.rdw cd k, (c.setS w.d (v % 2 ^ 32)).setS (w.d + 1) (v / 2 ^ 32))],
      w.op = r.1 → ∃ t, exec r.2.1 s = .next t ∧ s.Completes t cd k r.2.2.regs (c.pc.toNat + 1)) ∧
    (w.op = 0x7B → bit w.x 16 = true → ∃ t, exec (.cset cd k) s = .next t ∧
      s.Completes t cd k { c with a := Tab.set 0#16 c.a w.a (BitVec.ofNat 16 w.x) }.regs (c.pc.toNat + 1)) ∧
    (w.op = 0x7B → bit w.x 16 = false → Tab.get false (s.die cd).ras.csets (32 * k + w.a) = false →
      ∃ t, exec (.cset cd k) s = .next t ∧
      s.Completes t cd k { c with c := Tab.set 0#8 c.c w.a (BitVec.ofNat 8 w.x) }.regs (c.pc.toNat + 1))

/-- Moves between registers and the core and cluster buffers (R134, R148), where no stored error lies in the bytes read
(R113): SLD, VLD and EMAX load a register from the buffer and leave all memory alone; SST, VST and DMOV store, at the
address computed here, and change nothing else. A DMOV of 0 bytes does nothing. -/
def Obligations.BufferMoves : Prop :=
  ∀ (s : State) (cd k : Nat) (w : IWord), s.Issues cd k w →
    let c := s.core cd k
    let next := c.pc.toNat + 1
    let a := (c.sreg w.a + w.x) % 2 ^ 32
    let src := pkgAddr cd (coreBuf k + a)
    let n := c.sreg w.c
    let from_ := pkgAddr cd ((if bit w.x 0 then clusterBuf (k / 8) else coreBuf k) + c.sreg w.a)
    let target := (if bit w.x 0 then coreBuf k else clusterBuf (k / 8)) + c.sreg w.b
    (w.op = 0x11 → (s.worstErr src 4).1 = 0 → ∃ t, exec (.sld cd k) s = .next t ∧
      s.Completes t cd k (c.setS w.d (ofBytes (s.readAt src 4))).regs next) ∧
    (w.op = 0x12 → ∃ t, exec (.sst cd k) s = .next t ∧
      (s.writeMem cd (coreBuf k + a) (toBytes 4 (c.sreg w.b))).Completes t cd k c.regs next) ∧
    (w.op = 0x60 → (s.worstErr src 256).1 = 0 → ∃ t, exec (.vld cd k) s = .next t ∧
      s.Completes t cd k (c.setV w.d (ofBytes (s.readAt src 256))).regs next) ∧
    (w.op = 0x61 → ∃ t, exec (.vst cd k) s = .next t ∧
      (s.writeMem cd (coreBuf k + a) (toBytes 256 (c.vreg w.d))).Completes t cd k c.regs next) ∧
    (w.op = 0x31 → (s.worstErr (pkgAddr cd (coreBuf k + c.sreg w.a)) (w.x % 256)).1 = 0 →
      ∃ t, exec (.emax cd k) s = .next t ∧
      s.Completes t cd k
        (c.setS w.d (largestExp (s.readAt (pkgAddr cd (coreBuf k + c.sreg w.a)) (w.x % 256)))).regs next) ∧
    (w.op = 0x62 → n = 0 → ∃ t, exec (.dmov cd k) s = .next t ∧ s.Completes t cd k c.regs next) ∧
    (w.op = 0x62 → n ≠ 0 → (s.worstErr from_ n).1 = 0 → ∃ t, exec (.dmov cd k) s = .next t ∧
      (s.writeMem cd target (s.readAt from_ n)).Completes t cd k c.regs next)

/-- The scalar unit (R134, R135). -/
def Obligations.ScalarUnit : Prop := Claim.ScalarArithmetic ∧ Claim.ScalarPredicates
/-! ## The vector unit -/

/-- The lane-by-lane vector instructions (R104, R127, R130, R131, R134, R175 to R185): element i of D, for each i below the
instruction's element count whose guard bit is 1, is the operation on element i of A, of B (or of the broadcast scalar)
and of C, in the formats FMT and SF and the mode of the instruction; every other element of D keeps its value, and
CORE_FFLAGS takes the flags of the elements computed. Nothing else changes. -/
def Claim.VectorElements : Prop :=
  ∀ (s : State) (cd k : Nat) (w : IWord), s.Issues cd k w →
    let c := s.core cd k
    let fd := w.fmts.1
    let fs := w.fmts.2
    let md := s.fmode cd k w
    let n := elemCount w.op fd
    let src (i : Nat) : Nat := if fs.bytes < fd.bytes then i + n * w.h else i
    let dst (i : Nat) : Nat := if fd.bytes < fs.bytes then i + n * w.h else i
    let on (p : Nat) : Bool := bit (c.guard w) (fd.bytes * p)
    let x (g : Fmt) (v : Nat) : FVal := FVal.decode g md.fl v
    let int (f : Nat → Nat → Nat) (a b _c : Nat) : Nat × FFlags := (f a b % 2 ^ fs.width, .none)
    ∀ r ∈ ([(0x40, Instr.vfma cd k, fun a b c => fFma fd md (x fs a) (x fs b) (x fd c)),
        (0x41, Instr.vadd cd k, fun a b _ => fAdd fd md (x fs a) (x fs b)),
        (0x42, Instr.vsub cd k, fun a b _ => fSub fd md (x fs a) (x fs b)),
        (0x43, Instr.vmul cd k, fun a b _ => fMul fd md (x fs a) (x fs b)),
        (0x44, Instr.vmin cd k, fun a b _ => (minMaxElem false fs md a b, .none)),
        (0x45, Instr.vmax cd k, fun a b _ => (minMaxElem true fs md a b, .none)),
        (0x46, Instr.viadd cd k, int fun a b => a + b), (0x47, Instr.visub cd k, int fun a b => a + (2 ^ fs.width - b)),
        (0x48, Instr.vand cd k, int fun a b => a &&& b), (0x49, Instr.vor cd k, int fun a b => a ||| b),
        (0x4A, Instr.vxor cd k, int fun a b => a ^^^ b), (0x4B, Instr.vshl cd k, int fun a b => a <<< (b % fs.width)),
        (0x4C, Instr.vshr cd k, int fun a b => a >>> (b % fs.width)),
        (0x4D, Instr.vsra cd k, int fun a b => unsigned fs.width (signed fs.width a / ((2 ^ (b % fs.width) : Nat) : Int))),
        (0x51, Instr.vcvt cd k, fun a _ _ => fConvert fd fs md a),
        (0x57, Instr.vdiv cd k, fun a b _ => fDiv md (x fs a) (x fs b)),
        (0x58, Instr.vsqrt cd k, fun a _ _ => fSqrt md (x fs a))] :
        List (Nat × Instr × (Nat → Nat → Nat → Nat × FFlags))),
      w.op = r.1 →
        let result (i : Nat) : Nat × FFlags :=
          r.2.2 (elem (c.vreg w.a) fs.width (src i)) (operandB c w fs (src i)) (elem (c.vreg w.c) fd.width i)
        let flags := (List.range n).foldl (fun a i => if on (dst i) then a.or (result i).2 else a) FFlags.none
        ∃ t v, exec r.2.1 s = .next t ∧
          s.Completes t cd k (c.setV w.d v).regs (c.pc.toNat + 1)
            (fun a => a = pkgAddr cd (Reg.off ⟨.coreFflags, k, 0⟩)) ∧
          Lanes n fd.width dst on (c.vreg w.d) v (fun i => (result i).1) ∧
          (c.pc.toNat ≠ 4095 → t.reg cd .coreFflags k = (s.noteFlags cd k c.pc.toNat flags).reg cd .coreFflags k)

/-- VSEL takes each element of D from A or B by the guard's bit (R131, R134); VDOT4 adds four INT8 products to each INT32
element (R104); VTRAN applies a function to 64 elements (R106, R143, R183); VSWC turns 64 sum words of the core buffer
into FP32 (R41, R182). Elements whose guard bit is 0 keep their value. -/
def Claim.VectorLanes : Prop :=
  ∀ (s : State) (cd k : Nat) (w : IWord), s.Issues cd k w →
    let c := s.core cd k
    let fd := w.fmts.1
    let fs := w.fmts.2
    let md := s.fmode cd k w
    let next := c.pc.toNat + 1
    let notes (a : Nat) : Prop := a = pkgAddr cd (Reg.off ⟨.coreFflags, k, 0⟩) ∨ a = pkgAddr cd (Reg.off ⟨.coreQh, k, 0⟩)
    let place (f : Fmt) (i : Nat) : Nat := if f.bytes = 2 then i + 64 * w.h else i
    let hdr := ofBytes (s.readAt (pkgAddr cd (coreBuf k + c.sreg w.b)) 2)
    let sums := ofBytes (s.readAt (pkgAddr cd (coreBuf k + c.sreg w.a)) 384)
    (w.op = 0x4F → ∃ t v, exec (.vsel cd k) s = .next t ∧ s.Completes t cd k (c.setV w.d v).regs next ∧
      Lanes fd.count fd.width (fun i => i) (fun _ => true) (c.vreg w.d) v (fun i =>
        if bit (c.guard w) (fd.bytes * i) then elem (c.vreg w.a) fd.width i else operandB c w fd i)) ∧
    (w.op = 0x50 → ∃ t v, exec (.vdot4 cd k) s = .next t ∧ s.Completes t cd k (c.setV w.d v).regs next ∧
      Lanes 64 32 (fun i => i) (fun p => bit (c.guard w) (4 * p)) (c.vreg w.d) v (fun l =>
        unsigned 32 (signed 32 (elem (c.vreg w.c) 32 l) + sumInt ((List.range 4).map (fun m =>
          signed 8 (elem (c.vreg w.a) 8 (4 * l + m)) * signed 8 (operandB c w .int8 (4 * l + m))))))) ∧
    (w.op = 0x56 → ∃ t v, exec (.vtran cd k) s = .next t ∧ s.Completes t cd k (c.setV w.d v).regs next notes ∧
      Lanes 64 fd.width (place fd) (fun p => bit (c.guard w) (fd.bytes * p)) (c.vreg w.d) v (fun i =>
        (tranElem fd fs md (w.func % 8) (elem (c.vreg w.a) fs.width (place fs i))).1)) ∧
    (w.op = 0x52 → (s.worstErr (pkgAddr cd (coreBuf k + c.sreg w.b)) 2).1 = 0 →
      (s.worstErr (pkgAddr cd (coreBuf k + c.sreg w.a)) 384).1 = 0 →
      ∃ t v, exec (.vswc cd k) s = .next t ∧ s.Completes t cd k (c.setV w.d v).regs next notes ∧
      Lanes 64 32 (fun i => i) (fun p => bit (c.guard w) (4 * p)) (c.vreg w.d) v (fun i =>
        (sumToFp32 md (bit hdr 15) (hdr % 1024) (elem sums 48 i)).1))

/-- VCMP writes, for each element whose guard bit is 1, all the predicate bits of that element with the comparison (R124,
R135, R176); VRED reduces all elements of A in the order of R105 into s[D]. -/
def Obligations.VectorComparesAndReductions : Prop :=
  ∀ (s : State) (cd k : Nat) (w : IWord), s.Issues cd k w →
    let c := s.core cd k
    let f := w.fmts.1
    let md := s.fmode cd k w
    let next := c.pc.toNat + 1
    let flagsAt (a : Nat) : Prop := a = pkgAddr cd (Reg.off ⟨.coreFflags, k, 0⟩)
    let holds (i : Nat) : Bool :=
      let a := elem (c.vreg w.a) f.width i
      let b := operandB c w f i
      if f.isFloat then (fCompare (w.func % 8) (FVal.decode f md.fl a) (FVal.decode f md.fl b)).1
      else iCompare f.width (w.func % 8) a b
    (w.op = 0x4E → ∃ t v, exec (.vcmp cd k) s = .next t ∧ s.Completes t cd k (c.setP w.d v).regs next flagsAt ∧
      Lanes f.count f.bytes (fun i => i) (fun p => bit (c.guard w) (f.bytes * p)) (c.preg w.d) v (fun i =>
        if holds i then 2 ^ f.bytes - 1 else 0)) ∧
    (w.op = 0x55 → ∃ t, exec (.vred cd k) s = .next t ∧
      s.Completes t cd k (c.setS w.d (pairTree (redElem (w.func % 4) f md) (Nat.log2 f.count)
        ((List.range f.count).map (fun i => elem (c.vreg w.a) f.width i))).1).regs next flagsAt)

/-- The vector instructions that store to the core buffer or to the partial queue (R134, R144 to R146): VQUANT stores
quantized elements at s[B] and exponents at s[C], and the largest exponent goes to s[D]; VTOPK stores the ranked
positions and values at s[D]; GATE stores the 72-byte record at s[D]; VPART adds a partial to entry D where the entry
takes it (R98) and has good parity (R113); PQCLR clears an entry (R142). -/
def Obligations.VectorStores : Prop :=
  ∀ (s : State) (cd k : Nat) (w : IWord), s.Issues cd k w →
    let c := s.core cd k
    let next := c.pc.toNat + 1
    let qhAt (a : Nat) : Prop := a = pkgAddr cd (Reg.off ⟨.coreQh, k, 0⟩)
    let u (i : Nat) : Nat := elem (c.vreg (w.a + i / 64)) 32 (i % 64)
    let mode := w.func % 4
    let blocks := if mode = 0 then [quantBlock 6 127 ((List.range 128).map u)]
      else (List.range 4).map (fun b => quantBlock (if mode = 1 then 6 else 2) (if mode = 1 then 127 else 7)
        ((List.range 32).map (fun i => u (32 * b + i))))
    let bytes := blocks.flatMap (fun b =>
      toBytes (if mode = 0 then 128 else if mode = 1 then 32 else 16) (blockBytes (decide (mode = 2)) b))
    let exps := blocks.map (fun b => b.e)
    let n := w.func % 256 + 1
    let x (i : Nat) : Nat := vecFp32 c w.a i
    let order := (ranked ((List.range n).map (fun i => (i, x i)))).take (bits w.func 13 8 + 1)
    let ps := (List.range 64).map (fun i =>
      if bit (c.guard w) (4 * i) then fp32ToPartial (s.fmode cd k w).fl (elem (c.vreg w.a) 32 i) (c.sreg w.b % 1024) (bits (c.sreg w.b) 19 16)
      else (0, false, false))
    (w.op = 0x54 → ∃ t, exec (.vquant cd k) s = .next t ∧
      ((s.writeMem cd (coreBuf k + c.sreg w.b) bytes).writeMem cd (coreBuf k + c.sreg w.c)
        (exps.map (BitVec.ofNat 8))).Completes t cd k
        (c.setS w.d ((exps.filter (fun e => decide (e ≠ 0xFF))).foldl max (c.sreg w.d % 256))).regs next qhAt) ∧
    (w.op = 0x59 → ∃ t, exec (.vtopk cd k) s = .next t ∧
      (s.writeMem cd (coreBuf k + c.sreg w.d)
        (order.flatMap (fun p => toBytes 8 ((c.sreg w.b + p.1) % 2 ^ 32 + p.2 <<< 32)))).Completes t cd k c.regs next) ∧
    (w.op = 0x5A →
      let keys := (List.range n).map (fun i => ((FVal.decode .fp32 false (x i)).add 0
        (FVal.decode .fp32 false (if bit w.func 13 then 0 else vecFp32 c w.b i))).1)
      let sel := gateSelect keys (bits w.func 10 8 + 1)
      let ws := (gateWeights (bits w.func 12 11) ((List.range n).map x) sel).map (fun v => gMul v (c.sreg w.c))
      ∃ t, exec (.gate cd k) s = .next t ∧
      (s.writeMem cd (coreBuf k + c.sreg w.d) (toBytes 8 (sel.length + 256 * b2n (decide (sel = []))) ++
        (List.range 8).flatMap (fun j => toBytes 8 (if j < sel.length then sel.getD j 0 + ws.getD j 0 <<< 32 else 0xFFFF)))
        ).Completes t cd k c.regs next qhAt) ∧
    (w.op = 0x53 → c.pqBad.contains w.d = false → ∀ q, (c.entry w.d).accept (c.sreg w.b % 1024) (bits (c.sreg w.b) 19 16) (ps.map (fun p => p.1))
        (64 * (w.func % 8)) (ps.any (fun p => p.2.1)) (ps.any (fun p => p.2.2)) = some q →
      ∃ t, exec (.vpart cd k) s = .next t ∧
      s.Completes t cd k { c with pq := Tab.set {} c.pq w.d q }.regs next qhAt) ∧
    (w.op = 0x32 → ∃ t, exec (.pqclr cd k) s = .next t ∧
      s.Completes t cd k { c with pq := Tab.set {} c.pq w.d {} }.regs next)

/-- The vector instructions that work lane by lane. -/
def Obligations.VectorLaneOps : Prop := Claim.VectorElements ∧ Claim.VectorLanes
/-! ## Engine loads, sends, credits -/

/-- ELD appends one load per set MASK bit, lowest engine first (R138, R139): element address s[A] + 128 × stride × rank,
exponent address s[C] + stride × rank, the entry D or, with X[30], D + rank, EV of R36 and R37 from e_max, and the group
fields that the tag's reduction entry gives. It writes no register. -/
def Obligations.EngineLoads : Prop :=
  ∀ (s : State) (cd k : Nat) (w : IWord), s.Issues cd k w → w.op = 0x30 →
    let c := s.core cd k
    let st := bits w.x 29 26
    let emax := if bit w.x 31 then c.sreg w.b % 256 else (Tab.get 0#8 c.h w.b).toNat
    let eg := s.evoffG cd (k / 8) (bits w.x 25 16)
    ∃ t, exec (.eld cd k) s = .next t ∧ s.Completes t cd k c.regs (c.pc.toNat + 1) ∧
      (t.core cd k).loads = c.loads ++ (onesFrom 16 (w.x % 65536) 0).zipIdx.map (fun p =>
        { seq := c.seq + 1, l := p.1, el := c.sreg w.a + 128 * st * p.2, ex := c.sreg w.c + st * p.2,
          ev := unsigned 10 ((emax : Int) - 127 + eg.1 + 512), g := eg.2, pq := if bit w.x 30 then w.d + p.2 else w.d,
          pc := c.pc.toNat, at_ := (s.die cd).cc })

/-- SEND hands its entry to the send port and takes one credit of C[A] unless X[8] is set (R149 to R151): the entry goes
out once every earlier pass has written it. SEND_DONE then sends it, three flits per 64 words into the cluster's router,
and clears the entry (R98, R151, R198). -/
def Claim.SendsOfEntries : Prop :=
  (∀ (s : State) (cd k : Nat) (w : IWord), s.Issues cd k w → w.op = 0x70 →
    let c := s.core cd k
    (∀ sub aux fs, c.jobs.head? ≠ some (.flits sub aux fs)) →
    ∃ t, exec (.send cd k) s = .next t ∧
      s.Completes t cd k
        (if bit w.x 8 then c else { c with c := Tab.set 0#8 c.c w.a (BitVec.ofNat 8 (c.cred w.a - 1)) }).regs
        (c.pc.toNat + 1) ∧
      (t.core cd k).jobs = c.jobs ++ [.pq (c.seq + 1) w.d (bits w.x 25 16) (64 * (w.x % 8 + 1)) c.pc.toNat]) ∧
  (∀ (s : State) (cd k seq e tag words pc : Nat), isCore cd k = true →
    (s.core cd k).jobs = [.pq seq e tag words pc] → s.writesTo cd k e seq = false →
    ∃ t, exec (.sendDone cd k) s = .next t ∧ (t.core cd k).jobs = [] ∧ (t.core cd k).entry e = {} ∧
      (∀ i, i ≠ e → (t.core cd k).entry i = (s.core cd k).entry i) ∧ t.mem = s.mem ∧ t.kept = s.kept ∧
      (t.router cd (k / 8)).queue (5 + k % 8) 0 =
        (s.router cd (k / 8)).queue (5 + k % 8) 0 ++ sendFlits k tag words ((s.core cd k).entry e))

/-- MCAST, MCASTX and GRANT with an empty send port (R149, R150, R152, R153, R196, R202): MCAST puts the bytes at s[A],
s[B] of them, as flits of its group into the cluster's router; MCASTX does so once for each expert of the record at s[C],
in its order, on the group that the expert's table entry names, and with no expert sends nothing; GRANT puts one credit
flit of its route there. Credits are taken as the spec says, and the core goes on. -/
def Claim.SendsOfVectors : Prop :=
  ∀ (s : State) (cd k : Nat) (w : IWord), s.Issues cd k w →
    let c := s.core cd k
    c.jobs = [] →
    let next := c.pc.toNat + 1
    let n := c.sreg w.b
    let clb := bit w.x 0
    let vec := pkgAddr cd (if clb then clusterBuf (k / 8) + c.sreg w.a else coreBuf k + c.sreg w.a)
    let own := pkgAddr cd (coreBuf k + c.sreg w.a)
    let rec_ := s.readAt (pkgAddr cd (coreBuf k + c.sreg w.c)) 72
    let experts := (List.range (s.gateCount cd k (c.sreg w.c))).map (fun j => numAt rec_ (8 + 8 * j) 2)
    let entry (x : Nat) : Nat := ofBytes (s.readAt (pkgAddr cd (coreBuf k + bits w.x 31 16 + 8 * x)) 8)
    let route := s.reg cd .nocCrt (k / 8) (w.x % 256)
    let fine (_ : Nat) : Bool := false
    (w.op = 0x71 → (s.worstErr vec n).1 = 0 → ∃ t, exec (.mcast cd k) s = .next t ∧
      (t.core cd k).regs = (if bit w.x 8 then c else
        { c with c := Tab.set 0#8 c.c w.c (BitVec.ofNat 8 (c.cred w.c - 1)) }).regs ∧
      (next < 4096 → (t.core cd k).pc.toNat = next) ∧ t.mem = s.mem ∧
      (t.router cd (k / 8)).queue (5 + k % 8) 1 = (s.router cd (k / 8)).queue (5 + k % 8) 1 ++
        vectorFlits (sourceOf k (bit w.x 8) w.c) (bits w.x 25 16) (c.sreg w.d % 256) (s.readAt vec n) fine) ∧
    (w.op = 0x72 → experts = [] → (s.worstErr (pkgAddr cd (coreBuf k + c.sreg w.c)) 72).1 = 0 → ∃ t, exec (.mcastx cd k) s = .next t ∧ s.Completes t cd k c.regs next) ∧
    (w.op = 0x72 → experts ≠ [] → s.memErr = [] → (∀ x ∈ experts, x < 256 ∧ bit (entry x) 63 = true) →
      ∃ t, exec (.mcastx cd k) s = .next t ∧
      (t.core cd k).regs = (if bit w.x 5 then c else { c with
        c := Tab.set 0#8 c.c (bits w.x 4 0) (BitVec.ofNat 8 (c.cred (bits w.x 4 0) - experts.length)) }).regs ∧
      (next < 4096 → (t.core cd k).pc.toNat = next) ∧ t.mem = s.mem ∧
      (t.router cd (k / 8)).queue (5 + k % 8) 1 = (s.router cd (k / 8)).queue (5 + k % 8) 1 ++
        experts.flatMap (fun x => vectorFlits (sourceOf k (bit w.x 5) (bits w.x 4 0)) (bits (entry x) 9 0)
          (c.sreg w.d % 256) (s.readAt own n) fine)) ∧
    (w.op = 0x73 → bit route 63 = true → ∃ t, exec (.grant cd k) s = .next t ∧
      (t.core cd k).regs = c.regs ∧ (next < 4096 → (t.core cd k).pc.toNat = next) ∧ t.mem = s.mem ∧
      (t.router cd (k / 8)).queue (5 + k % 8) 1 = (s.router cd (k / 8)).queue (5 + k % 8) 1 ++
        [.cr (bits route 25 16) (bits route 4 0) (bits w.x 15 8)])

/-- Sends (R146, R149 to R153). -/
def Obligations.Sends : Prop := Claim.SendsOfEntries ∧ Claim.SendsOfVectors
/-! ## Run control and exceptions -/

/-- HALT stops issue after itself; CORE_RUN starts a STOPPED core at instruction 0; CORE_STOP stops the issue of a running
core that holds no load; CORE_STOPPED ends a stop whose work is done: STOPPED, nothing left to send, CORE_CTL.STOP clear
(R118, R134, R137). Registers keep their values. -/
def Claim.RunControl : Prop :=
  (∀ (s : State) (cd k : Nat) (w : IWord), s.Issues cd k w → w.op = 0x24 →
    ∃ t, exec (.halt cd k) s = .next t ∧ (t.core cd k).stopping = true ∧ (t.core cd k).run = .active ∧
      (t.core cd k).regs = (s.core cd k).regs ∧
      (t.core cd k).pc = BitVec.ofNat 12 ((s.core cd k).pc.toNat + 1) ∧ t.mem = s.mem) ∧
  (∀ (s : State) (cd k : Nat), isCore cd k = true → (s.core cd k).run = .stopped →
    ∃ t, exec (.coreRun cd k) s = .next t ∧ (t.core cd k).run = .active ∧ (t.core cd k).stopping = false ∧
      (t.core cd k).pc = 0 ∧ (t.core cd k).regs = (s.core cd k).regs ∧ t.mem = s.mem) ∧
  (∀ (s : State) (cd k : Nat), isCore cd k = true → (s.core cd k).run = .active → s.coreState cd k ≠ 2 →
    ∃ t, exec (.coreStop cd k) s = .next t ∧ (t.core cd k).run = .active ∧ (t.core cd k).stopping = true ∧
      (t.core cd k).pc = (s.core cd k).pc ∧ (t.core cd k).regs = (s.core cd k).regs ∧
      (t.core cd k).loads = (s.core cd k).loads ∧ t.mem = s.mem ∧ bit (t.reg cd .coreCtl k) 30 = true) ∧
  (∀ (s : State) (cd k : Nat), isCore cd k = true → (s.core cd k).stopping = true → (s.core cd k).run ≠ .stopped →
    (s.core cd k).loads = [] → (s.core cd k).jobs = [] → (∀ p, p < 17 → (s.engine cd k p).passes = []) →
    ∃ t, exec (.coreStopped cd k) s = .next t ∧ (t.core cd k).run = .stopped ∧ (t.core cd k).stopping = false ∧
      (t.core cd k).regs = (s.core cd k).regs ∧ t.mem = s.mem ∧ bit (t.reg cd .coreCtl k) 30 = false)

/-- WAIT_TIMEOUT (R161, R164): a core that since its last issue has been WAITING or HELD for LIMIT µs enters EXCEPTION, at the
waiting instruction or at the held load's ELD, its registers as they were; the loads that have not started are dropped (of
later ELDs too: the model's reading of "no later instruction has issued", log entry 167). With LIMIT 0, or before that
time, nothing happens. -/
def Claim.WaitTimeout : Prop :=
  ∀ (s : State) (cd k h : Nat), isCore cd k = true → s.hc ≤ h →
    ((s.toHc h).coreState cd k = 3 → 0 < s.fld cd .coreWdog 15 0 k →
      100 * s.fld cd .coreWdog 15 0 k ≤ (s.core cd k).waited h →
      ∃ t, exec (.waitTimeout cd k h) s = .next t ∧ (t.core cd k).run = .exception ∧
        (t.core cd k).pc = (s.core cd k).pc ∧ (t.core cd k).regs = (s.core cd k).regs ∧ t.mem = s.mem ∧ t.hc = h) ∧
    (∀ ld rest, (s.toHc h).coreState cd k = 2 → (s.core cd k).loads = ld :: rest → 0 < s.fld cd .coreWdog 15 0 k →
      100 * s.fld cd .coreWdog 15 0 k ≤ (s.core cd k).waited h →
      ∃ t, exec (.waitTimeout cd k h) s = .next t ∧ (t.core cd k).run = .exception ∧
        (t.core cd k).pc = BitVec.ofNat 12 ld.pc ∧ (t.core cd k).regs = (s.core cd k).regs ∧
        (t.core cd k).loads = [] ∧ t.mem = s.mem ∧ t.hc = h) ∧
    ((s.fld cd .coreWdog 15 0 k = 0 ∨ (s.core cd k).waited h < 100 * s.fld cd .coreWdog 15 0 k) →
      ∃ t, exec (.waitTimeout cd k h) s = .next t ∧ (t.core cd k).run = (s.core cd k).run ∧
        (t.core cd k).pc = (s.core cd k).pc ∧ (t.core cd k).loads = (s.core cd k).loads ∧ s.SameCore t cd k)

/-- A precise exception (R161, R162): an instruction whose word is illegal, or whose checks fail at issue, has no effect
but that its core enters EXCEPTION at its index: memory, engines, routers, other cores and the core's registers keep
their values. ILLEGAL_INSTRUCTION does the same for any illegal word, and CORE_EXC then holds ILLEGAL. -/
def Obligations.PreciseExceptions : Prop :=
  ∀ (s : State) (cd k : Nat), isCore cd k = true → (s.core cd k).run = .active → (s.core cd k).stopping = false →
    let w := s.nextWord cd k
    (∀ r ∈ instrRows cd k, w.op = r.1 →
      (w.illegal = true ∨ (s.guardedOff cd k w = false ∧ s.issueErrors cd k w ≠ [])) →
      ∃ t, exec r.2 s = .next t ∧ s.CoreSafe t cd k ∧ (t.core cd k).run = .exception ∧
        (t.core cd k).pc = (s.core cd k).pc) ∧
    (w.illegal = true → ∃ t, exec (.illegalInstruction cd k) s = .next t ∧ s.CoreSafe t cd k ∧
      (t.core cd k).run = .exception ∧ (t.core cd k).pc = (s.core cd k).pc ∧ bit (t.reg cd .coreExc k) 0 = true)

/-- A legal instruction that its guard stops (R131) only moves on: every register keeps its value. -/
def Claim.GuardedOff : Prop :=
  ∀ (s : State) (cd k : Nat), isCore cd k = true → (s.core cd k).run = .active → (s.core cd k).stopping = false →
    let w := s.nextWord cd k
    ∀ r ∈ instrRows cd k, w.op = r.1 → w.illegal = false → s.guardedOff cd k w = true →
      ∃ t, exec r.2 s = .next t ∧ s.Completes t cd k (s.core cd k).regs ((s.core cd k).pc.toNat + 1)

/-- A core issues only the instruction at its PC: the row of another opcode does nothing to it (its count of time without
issue, R164, is kept up); one whose wait is not met
stays, with its registers and the PC as they were (R129). -/
def Claim.NoOtherIssue : Prop :=
  ∀ (s : State) (cd k : Nat) (r : Nat × Instr), isCore cd k = true → r ∈ instrRows cd k →
    let w := s.nextWord cd k
    (((s.core cd k).run ≠ .active ∨ (s.core cd k).stopping = true ∨ w.op ≠ r.1) →
      ∃ t, exec r.2 s = .next t ∧ s.SameCore t cd k ∧ t = { s with cores := t.cores } ∧
        ∀ j, j ≠ 512 * cd + k → Tab.get {} t.cores j = Tab.get {} s.cores j) ∧
    (∀ x, (s.core cd k).run = .active → (s.core cd k).stopping = false → w.op = r.1 → w.illegal = false →
      s.guardedOff cd k w = false → s.issueErrors cd k w = [] → s.waitOf cd k w = some x → x.met = false →
      ∃ t, exec r.2 s = .next t ∧ s.OnlyCore t cd k ∧ (t.core cd k).regs = (s.core cd k).regs ∧
        (t.core cd k).pc = (s.core cd k).pc ∧ (t.core cd k).run = .active)

/-- TMARK (R160, R611, R613): without effect on a core that is not traced; on one that is, a mark of kind 0 makes its pair
the current one. No register or memory changes. -/
def Claim.TraceMarks : Prop :=
  ∀ (s : State) (cd k : Nat) (w : IWord), s.Issues cd k w → w.op = 0x7E →
    let c := s.core cd k
    ∃ t, exec (.tmark cd k) s = .next t ∧ s.Completes t cd k c.regs (c.pc.toNat + 1) ∧
      (s.traced cd k 1 = false → (t.core cd k).curLayer = c.curLayer ∧ (t.core cd k).curOp = c.curOp) ∧
      (s.traced cd k 1 = true → bits w.x 11 8 = 0 →
        (t.core cd k).curLayer = bits w.x 31 20 ∧ (t.core cd k).curOp = bits w.x 19 12)

/-- An instruction that reads a vector register of wrong parity raises a buffer fault as it issues (R113, R162): the core stands
in EXCEPTION and CORE_BUFERR.UE is set. -/
def Claim.VectorParity : Prop :=
  ∀ (s : State) (cd k : Nat), isCore cd k = true → (s.core cd k).run = .active → (s.core cd k).stopping = false →
    let w := s.nextWord cd k
    ∀ r ∈ instrRows cd k, w.op = r.1 → w.illegal = false → s.guardedOff cd k w = false → s.issueErrors cd k w = [] →
      s.waitOf cd k w = none → w.vectorsRead.any (fun i => (s.core cd k).vBad.contains i) = true →
      ∃ t, exec r.2 s = .next t ∧ (t.core cd k).run = .exception

/-- What a core does not execute (R129, R131): an instruction that its guard stops, and any but the next one. -/
def Obligations.NoIssue : Prop := Claim.GuardedOff ∧ Claim.NoOtherIssue

/-- Run control, the wait timeout and register parity (R113, R118, R134, R137, R161, R164). -/
def Obligations.CoreControl : Prop := Claim.RunControl ∧ Claim.WaitTimeout ∧ Claim.VectorParity

/-- The waits, counters and trace marks (R133, R155, R156, R158 to R160). -/
def Obligations.WaitsAndMarks : Prop := Claim.WaitsAndCounters ∧ Claim.TraceMarks
/-! ## The engines -/

/-- An engine's bit-serial sum over the eight planes of its inputs is the dot product of the weights and the signed inputs,
for every weight code (R35, R57, R60, R61). -/
def Obligations.PlanesEqualDotProduct : Prop :=
  ∀ (e : Engine) (code j : Nat) (elems : BitVec 1024), e.planeAcc code elems j = e.outputC code (elemAt elems) j

/-- LOAD_START (R57, R96, R99, R139, R140): the oldest waiting load, which nothing holds in cycle `u`, and of whose bytes
none holds a stored error, starts in the engine that its map entry names: a pass with the 128 elements and the exponent
byte read now. With the entry not enabled it raises ENGINE_OFF at its ELD instead. -/
def Claim.LoadStarts : Prop :=
  ∀ (s : State) (cd k t : Nat) (ld : Load) (rest : List Load), isCore cd k = true → (s.core cd k).loads = ld :: rest →
    let u := max t (s.die cd).cc
    let s1 := (s.toCc cd u).setCore cd k ((s.core cd k).wake u)
    let p := (s.mapl cd k ld.l).2
    let e := s.engine cd k p
    let el := pkgAddr cd (coreBuf k + ld.el)
    let ex := pkgAddr cd (coreBuf k + ld.ex)
    s1.holdCause cd k u ld = none → ((s1.core cd k).started.filter (· = u)).length < 2 →
    ((s.mapl cd k ld.l).1 = true → e.passes.length < 2 → (s.worstErr el 128).1 = 0 → (s.worstErr ex 1).1 = 0 →
      ∃ v, exec (.loadStart cd k t) s = .next v ∧
        v.engine cd k p = { e with lastLoad := some u, passes := e.passes ++ [
          (⟨u, BitVec.ofNat 1024 (ofBytes (s.readAt el 128)), byteAt (s.readAt ex 1) 0, ld.ev, ld.g, ld.pq, ld.pc, ld.seq⟩ : Pass)] } ∧
        (∀ j, j ≠ 17 * (512 * cd + k) + p → Tab.get {} v.engines j = Tab.get {} s.engines j) ∧
        (v.core cd k).loads.length = rest.length ∧ (v.core cd k).regs = (s.core cd k).regs ∧ v.mem = s.mem) ∧
    ((s.mapl cd k ld.l).1 = false → (s.core cd k).run = .active →
      ∃ v, exec (.loadStart cd k t) s = .next v ∧ (v.core cd k).run = .exception ∧
        (v.core cd k).pc = BitVec.ofNat 12 ld.pc ∧ (v.core cd k).regs = (s.core cd k).regs ∧
        v.engines = s.engines ∧ v.mem = s.mem)

/-- The load permit (R100): CORE_GATE gates a core that has an idle limit; a gated core with a load waiting wakes with a
limit of at most 2, but not in the cycle at whose end it gated; LIM_RAMP raises the limit by 2 toward CAP, and lowers it to
CAP at once. -/
def Claim.LoadPermit : Prop :=
  ∀ (s : State) (cd k : Nat), isCore cd k = true →
    let c := s.core cd k
    (c.gated = false → s.fld cd .coreSoft 15 0 k ≠ 0 → ∃ t, exec (.coreGate cd k) s = .next t ∧
      (t.core cd k).gated = true ∧ (t.core cd k).lim = 0 ∧ (t.core cd k).loads = c.loads ∧ (t.core cd k).regs = c.regs ∧
      t.mem = s.mem ∧ t.engines = s.engines) ∧
    (c.gated = true → c.loads ≠ [] → c.gateT ≠ some (s.die cd).cc → ∃ t, exec (.coreGate cd k) s = .next t ∧
      (t.core cd k).gated = false ∧ (t.core cd k).lim = min c.cap 2 ∧ (t.core cd k).regs = c.regs) ∧
    (c.gated = true → c.gateT = some (s.die cd).cc → ∃ t, exec (.coreGate cd k) s = .next t ∧ s.SameCore t cd k) ∧
    (c.gated = false → c.lim < c.cap → ∃ t, exec (.limRamp cd k) s = .next t ∧
      (t.core cd k).lim = min c.cap (c.lim + 2) ∧ (t.core cd k).regs = c.regs ∧ t.mem = s.mem) ∧
    (c.gated = false → c.cap < c.lim → ∃ t, exec (.limRamp cd k) s = .next t ∧
      (t.core cd k).lim = c.cap ∧ (t.core cd k).regs = c.regs ∧ t.mem = s.mem)

/-- ENGINE_PASS (R62 to R65, R97, R98): the oldest pass of an engine, its outputs within the bounds of R35, adds its aligned
partials to the entry it names, where the entry takes them and has good parity (R113); the pass leaves the engine. A pass
with an output beyond its bound faults the engine (R63, R83), and its entry keeps its value. -/
def Obligations.EnginePasses : Prop :=
  ∀ (s : State) (cd k p : Nat) (ps : Pass) (rest : List Pass), isCore cd k = true → p < 17 →
    let e := s.engine cd k p
    let code := s.fld cd .engCfg 2 0 k p
    let n := outputs code
    let sum (j : Nat) : Int := e.outputC code (elemAt ps.elems) j
    let parts := (List.range n).map (fun j => e.partialOf ps j (sum j))
    e.passes = ps :: rest →
    ((∀ j, j < n → (sum j).natAbs ≤ largestC code) → (s.core cd k).pqBad.contains ps.pq = false →
      ∀ q, ((s.core cd k).entry ps.pq).accept ps.ev ps.g (parts.map (·.1)) 0 (decide (ps.e = 0xFF)) (parts.any (·.2)) = some q →
      ∃ t, exec (.enginePass cd k p) s = .next t ∧ (t.core cd k).entry ps.pq = q ∧
        (∀ i, i ≠ ps.pq → (t.core cd k).entry i = (s.core cd k).entry i) ∧
        (t.core cd k).s = (s.core cd k).s ∧ (t.core cd k).v = (s.core cd k).v ∧ (t.core cd k).p = (s.core cd k).p ∧
        (t.engine cd k p).passes = rest ∧ (t.engine cd k p).comb = e.comb ∧ t.mem = s.mem) ∧
    ((∃ j, j < n ∧ largestC code < (sum j).natAbs) → e.state ≠ .retired → e.fault = none →
      ∃ t, exec (.enginePass cd k p) s = .next t ∧ (t.engine cd k p).state = .faulted ∧
        (t.engine cd k p).loaded = false ∧ (t.core cd k).regs = (s.core cd k).regs ∧
        (ps.pq, ps.seq) ∈ (t.core cd k).withheld ∧ bit (t.reg cd .engFault k p) 4 = true ∧ t.mem = s.mem)

/-- ROW_WRITE and SCALE_WRITE (R74, R75, R88): a GO to an engine that is not BUSY starts the command, BUSY set and TESTED
clear, unless R75 refuses it: then only RESULT says so. A GO while BUSY is an access error without effect. INDEX has 7
bits. -/
def Claim.WriteCommandsStart : Prop :=
  ∀ (s : State) (cd k p index : Nat) (chunk : Bool), isCore cd k = true → p < 17 → index < 128 →
    let c : Instr := if chunk then .scaleWrite cd k p index else .rowWrite cd k p index
    let e := s.engine cd k p
    let data := s.wdata cd k p
    (s.fld cd .engWcmd 31 31 k p = 0 → s.writeRefusal cd k p chunk index data = none →
      ∃ t, exec c s = .next t ∧
        t.engine cd k p = { e with tested := false, test := none, cmd := some ⟨(s.die cd).cc, chunk, index, data⟩ } ∧
        t.fld cd .engWcmd 31 31 k p = 1 ∧ s.SameCores t ∧ t.mem = s.mem) ∧
    (∀ r, s.fld cd .engWcmd 31 31 k p = 0 → s.writeRefusal cd k p chunk index data = some r →
      ∃ t, exec c s = .next t ∧ t.engines = s.engines ∧ t.fld cd .engWcmd 30 28 k p = r ∧
        t.fld cd .engWcmd 31 31 k p = 0 ∧ s.SameCores t ∧ t.mem = s.mem) ∧
    (s.fld cd .engWcmd 31 31 k p = 1 → ∃ t, exec c s = .next t ∧ t.resp.status = 2 ∧ t.engines = s.engines ∧
      s.SameCores t ∧ t.mem = s.mem)

/-- ENG_WRITE_DONE (R74, R76): with at most one mismatch the row or chunk holds its packet, and no other row or chunk of the
engine changes; a second mismatch fails the command: the engine, unless RETIRED, is FAULTED, and not LOADED. BUSY clears
either way. -/
def Claim.WriteCommandsEnd : Prop :=
  ∀ (s : State) (cd k p mism : Nat) (c : WCmd), isCore cd k = true → p < 17 → (s.engine cd k p).cmd = some c →
    let e := s.engine cd k p
    let code := s.fld cd .engCfg 2 0 k p
    ∃ t, exec (.engWriteDone cd k p mism) s = .next t ∧ (t.engine cd k p).cmd = none ∧
      t.fld cd .engWcmd 31 31 k p = 0 ∧ t.mem = s.mem ∧
      (mism < 2 → c.chunk = false →
        Tab.get 0 (t.engine cd k p).comb c.index = BitVec.ofNat 512 (rowCells code c.data.toNat) ∧
        (∀ r, r ≠ c.index → Tab.get 0 (t.engine cd k p).comb r = Tab.get 0 e.comb r) ∧
        (t.engine cd k p).scale = e.scale ∧ (t.engine cd k p).state = e.state ∧ t.fld cd .engWcmd 30 28 k p = 0) ∧
      (mism < 2 → c.chunk = true → c.index < 8 →
        elem (t.engine cd k p).scale.toNat 512 c.index = c.data.toNat ∧
        (∀ i, i < 8 → i ≠ c.index → elem (t.engine cd k p).scale.toNat 512 i = elem e.scale.toNat 512 i) ∧
        (t.engine cd k p).comb = e.comb ∧ (t.engine cd k p).state = e.state ∧ t.fld cd .engWcmd 30 28 k p = 0) ∧
      (2 ≤ mism → (t.engine cd k p).state = (if e.state = .retired then .retired else .faulted) ∧
        (t.engine cd k p).loaded = false ∧ t.fld cd .engWcmd 30 28 k p = 3)

/-- Test passes start (R77, R79, R81, R91, R101): an acceptance test of a loaded, untested engine that is IDLE or FAULTED and
has no write command, its write port idle for 64 cc; a periodic, a forced and an overdue test of an ACTIVE engine; each
where its time has come and the engine and the permit are free. TEST_FORCE marks every ACTIVE engine of the core, and no
other. -/
def Claim.TestsStart : Prop :=
  ∀ (s : State) (cd k p t h : Nat), isCore cd k = true → p < 17 →
    let e := s.engine cd k p
    let u := max t (s.die cd).cc
    let now := max s.hc h
    let started (v : State) : Prop :=
      v.engine cd k p =
        { e with test := some ⟨u, now, false, e.forced⟩, lastLoad := some (u + 8), lastTestHc := now } ∧
      (v.core cd k).regs = (s.core cd k).regs ∧ v.mem = s.mem ∧ v.hc = now
    (s.canTest cd k p u = true →
      ((e.state = .idle ∨ e.state = .faulted) → e.loaded = true → e.tested = false → e.cmd = none → e.portAt + 64 ≤ u →
        ∃ v, exec (.acceptanceTest cd k p t h) s = .next v ∧ started v) ∧
      (e.state = .active → (e.forced = true ∨ e.lastTestHc + 100000 * s.fld cd .engTvCtl 6 0 k ≤ now) →
        ∃ v, exec (.periodicTest cd k p t h) s = .next v ∧ started v) ∧
      (e.state = .active → e.overdue now = true → ∃ v, exec (.testOverdue cd k p t h) s = .next v ∧ started v)) ∧
    ∃ v, exec (.testForce cd k t) s = .next v ∧ v.mem = s.mem ∧ (v.core cd k).regs = (s.core cd k).regs ∧
      (e.state = .active → (v.engine cd k p).forced = true) ∧ (e.state ≠ .active → v.engine cd k p = e)

/-- Test passes end (R69, R77, R79, R91), in an engine that has not faulted since the pass started: slot 1 with every column
equal to its signature leads on to slot 2; slot 2 with every combined result equal sets TESTED, and a FAULTED engine
becomes ACTIVE if the map names it, else IDLE; the engine stays marked for FORCE only if the pass was not its forced one.
A difference in either slot faults an engine that is not RETIRED: it loses LOADED, and keeps TESTED. -/
def Claim.TestsEnd : Prop :=
  ∀ (s : State) (cd k p t h : Nat) (forced : Bool), isCore cd k = true → p < 17 →
    let e := s.engine cd k p
    let code := s.fld cd .engCfg 2 0 k p
    let good1 : Prop := ∀ col, col < 512 → e.colSum testPattern col = e.sigOf col
    let scaled (x : Int) (j : Nat) : Int := x * ((8 + e.bs8 j % 8 : Nat) : Int)
    let good2 : Prop := ∀ j, j < outputs code →
      scaled (combine code (e.colSum testPattern) (rowSum testPattern) j) j = scaled (combine code e.sigOf 8256 j) j
    let lost (v : State) : Prop := (v.engine cd k p).state = .faulted ∧ (v.engine cd k p).loaded = false ∧
      (v.engine cd k p).tested = e.tested ∧ (v.engine cd k p).test = none ∧ (v.engine cd k p).forced = false ∧
      bit (v.reg cd .engFault k p) 0 = true ∧ v.mem = s.mem
    (∀ f, e.fault = some f → f.at_ < t) → t ≤ (s.die cd).cc → e.state ≠ .retired →
    (e.test = some ⟨t, h, false, forced⟩ → ∃ v, exec (.testSlot1Check cd k p) s = .next v ∧
      (good1 → v.engine cd k p = { e with test := some ⟨t, h, true, forced⟩ }) ∧ (¬good1 → lost v)) ∧
    (e.test = some ⟨t, h, true, forced⟩ → ∃ v, exec (.testSlot2Check cd k p) s = .next v ∧
      (good2 → (v.engine cd k p).tested = true ∧ (v.engine cd k p).lastPassHc = h ∧
        (v.engine cd k p).state =
          (if e.state = .faulted then (if (s.namedBy cd k p).isSome then .active else .idle) else e.state) ∧
        (v.engine cd k p).comb = e.comb ∧ (v.engine cd k p).loaded = e.loaded ∧
        (v.engine cd k p).forced = (e.forced && !forced) ∧
        ((e.forced && !forced) = false → (v.engine cd k p).test = none)) ∧
      (¬good2 → lost v))

/-- SCRUB_ROW_READ (R78, R82, R86): a loaded engine, not RETIRED and with no fault in this cycle, reads its next row, 4 scale
bytes and 4 signatures; with all parities right only the scrub position and the time of the port's last use move on; a
wrong parity faults the engine. While a write command has the port the read waits. -/
def Claim.Scrubs : Prop :=
  ∀ (s : State) (cd k p : Nat), isCore cd k = true → p < 17 →
    let e := s.engine cd k p
    let r := e.scrubRow
    let row := (Tab.get 0 e.comb r).toNat
    let good : Prop := (∀ g, g < 8 → parity 64 (elem row 64 g) = elem e.rowPar.toNat 1 (8 * r + g)) ∧
      ∀ i, i < 4 → parity 8 (e.bs8 (4 * r + i)) = elem e.scalePar.toNat 1 (4 * r + i) ∧
        parity 14 (elem e.sig.toNat 14 (4 * r + i)) = elem e.sigPar.toNat 1 (4 * r + i)
    (e.loaded = true → e.state ≠ .retired → e.cmd = none → (∀ f, e.fault = some f → f.at_ < (s.die cd).cc) →
      ∃ t, exec (.scrubRowRead cd k p) s = .next t ∧ t.mem = s.mem ∧
      (good → t.engine cd k p = { e with
        scrubRow := (r + 1) % 128
        scrubDue := e.scrubDue + 2 ^ (s.fld cd .engScrubCtl 3 0 k + 6)
        portAt := max (s.die cd).cc e.scrubDue }) ∧
      (¬good → (t.engine cd k p).state = .faulted ∧ (t.engine cd k p).loaded = false)) ∧
    (e.cmd.isSome → ∃ t, exec (.scrubRowRead cd k p) s = .next t ∧ t.mem = s.mem ∧ t.engines = s.engines)

/-- ENG_MAPL_WRITE, ENG_RETIRE and ENG_CODE_WRITE (R69, R70, R77, R84, R90): enabling an entry for an IDLE, loaded, tested
engine that no other entry names makes it ACTIVE; any other enabling write that changes the entry is an access error
without effect; RETIRE makes an IDLE or FAULTED engine RETIRED, a write command running on (R74); a new CODE clears
TESTED. -/
def Claim.EngineMap : Prop :=
  ∀ (s : State) (cd k l phys p code : Nat), isCore cd k = true → l < 16 → p < 17 →
    let e := s.engine cd k phys
    let free : Prop := phys ≤ 16 ∧ (∀ m, m < 16 → m ≠ l → (s.mapl cd k m).1 = true → (s.mapl cd k m).2 ≠ phys) ∧
      e.state = .idle ∧ e.loaded = true ∧ e.tested = true
    let o := s.engine cd k p
    (phys < 32 → s.mapl cd k l ≠ (true, phys) → free → ∃ t, exec (.engMaplWrite cd k l true phys) s = .next t ∧
      t.mapl cd k l = (true, phys) ∧ (t.engine cd k phys).state = .active ∧ t.resp.status = 0 ∧ t.mem = s.mem) ∧
    (phys < 32 → s.mapl cd k l ≠ (true, phys) → ¬free → ∃ t, exec (.engMaplWrite cd k l true phys) s = .next t ∧
      t.mapl cd k l = s.mapl cd k l ∧ t.engines = s.engines ∧ t.resp.status = 2 ∧ t.mem = s.mem) ∧
    ((o.state = .idle ∨ o.state = .faulted) → ∃ t, exec (.engRetire cd k p) s = .next t ∧
      t.engine cd k p = { o with state := .retired, test := none } ∧ t.mem = s.mem) ∧
    ((o.state = .idle ∨ o.state = .faulted) → code < 4 → ∃ t, exec (.engCodeWrite cd k p code) s = .next t ∧
      t.fld cd .engCfg 2 0 k p = code ∧ (s.fld cd .engCfg 2 0 k p ≠ code → (t.engine cd k p).tested = false) ∧
      (t.engine cd k p).comb = o.comb ∧ t.mem = s.mem)

/-- Scrubs and the engine map (R69, R77, R82, R84 to R86). -/
def Obligations.ScrubsAndMap : Prop := Claim.Scrubs ∧ Claim.EngineMap

/-- Write commands (R73 to R77, R525). -/
def Obligations.WriteCommands : Prop := Claim.WriteCommandsStart ∧ Claim.WriteCommandsEnd

/-- Tests of an engine (R79 to R81, R91). -/
def Obligations.EngineTests : Prop := Claim.TestsStart ∧ Claim.TestsEnd

/-- Engine loads (R96, R99 to R102). -/
def Obligations.Loads : Prop := Claim.LoadStarts ∧ Claim.LoadPermit
/-! ## The on-die network -/

/-- MULTICAST_FLIT (R193, R200, R201, R211, R351): each output that the group's entry names, and that has not taken the head data
flit of an input, takes it in its own turn: to the neighbour, as the link carries it (R196), into every core that LOCAL
names, or out at EDGE; the flit leaves once all have taken it. The last flit of a sound vector raises A[ctr] by one,
saturating, and loads H[ctr] with the vector's exponent; at EDGE a vector that is whole becomes an MCV of the die, and one with
a BAD flit an aborted one. A flit with a damaged header, or of a group with no entry, is dropped (R217). -/
def Claim.MulticastFlits : Prop :=
  ∀ (s : State) (cd c port outs : Nat) (err : LinkErr) (group off len emax src : Nat) (payload : BitVec 1024) (bad : Bool)
    (rest : List Flit), cd < 32 → c < 64 → port < 13 → (s.router cd c).edge = [] →
    let head := Flit.mc group off len emax payload bad src
    (s.router cd c).queue port 1 = head :: rest →
    let e := s.mgt cd c group
    let seen := (s.router cd c).seenOf port 1
    let takes (o : Nat) : Bool := (mgtOutputs e).contains o && bit outs o && s.granted cd c o 1 port
    let all : Prop := ∀ o ∈ mgtOutputs e, bit seen o = true ∨ takes o = true
    let left := if port = 4 then rest ++ (s.router cd c).edgeIn.take (8 - rest.length) else rest
    let dst (q : Nat) := if bit e 49 then clusterBuf c + 32 * bits e 32 18 else coreBuf (8 * c + q) + 32 * bits e 43 33
    let n := min 128 (len - 128 * off)
    let was : VecIn := if off = 0 then {} else Tab.get {} (s.router cd c).vec (1024 * port + group)
    let w : EdgeVec := if off = 0 then { rdie := bits e 17 12, rgroup := bits e 11 2, emax, len, src, opened := true }
      else Tab.get {} (s.fab cd).edge (1024 * c + group)
    let got := w.data ++ toBytes (min 128 (w.len - w.data.length)) payload.toNat
    let msg (bs : List Byte) (cut : Bool) : Msg :=
      { type := 5, dpkg := s.pkgId cd, spkg := s.pkgId cd, sdie := cd, ddie := w.rdie, group := w.rgroup
        len := w.len, emax := w.emax, data := bs, src := w.src + 1, aborted := cut }
    let hit (a : Nat) : Prop := takes 5 = true ∧ ∃ q, q < 8 ∧ bit e (50 + q) = true ∧
      pkgAddr cd (dst q + 128 * off) ≤ a ∧ a < pkgAddr cd (dst q + 128 * off) + n
    (seen = 0 → (linkErrOf port err = .header ∨ bit e 63 = false) →
      ∃ t, exec (.multicastFlit cd c port ⟨outs, err⟩) s = .next t ∧
      (t.router cd c).queue port 1 = left ∧ t.mem = s.mem ∧ s.SameCores t) ∧
    ((seen = 0 → linkErrOf port err = .ok) → bit e 63 = true → 128 * off < len →
      (if bit e 49 then 32 * bits e 32 18 + len ≤ 1048576 else 32 * bits e 43 33 + len ≤ 65536) →
      ∃ t, exec (.multicastFlit cd c port ⟨outs, err⟩) s = .next t ∧
        (all → (t.router cd c).queue port 1 = left) ∧
        (¬all → (t.router cd c).queue port 1 = head :: rest ∧
          ∀ o, o < 6 → bit ((t.router cd c).seenOf port 1) o = (bit seen o || takes o)) ∧
        (∀ o, o < 4 → hasNeighbour c o = true →
          (t.router cd (neighbour c o)).queue (oppositePort o) 1 =
            (s.router cd (neighbour c o)).queue (oppositePort o) 1 ++ (if takes o then [head.overLink] else [])) ∧
        (∀ q, q < 8 → takes 5 = true → bit e (50 + q) = true →
          t.readAt (pkgAddr cd (dst q + 128 * off)) n = toBytes n payload.toNat ∧
          (128 * off + 128 < len → s.SameCore t cd (8 * c + q)) ∧
          (len ≤ 128 * off + 128 → bad = false → was.bad = false → was.got = off →
            (t.core cd (8 * c + q)).arr (bits e 48 44) = min 65535 ((s.core cd (8 * c + q)).arr (bits e 48 44) + 1) ∧
            Tab.get 0#8 (t.core cd (8 * c + q)).h (bits e 48 44) = BitVec.ofNat 8 emax)) ∧
        (takes 4 = false ∨ w.opened = false → (t.fab cd).inbox = (s.fab cd).inbox) ∧
        (takes 4 = true → w.opened = true →
          (bad = true → (t.fab cd).inbox = (s.fab cd).inbox ++ [msg w.data true]) ∧
          (bad = false → got.length = w.len → (t.fab cd).inbox = (s.fab cd).inbox ++ [msg got false]) ∧
          (bad = false → got.length ≠ w.len → (t.fab cd).inbox = (s.fab cd).inbox ∧
            Tab.get {} (t.fab cd).edge (1024 * c + group) = { w with data := got })) ∧
        (∀ a, ¬hit a → t.readByte a = s.readByte a) ∧
        (∀ q, q < 8 → takes 5 = false ∨ bit e (50 + q) = false → s.SameCore t cd (8 * c + q)))

/-- CREDIT_FLIT (R156, R157, R200, R202, R211): a credit of a group whose entry is VALID leaves by the outputs that the entry
names, each in its turn, adds its amount to C[ctr] of every core that LOCAL names, saturating at 255, and becomes an MCC of the die at
EDGE (R351). -/
def Claim.CreditFlits : Prop :=
  ∀ (s : State) (cd c port outs : Nat) (err : LinkErr) (group ctr amt : Nat) (rest : List Flit), cd < 32 → c < 64 →
    port < 13 → (s.router cd c).edge = [] → (s.router cd c).queue port 1 = .cr group ctr amt :: rest →
    let e := s.mgt cd c group
    let seen := (s.router cd c).seenOf port 1
    let takes (o : Nat) : Bool := (mgtOutputs e).contains o && bit outs o && s.granted cd c o 1 port
    let all : Prop := ∀ o ∈ mgtOutputs e, bit seen o = true ∨ takes o = true
    let left := if port = 4 then rest ++ (s.router cd c).edgeIn.take (8 - rest.length) else rest
    let credit : Msg :=
      { type := 6, dpkg := s.pkgId cd, spkg := s.pkgId cd, sdie := cd, ddie := bits e 17 12, group := bits e 11 2, ctr, amt }
    (seen = 0 → linkErrOf port err = .ok) → bit e 63 = true →
    ∃ t, exec (.creditFlit cd c port ⟨outs, err⟩) s = .next t ∧ t.mem = s.mem ∧
      (t.fab cd).inbox = (s.fab cd).inbox ++ (if takes 4 then [credit] else []) ∧
      (all → (t.router cd c).queue port 1 = left) ∧
      (¬all → (t.router cd c).queue port 1 = .cr group ctr amt :: rest) ∧
      (∀ o, o < 4 → hasNeighbour c o = true →
        (t.router cd (neighbour c o)).queue (oppositePort o) 1 =
          (s.router cd (neighbour c o)).queue (oppositePort o) 1 ++
            (if takes o then [(Flit.cr group ctr amt).overLink] else [])) ∧
      ∀ q, q < 8 →
        (takes 5 = true → bit e (50 + q) = true →
          (t.core cd (8 * c + q)).cred ctr = min 255 ((s.core cd (8 * c + q)).cred ctr + amt) ∧
          ∀ j, j ≠ ctr → (t.core cd (8 * c + q)).cred j = (s.core cd (8 * c + q)).cred j) ∧
        (takes 5 = false ∨ bit e (50 + q) = false → s.SameCore t cd (8 * c + q))

/-- What travels over a mesh link spells the flit (R194 to R197): with every field within its width, the router at the other
end reads the flit that was sent, of every form. -/
def Claim.LinkWords : Prop :=
  (∀ (tag chunk fi ev g count : Nat) (po cl bad : Bool) (payload : BitVec 1024) (srcs : List Nat), tag < 1024 →
    chunk < 8 → fi < 3 → ev < 1024 → g < 16 → count < 65536 →
    (Flit.red tag chunk fi po cl ev g count payload bad srcs).overLink = .red tag chunk fi po cl ev g count payload bad srcs) ∧
  (∀ (group off len emax src : Nat) (bad : Bool) (payload : BitVec 1024), group < 1024 → off < 512 → len < 131072 →
    emax < 256 → (Flit.mc group off len emax payload bad src).overLink = .mc group off len emax payload bad src) ∧
  (∀ (group ctr amt : Nat), group < 1024 → ctr < 32 → amt < 256 → (Flit.cr group ctr amt).overLink = .cr group ctr amt) ∧
  (∀ (response bad ext : Bool) (dcl dport : Nat) (payload : BitVec 512), dcl < 64 → dport < 4 →
    (Flit.fab response bad ext dcl dport payload).overLink = .fab response bad ext dcl dport payload)

/-- The reduction is exact (R207): the three payloads that a slot emits, after at most twelve contributions of one chunk
have joined it flit by flit, carry in each of the 64 words the sum of the contributions' words modulo 2^48: no carry is
lost where a word is split between two flits. -/
def Obligations.ReductionExact : Prop :=
  ∀ xs : List (BitVec 3072), xs.length ≤ 12 →
    let (o0, a) := (joinAll xs).emit 0
    let (o1, b) := a.emit 1
    let (o2, d) := b.emit 2
    d = {} ∧ ∀ j, j < 64 → flitsWord o0 o1 o2 j = (xs.map (fun x => elem x.toNat 48 j)).foldl (· + ·) 0 % 2 ^ 48

/-- REDUCTION_FLIT (R206 to R209, R211, R213): a flit of an input that its entry expects, and whose slot it has not filled and
no older instance holds, joins the slot; with every input of the entry in, it waits for the turn of its output, and the sum
goes on toward OUT, or lands at the root's core; the last flit at the root writes the header behind it and raises A[ctr] by
one, saturating. The instance counter advances with an input's last flit. A flit whose slot an older instance holds stays
at its input (SLOT_OVERRUN). -/
def Obligations.ReductionFlits : Prop :=
  ∀ (s : State) (cd c port : Nat) (err : LinkErr) (tag chunk f ev g count : Nat) (po cl bad : Bool) (payload : BitVec 1024)
    (srcs : List Nat) (rest : List Flit), cd < 32 → c < 64 → port < 13 → port ≠ 4 →
    let head := Flit.red tag chunk f po cl ev g count payload bad srcs
    (s.router cd c).queue port 0 = head :: rest →
    let i := if 5 ≤ port then port - 5 else 8 + port
    let w0 := (s.rgt cd c tag).1
    let w1 := (s.rgt cd c tag).2
    let base := (rgtSlots w0).1
    let depth := (rgtSlots w0).2.1
    let chunks := (rgtSlots w0).2.2
    let inst := Tab.get 0 (s.router cd c).inst (16 * tag + i)
    let no := base + (inst % depth) * chunks + chunk
    let old := Tab.get {} (s.router cd c).slots no
    let sl := old.join tag inst f i ⟨po, cl, ev, g, count, payload, bad, srcs⟩
    let p := sl.part f
    let out := (sl.emit f).1
    let last := f = 2 ∧ chunk + 1 = chunks
    let sound := p.mismatch = false ∧ p.count = bits w1 15 0
    let toward := if bit w0 62 then 5 else bits w0 49 48
    let k := 8 * c + bits w0 23 21
    let at_ := pkgAddr cd (coreBuf k + 32 * bits w0 15 5 + 384 * chunk + 128 * f)
    let tail := pkgAddr cd (coreBuf k + 32 * bits w0 15 5 + 384 * chunks)
    ((s.router cd c).seenOf port 0 = 0 → linkErrOf port err = .ok) → bit w0 63 = true → bit w0 (50 + i) = true →
    chunk < chunks → f < 3 →
    ((old.inst ≠ none ∧ old.inst ≠ some inst) → ∃ t, exec (.reductionFlit cd c port err) s = .next t ∧
      (t.router cd c).queue port 0 = head :: rest ∧ (t.router cd c).slots = (s.router cd c).slots ∧
      (t.router cd c).inst = (s.router cd c).inst ∧ bit (t.reg cd .nocErr c) 10 = true ∧ t.mem = s.mem ∧ s.SameCores t) ∧
    ((old.inst = none ∨ old.inst = some inst) → bit (old.part f).mask i = false →
    (p.mask ≠ bits w0 61 50 → ∃ t, exec (.reductionFlit cd c port err) s = .next t ∧ (t.router cd c).queue port 0 = rest ∧
      Tab.get {} (t.router cd c).slots no = sl ∧ t.mem = s.mem ∧ s.SameCores t ∧
      (last → Tab.get 0 (t.router cd c).inst (16 * tag + i) = inst + 1) ∧
      (¬last → (t.router cd c).inst = (s.router cd c).inst)) ∧
    (p.mask = bits w0 61 50 → s.granted cd c toward 0 port = false →
      ∃ t, exec (.reductionFlit cd c port err) s = .next t ∧ (t.router cd c).queue port 0 = head :: rest ∧
      (t.router cd c).slots = (s.router cd c).slots ∧ t.mem = s.mem ∧ s.SameCores t) ∧
    (p.mask = bits w0 61 50 → s.granted cd c toward 0 port = true → bit w0 62 = false → hasNeighbour c toward = true →
      sound → ∃ t, exec (.reductionFlit cd c port err) s = .next t ∧ (t.router cd c).queue port 0 = rest ∧
        Tab.get {} (t.router cd c).slots no = (sl.emit f).2 ∧ t.mem = s.mem ∧ s.SameCores t ∧
        (t.router cd (neighbour c toward)).queue (oppositePort toward) 0 =
          (s.router cd (neighbour c toward)).queue (oppositePort toward) 0 ++
            [(Flit.red tag chunk f p.poison p.clamp p.ev p.g (p.count % 65536) out p.bad p.srcs).overLink]) ∧
    (p.mask = bits w0 61 50 → s.granted cd c toward 0 port = true → bit w0 62 = true → sound → p.bad = false →
      32 * bits w0 15 5 + 384 * chunks + 8 ≤ 65536 →
      ∃ t, exec (.reductionFlit cd c port err) s = .next t ∧ (t.router cd c).queue port 0 = rest ∧
        t.readAt at_ 128 = toBytes 128 out.toNat ∧
        (¬last → s.SameCores t ∧ ∀ a, ¬(at_ ≤ a ∧ a < at_ + 128) → t.readByte a = s.readByte a) ∧
        (last → t.readAt tail 8 = toBytes 8 (numHeader p.poison p.clamp p.ev + (p.count % 65536) <<< 16) ∧
          (∀ a, ¬(at_ ≤ a ∧ a < at_ + 128) → ¬(tail ≤ a ∧ a < tail + 8) → t.readByte a = s.readByte a) ∧
          (Tab.get false (s.router cd c).badInst tag = false →
            (t.core cd k).arr (bits w0 20 16) = min 65535 ((s.core cd k).arr (bits w0 20 16) + 1)))))

/-- The tables of a router (R204, R218, R220): a write to a group, reduction or route entry takes effect only while every
core of the cluster is STOPPED and, for the first two, no flit or slot uses the entry; else it is an access error without
effect. NOC_DISCARD empties the slots of a tag's VALID entry, no other slot, and its instance counters; NOC_LOCK sets NOC_CTL.LOCK. -/
def Obligations.RouterTables : Prop :=
  ∀ (s : State) (cd c tag g r w : Nat) (v : Word64), cd < 32 → c < 64 → tag < 1024 → g < 1024 → r < 256 → w < 2 →
    (s.clusterStopped cd c = true → s.tagInUse cd c tag = false →
      (bit (if w = 0 then v.toNat else (s.rgt cd c tag).1) 63 = true →
        s.rgtRefused cd c tag (if w = 0 then v.toNat else (s.rgt cd c tag).1) (if w = 0 then (s.rgt cd c tag).2 else v.toNat) = false) →
      ∃ t, exec (.nocRgtWrite cd c tag w v) s = .next t ∧ t.resp.status = 0 ∧
        t.reg cd .nocRgt c (2 * tag + w) = (if w = 0 then v.toNat - v.toNat % 32 else v.toNat % 65536) ∧
        (∀ i, i < 16 → Tab.get 0 (t.router cd c).inst (16 * tag + i) = 0) ∧ t.mem = s.mem ∧ s.SameCores t) ∧
    ((s.clusterStopped cd c = false ∨ s.tagInUse cd c tag = true) → ∃ t, exec (.nocRgtWrite cd c tag w v) s = .next t ∧
      t.resp.status = 2 ∧ t.routers = s.routers ∧ t.reg cd .nocRgt c (2 * tag + w) = s.reg cd .nocRgt c (2 * tag + w)) ∧
    (s.clusterStopped cd c = true → s.groupInUse cd c g = false →
      (bit v.toNat 63 = true → (∀ o, o < 4 → bit v.toNat (58 + o) = true → hasNeighbour c o = true) ∧
        (bit v.toNat 62 = true → isPortCluster c = true)) →
      ∃ t, exec (.nocMgtWrite cd c g v) s = .next t ∧ t.resp.status = 0 ∧
        t.reg cd .nocMgt c g = RegFam.written .nocMgt (s.mgt cd c g) v.toNat ∧ t.mem = s.mem ∧ s.SameCores t) ∧
    ((s.clusterStopped cd c = false ∨ s.groupInUse cd c g = true) → ∃ t, exec (.nocMgtWrite cd c g v) s = .next t ∧
      t.resp.status = 2 ∧ t.reg cd .nocMgt c g = s.reg cd .nocMgt c g) ∧
    (s.clusterStopped cd c = true → ∃ t, exec (.nocCrtWrite cd c r v) s = .next t ∧ t.resp.status = 0 ∧
      t.reg cd .nocCrt c r = RegFam.written .nocCrt (s.reg cd .nocCrt c r) v.toNat ∧ t.mem = s.mem) ∧
    (s.clusterStopped cd c = false → ∃ t, exec (.nocCrtWrite cd c r v) s = .next t ∧ t.resp.status = 2 ∧
      t.reg cd .nocCrt c r = s.reg cd .nocCrt c r) ∧
    (∃ t, exec (.nocDiscard cd c tag) s = .next t ∧ t.mem = s.mem ∧ s.SameCores t ∧
      (∀ j, Tab.get {} (t.router cd c).slots j =
        if bit (s.rgt cd c tag).1 63 = true ∧ (rgtRange (s.rgt cd c tag).1).1 ≤ j ∧
            j < (rgtRange (s.rgt cd c tag).1).1 + (rgtRange (s.rgt cd c tag).1).2 then {}
        else Tab.get {} (s.router cd c).slots j) ∧
      (∀ i, i < 16 → Tab.get 0 (t.router cd c).inst (16 * tag + i) = 0) ∧
      (t.router cd c).q = (s.router cd c).q) ∧
    (∃ t, exec (.nocLock cd c) s = .next t ∧ t.fld cd .nocCtl 31 31 c = 1 ∧ t.routers = s.routers ∧ t.mem = s.mem ∧
      s.SameCores t)

/-- Multicast and credit flits, and what a mesh link carries (R194 to R202, R211). -/
def Obligations.MeshFlits : Prop := Claim.MulticastFlits ∧ Claim.CreditFlits ∧ Claim.LinkWords
/-! ## The memory dies -/

/-- RQ_OPEN and RQ_RELEASE (R243, R264): an accepted RQ_OPEN loads the request's table entry and reservation and, without
TREE, an empty directory entry for every pair; an accepted RQ_RELEASE frees the entry and every page slot of the request,
and changes no byte. Without their condition they fail with NO_SLOT or SLOT_OPEN and change neither table nor bytes. -/
def Obligations.RequestTables : Prop :=
  ∀ (s v : State) (md n : Nat) (c : MdCmd), 32 ≤ md → md < 36 →
    let b := c.bytes
    let h := CmdHdr.of b
    let np := numAt b 18 2 + 1
    let pt := numAt b 20 6
    let r8 := numAt b 26 3
    let r4 := numAt b 29 3
    let tree := bit (byteAt b 1) 7
    let used (a : Nat) : Prop := ∃ p ∈ s.pairs md, pkgAddr md (pt + 32 * p.2.2) ≤ a ∧ a < pkgAddr md (pt + 32 * p.2.2) + 32
    let free (pool : Nat) : Nat := s.fld md .mdaPool 21 0 pool - s.fld md .mdaRsv 21 0 pool
    let need (pool : Nat) : Nat := ((s.pairs md).filter (fun p => decide (b2n (s.layer md p.1).kv4 = pool))).length
    let failed (t : State) (status : Nat) : Prop := t.mem = s.mem ∧ bit (t.reg md .mdaErr) (status - 1) = true ∧
      (∀ j, t.rq md j = s.rq md j) ∧ (t.md md).pages = (s.md md).pages
    headerOk b = true →
    (s.takeCmd md n 3 = some (c, v) →
      ((s.rq md h.slot).valid = false → insideRegion (s.region md 1) pt (s.pairCount md * (32 + 272 * np)) = true →
        r8 ≤ free 0 → r4 ≤ free 1 → (tree = true → need 0 ≤ r8 ∧ need 1 ≤ r4) →
        ∃ t, exec (.rqOpen md n) s = .next t ∧ t.rq md h.slot = ⟨true, tree, numAt b 16 2, np, pt⟩ ∧
          (tree = false → t.resv md h.slot 0 = r8 ∧ t.resv md h.slot 1 = r4 ∧
            ∀ p ∈ s.pairs md, t.readMem md (pt + 32 * p.2.2) 32 = List.replicate 32 0#8) ∧
          (∀ a, ¬used a → t.readByte a = s.readByte a)) ∧
      ((s.rq md h.slot).valid = true → ∃ t, exec (.rqOpen md n) s = .next t ∧ failed t 0x0D)) ∧
    (s.takeCmd md n 4 = some (c, v) →
      ((s.rq md h.slot).valid = true → ∃ t, exec (.rqRelease md n) s = .next t ∧ (t.rq md h.slot).valid = false ∧
        t.mem = s.mem ∧ (t.md md).pages = (s.md md).pages.filter (fun p => decide (p.2 ≠ h.slot + 1))) ∧
      ((s.rq md h.slot).valid = false → ∃ t, exec (.rqRelease md n) s = .next t ∧ failed t 0x02))

/-- An append (R236, R237) at the fill point, inside a page: the token goes to its places in the page's slot and FILL
rises by one. Below the fill point the same token changes nothing and another is refused (MISMATCH); above it the append
is refused (HOLE). -/
def Claim.Appends : Prop :=
  ∀ (s : State) (md slot L h j t : Nat) (tok : List Byte) (c : MdCtx) (d : Dir) (p : Pte), s.memErr = [] →
    (s.readDir md slot j).1 = some d → (s.readPte md slot j (t / 256)).1 = .ok p → t < 16777216 →
    let kv4 := (s.layer md L).kv4
    let base := s.slotAt md (b2n kv4) p.slot
    (d.fill < t → ∃ u, s.append md slot L h j t tok c = .error (0x04, u) ∧ u.mem = s.mem) ∧
    (t < d.fill → s.token md base kv4 (t % 256) = tok → ∃ u, s.append md slot L h j t tok c = .ok u ∧ u.mem = s.mem) ∧
    (t < d.fill → s.token md base kv4 (t % 256) ≠ tok → ∃ u, s.append md slot L h j t tok c = .error (0x05, u) ∧ u.mem = s.mem) ∧
    (d.fill = t → t % 256 ≠ 0 → t % 256 ≠ 255 → ∃ u, s.append md slot L h j t tok c = .ok u ∧
      u.mem = ((s.writeToken md base kv4 (t % 256) tok).writeDir md slot j { d with fill := t + 1 }).mem)

/-- ATTEND (R241, R242, R246, R251, R254): a taken command that passes every check has its tokens appended, and for each
query row posts one vector to RDIE on group RGROUP + r, of the blocks that the attention procedure gives for the row, each
KV head from its own pages and its own tree slot, with EMAX the largest exponent in it. Bytes change only by its appends.
One that a check refuses changes no byte and sets its error's bit. -/
def Claim.Attention : Prop :=
  ∀ (s v : State) (md n cc : Nat) (units : List Nat) (c : MdCmd) (ds : List Dir), 32 ≤ md → md < 36 → s.memErr = [] →
    s.takeCmd md n 1 = some (c, v) →
    let h := CmdHdr.of c.bytes
    let y := v.layer md h.layer
    let a := AttendCmd.of y c.bytes
    let j0 := v.ordinal md h.layer
    headerOk c.bytes = true → (v.rq md h.slot).valid = true → y.valid = true → v.cmdLen md c.bytes = .bytes c.bytes.length →
    (v.readDirs md h.slot ((List.range y.hkv).map (j0 + ·))).1 = some ds →
    (∀ e, attendCheck a (v.rq md h.slot) ds = some e →
      ∃ t, exec (.attend md n units cc) s = .next t ∧ t.mem = s.mem ∧ bit (t.reg md .mdaErr) (e - 1) = true) ∧
    ∀ u, attendCheck a (v.rq md h.slot) ds = none →
    v.attendAppends md y a j0 { op := 1, slot := h.slot, layer := h.layer, sender := c.sender.sdie } = .ok u → u.memErr = [] →
    let fill (q : Nat) : Nat := (Dir.ofBytes (u.readMem md (dirAt (v.rq md h.slot) (j0 + q)) 32)).fill
    let pages (q i : Nat) := u.rowPages md y a (j0 + q) q i
    let head (d : Dir) (q : Nat) : HeadRead :=
      { q, j := j0 + q, fill := fill q, tslot := d.tslot, pages := (List.range h.rows).map (pages q) }
    let row (i : Nat) : List HeadOut := ds.zipIdx.flatMap (fun x => (u.attendHead md y a (head x.1 x.2)).getD i [])
    (∀ q, q < y.hkv → ∀ i, i < h.rows → ∀ p ∈ rowPositions y a (fill q) i (pages q i),
      (p.2.any (fun x => x.2.isNone) = true ∨ 256 * p.1 < fill q) → ∃ e, (u.readPte md h.slot (j0 + q) p.1).1 = .ok e) →
    ∃ t, exec (.attend md n units cc) s = .next t ∧ t.mem = u.mem ∧ (t.md md).pages = (u.md md).pages ∧
      (t.fab md).inbox = (u.fab md).inbox ++ (List.range h.rows).map (fun i =>
        { type := 5, dpkg := t.pkgId md, spkg := t.pkgId md, sdie := md, ddie := h.rdie, group := h.rgroup + i,
          len := (rowBytes (row i)).length, emax := emaxOf ((row i).map (fun o => BitVec.ofNat 8 o.block.e)),
          data := rowBytes (row i), slot := h.slot })

/-- COMMIT (R244): with COUNT 0 it succeeds and changes nothing. A COMMIT that some pair does not accept appends nothing.
One of a single node that the only pair accepts, inside a page, appends the node's token and raises FILL by one. -/
def Claim.Commits : Prop :=
  ∀ (s v : State) (md n : Nat) (c : MdCmd), 32 ≤ md → md < 36 → s.memErr = [] → s.takeCmd md n 2 = some (c, v) →
    headerOk c.bytes = true → (v.rq md (CmdHdr.of c.bytes).slot).valid = true →
    let h := CmdHdr.of c.bytes
    let nodes := (List.range h.count).map (fun d => byteAt c.bytes (16 + d))
    (h.count = 0 → ∃ t, exec (.commit md n) s = .next t ∧ t.mem = s.mem ∧ t.mds = v.mds) ∧
    (∀ e, h.count ≠ 0 →
      (v.commitChecks md h.slot h.pos nodes { op := 2, slot := h.slot, sender := c.sender.sdie } (v.pairs md)).1 = some e →
      ∃ t, exec (.commit md n) s = .next t ∧ t.mem = s.mem ∧ t.mds = v.mds ∧ bit (t.reg md .mdaErr) (e - 1) = true) ∧
    (∀ L hd j d p, h.count = 1 → v.pairs md = [(L, hd, j)] → (v.readDir md h.slot j).1 = some d →
      (v.readPte md h.slot j (h.pos / 256)).1 = .ok p → d.tbase = h.pos → d.fill = h.pos →
      bit d.tmask (byteAt c.bytes 16) = true → h.pos % 256 ≠ 0 → h.pos % 256 ≠ 255 →
      let kv4 := (v.layer md L).kv4
      let tok := v.token md (v.slotAt md (b2n kv4) d.tslot) kv4 (byteAt c.bytes 16)
      ∃ t, exec (.commit md n) s = .next t ∧ t.mds = v.mds ∧
        t.mem = ((v.writeToken md (v.slotAt md (b2n kv4) p.slot) kv4 (h.pos % 256) tok).writeDir md h.slot j
          { d with fill := h.pos + 1 }).mem)

/-- GATHER (R245): with every row inside the embedding region it posts each row's bytes as a vector to RGROUP on RDIE; with a row outside it posts rows whose exponents are all 0xFF and fails with RANGE. No byte changes. -/
def Claim.Gathers : Prop :=
  ∀ (s v : State) (md n rb rz : Nat) (c : MdCmd), 32 ≤ md → md < 36 → s.memErr = [] → s.takeCmd md n 5 = some (c, v) →
    headerOk c.bytes = true → v.region md 4 = some (rb, rz) →
    let h := CmdHdr.of c.bytes
    let L := numAt c.bytes 24 4
    let off (r : Nat) : Nat := rb + numAt c.bytes 16 8 + L * numAt c.bytes (64 + 4 * r) 4
    let msg (t : State) (e : Nat) (bs : List Byte) : Msg :=
      { type := 5, dpkg := t.pkgId md, spkg := t.pkgId md, sdie := md, ddie := h.rdie, group := h.rgroup,
        len := bs.length, emax := e, data := bs, slot := h.slot }
    ((∀ r, r < h.rows → insideRegion (some (rb, rz)) (off r) L = true) →
      ∃ t, exec (.gather md n) s = .next t ∧ t.mem = s.mem ∧ t.mds = v.mds ∧
        (t.fab md).inbox = (v.fab md).inbox ++ (List.range h.rows).map (fun r =>
          msg t (emaxOf ((v.readMem md (off r) L).drop (L - ceilDiv L 129))) (v.readMem md (off r) L))) ∧
    ((∃ r, r < h.rows ∧ insideRegion (some (rb, rz)) (off r) L = false) →
      ∃ t, exec (.gather md n) s = .next t ∧ t.mem = s.mem ∧ t.mds = v.mds ∧ bit (t.reg md .mdaErr) 9 = true ∧
        ∃ rest, (t.fab md).inbox = (v.fab md).inbox ++ (List.range h.rows).map (fun _ =>
          msg t 0 (List.replicate (L - ceilDiv L 129) 0#8 ++ List.replicate (ceilDiv L 129) 0xFF#8)) ++ rest)

/-- A command of a memory die that is not the next of its opcode in turn changes nothing; one whose header is not well
formed fails with FORMAT and changes no byte (R239, R240). -/
def Claim.MemoryCommandForm : Prop :=
  ∀ (s : State) (md n cc : Nat) (units : List Nat), 32 ≤ md → md < 36 →
    ∀ r ∈ [(1, Instr.attend md n units cc), (2, .commit md n), (3, .rqOpen md n), (4, .rqRelease md n), (5, .gather md n)],
      (s.takeCmd md n r.1 = none → exec r.2 s = .next s) ∧
      ∀ c v, s.takeCmd md n r.1 = some (c, v) → headerOk c.bytes = false →
        ∃ t, exec r.2 s = .next t ∧ t.mem = s.mem ∧ bit (t.reg md .mdaErr) 0 = true ∧
          (t.md md).cmds = (s.md md).cmds.eraseIdx n ∧ (t.md md).pages = (s.md md).pages

/-- The patrol scrub (R231), MDA_LOCK and the layer table (R262, R270): HBM_SCRUB_BURST moves its stack's position on,
corrects the correctable codewords of the burst and changes no byte; MDA_LOCK sets LOCK; a whole entry that
R270 does not refuse is what the layer table then holds; while a request is open a write is an access error without
effect. -/
def Claim.ScrubAndLayerTable : Prop :=
  ∀ (s : State) (md L : Nat) (ws : List Word64), 32 ≤ md → md < 36 → L < 4096 →
    (∃ t, exec (.hbmScrubBurst md 0) s = .next t ∧ t.mem = s.mem ∧
      (t.md md).scrub0 = ((s.md md).scrub0 + 1) % burstsPerStack ∧ (t.md md).scrub1 = (s.md md).scrub1 ∧
      ∀ e ∈ s.hbmErrs md (burstAt 0 (s.md md).scrub0) 64, e.2 = 1 → Tab.get 0 t.memErr (pkgAddr md e.1 / 8) = 0) ∧
    (∃ t, exec (.hbmScrubBurst md 1) s = .next t ∧ t.mem = s.mem ∧
      (t.md md).scrub1 = ((s.md md).scrub1 + 1) % burstsPerStack ∧ (t.md md).scrub0 = (s.md md).scrub0) ∧
    (∃ t, exec (.mdaLock md) s = .next t ∧ bit (t.reg md .mdaCtl) 31 = true ∧ t.mem = s.mem ∧ t.mds = s.mds) ∧
    (ws.length = 16 →
      s.ltabRefused md L (fun i => match ws[i]? with | some v => v.toNat | none => s.reg md .mdaLtab L i) = false →
      ∃ t, exec (.ltabWrite md L 0 ws) s = .next t ∧ t.resp.status = 0 ∧ t.mem = s.mem ∧ t.mds = s.mds ∧
        ∀ i, i < 16 → t.reg md .mdaLtab L i = (ws.getD i 0).toNat) ∧
    (∀ n, n < 16384 → bit (s.reg md .mdaRqt n 0) 63 = true →
      ∃ t, exec (.ltabWrite md L 0 ws) s = .next t ∧ t = { s with resp := t.resp } ∧ t.resp.status = 2)

/-- Appends and commits. -/
def Obligations.AppendsAndCommits : Prop := Claim.Appends ∧ Claim.Commits

/-- The form of a memory command, the scrub and the layer table. -/
def Obligations.MemoryUpkeep : Prop := Claim.MemoryCommandForm ∧ Claim.ScrubAndLayerTable

/-- Attention and gathers. -/
def Obligations.AttentionRows : Prop := Claim.Attention ∧ Claim.Gathers
/-! ## The serving engine -/

/-- SUBMIT and GEN (R275, R278, R424, R426, R436): a good entry whose checks all pass takes the lowest FREE slot, which
becomes OPENING with RQ_OPEN awaited from all four memory dies, and completes with OK and the slot; one that only QUOTA, KV
or TIME keeps back, and could pass later, is queued if it asks for it; one whose parameters fail completes with PARAM. -/
def Obligations.Submissions : Prop :=
  ∀ (s : State) (fn q id : Nat) (b : List Byte) (cp1 : Bool), s.Takes fn q cp1 1 id b →
    let c : Instr := if cp1 then .gen fn q else .submit fn q
    let x := if cp1 then genSlot fn b else submitSlot fn b
    let ctx := s.cmdCtx fn (numAt b 4 2)
    5 ≤ x.rsz → x.rsz ≤ 13 → x.ring % 4096 = 0 → x.outmax + 1 ≤ 2 ^ x.rsz →
    (s.paramOk x = false → ∃ t, exec c s = .next t ∧ s.Posts t fn q id b 2 1 ∧ t.srv = s.srv ∧ t.mem = s.mem) ∧
    ∀ k, s.paramOk x = true → x.plen + x.maxnew ≤ 16777216 → s.freeSlot = some k → s.fld 38 .srvCtl 31 31 = 1 →
      2 ≤ s.fld 38 .wagStat 31 29 →
      (s.waitChecks x ctx = none → ∃ t, exec c s = .next t ∧ s.Posts t fn q id b 0 k ∧ t.sstate k = 1 ∧ t.sctx k = ctx ∧
        t.generated k = 0 ∧ t.ackedOf k = 0 ∧ (t.slot k).block = x.block ∧ (t.slot k).fn = fn ∧ (t.slot k).openWait = 15 ∧
        (∀ j, j ≠ k → t.slot j = s.slot j) ∧ t.srv.queue = s.srv.queue ∧ t.mem = s.mem) ∧
      (∀ r, s.waitChecks x ctx = some r → x.flag 3 = true →
        (r = 0x06 → s.areaFits x = true ∧ s.kvFits x true = true) → (r = 0x07 → s.timeAlone x = false) →
        ∃ t, exec c s = .next t ∧ s.Posts t fn q id b 1 (k + 65536) ∧ t.sstate k = 7 ∧ t.sctx k = ctx ∧
          (t.slot k).block = x.block ∧ t.srv.queue = s.srv.queue ++ [k] ∧ t.mem = s.mem) ∧
      (∀ r, s.waitChecks x ctx = some r → x.flag 3 = false →
        ∃ t, exec c s = .next t ∧ s.Posts t fn q id b 2 r ∧ t.srv = s.srv ∧ t.mem = s.mem)

/-- Ending and acknowledging a request (R275, R276, R297, R309, R447, R451): a CANCEL by who may touch the slot, as a
register write or a command, ends a request in PREFILL, DECODE or PAUSED (ENDING, REASON CANCEL) and takes a queued one out
of the queue; an ACK within what was generated adds to ACKED, and a larger one changes nothing. -/
def Claim.CancelAndAck : Prop :=
  ∀ (s : State) (k : Nat), k < 16384 →
    let ended (t : State) : Prop := t.sstate k = 5 ∧ t.fld 38 .srvSlot0 50 43 k = 0x14 ∧ t.generated k = s.generated k
    let running : Prop := s.sstate k = 2 ∨ s.sstate k = 3 ∨ s.sstate k = 4
    (∀ who, s.mayTouch who k = true →
      (running → ∃ t, exec (.slotCancel who k) s = .next t ∧ t.resp.status = 0 ∧ ended t) ∧
      (s.sstate k = 7 → ∃ t, exec (.slotCancel who k) s = .next t ∧ t.resp.status = 0 ∧ t.sstate k = 0 ∧ k ∉ t.srv.queue) ∧
      (s.sstate k = 1 → ∃ t, exec (.slotCancel who k) s = .next t ∧ t.sstate k = 1 ∧ (t.slot k).cancel = true) ∧
      ∀ n, n < 8192 →
        (n ≤ s.generated k - s.ackedOf k → ∃ t, exec (.slotAck who k n) s = .next t ∧ t.resp.status = 0 ∧
          t.ackedOf k = s.ackedOf k + n ∧ t.generated k = s.generated k) ∧
        (s.generated k - s.ackedOf k < n → ∃ t, exec (.slotAck who k n) s = .next t ∧ t.resp.status = 2 ∧ t.srv = s.srv ∧
          t.ackedOf k = s.ackedOf k)) ∧
    (∀ fn q id b, s.mayTouch (whoOf fn) k = true →
      (∀ cp1 : Bool, s.Takes fn q cp1 2 id b → numAt b (if cp1 then 4 else 20) (if cp1 then 2 else 4) = k →
        let c : Instr := if cp1 then .cp1Abort fn q else .cp2Cancel fn q
        (running → ∃ t, exec c s = .next t ∧ ended t ∧ s.Posts t fn q id b 0 0) ∧
        ((s.sstate k = 0 ∨ s.sstate k = 5 ∨ s.sstate k = 6) →
          ∃ t, exec c s = .next t ∧ t.srv = s.srv ∧ s.Posts t fn q id b 0x0C 0)) ∧
      (s.Takes fn q false 4 id b → numAt b 20 4 = k → numAt b 24 8 ≤ s.generated k - s.ackedOf k → s.sstate k ≠ 0 →
        ∃ t, exec (.cp2Ack fn q) s = .next t ∧ t.ackedOf k = s.ackedOf k + numAt b 24 8 ∧ s.Posts t fn q id b 0 0) ∧
      (pairExists fn 0 = true → ∀ n, n ≤ s.generated k - s.ackedOf k → n < 8192 →
        ∃ t, exec (.cmdAckdb fn (BitVec.ofNat 64 (k + n <<< 32))) s = .next t ∧ t.resp.status = 0 ∧
          t.ackedOf k = s.ackedOf k + n))

/-- Drafts (R291, R292): DRAFT of an open slot reads its record from host memory; a write to a slot's draft window stores
its bytes there and nowhere else; from a function of another context it is refused. -/
def Claim.Drafts : Prop :=
  ∀ (s : State) (k : Nat), k < 16384 →
    (∀ fn q id b, s.Takes fn q false 3 id b → numAt b 20 4 = k → s.mayTouch (whoOf fn) k = true → s.sstate k ≠ 0 →
      8 ≤ numAt b 16 4 → numAt b 16 4 ≤ 256 → numAt b 16 4 % 4 = 0 →
      ∃ t, exec (.draft fn q) s = .next t ∧ t.srv = s.srv ∧ t.mem = s.mem ∧ ∃ r ∈ t.host.reads,
        r.fn = fn ∧ r.addr = numAt b 8 8 ∧ r.len = numAt b 16 4 ∧ r.use = .draft fn q id k) ∧
    (∀ who off bs, off + bs.length ≤ 256 →
      (s.mayTouch who k = true → ∃ t, exec (.draftWindowWrite who k off bs) s = .next t ∧ t.resp.status = 0 ∧ t.srv = s.srv ∧
        t.readMem 38 (draftOff k + off) bs.length = bs ∧
        ∀ a, ¬(pkgAddr 38 (draftOff k + off) ≤ a ∧ a < pkgAddr 38 (draftOff k + off) + bs.length) →
          t.readByte a = s.readByte a) ∧
      (s.mayTouch who k = false → ∃ t, exec (.draftWindowWrite who k off bs) s = .next t ∧ t.resp.status = 2 ∧
        t.srv = s.srv ∧ t.mem = s.mem))

/-- Records and injections (R275, R283, R284): the last OK of the four RQ_OPENs makes an OPENING slot PREFILL (PAUSED
while its output ring has no room); the last RQ_RELEASE record makes it FREE; a COMMIT record is no longer awaited.
INJECTION sends the next ready slot's decode row or prompt chunk; with none ready it changes nothing. An injection that
samples nothing leaves with INJECTION_FINISH; an ENDING slot with nothing in flight begins its releases. -/
def Claim.Injections : Prop :=
  ∀ (s : State) (k : Nat), k < 16384 →
    (∀ md b rest, 32 ≤ md → md < 36 → s.srv.records = (md, b) :: rest → numAt b 2 2 = k → byteAt b 0 = 0 →
      (byteAt b 1 = 3 → s.sstate k = 1 → (s.slot k).openWait = 2 ^ (md - 32) → (s.slot k).openBad = false →
        (s.slot k).cancel = false → ((s.slot k).late && (s.slot k).dropLate) = false → ∃ t, exec .completionRecord s = .next t ∧ (t.sstate k = 2 ∨ t.sstate k = 4) ∧
          t.srv.records = rest ∧ t.mem = s.mem) ∧
      (byteAt b 1 = 4 → s.sstate k = 6 → (s.slot k).relWait = 2 ^ (md - 32) → k ∉ s.srv.queue →
        ∃ t, exec .completionRecord s = .next t ∧ t.sstate k = 0 ∧ t.srv.records = rest ∧ t.mem = s.mem) ∧
      (byteAt b 1 = 2 → bit (s.slot k).comWait (md - 32) = true → ∃ t, exec .completionRecord s = .next t ∧
        (t.slot k).comWait = (s.slot k).comWait - 2 ^ (md - 32) ∧ t.srv.records = rest ∧ t.mem = s.mem)) ∧
    (s.nextSlot = none → exec .injection s = .next s) ∧
    (s.nextSlot = some k → s.sstate k = 3 → (s.slot k).flag 1 = false →
      ∃ t, exec .injection s = .next t ∧ (t.slot k).inj = some ⟨1, 1, s.spos k, true⟩ ∧ t.srv.last = k ∧
        t.srv.due = s.srv.due ++ [(k, 0)] ∧ t.sstate k = 3 ∧ t.mem = s.mem) ∧
    (s.nextSlot = some k → s.sstate k = 2 →
      let toks := (s.slot k).chunk.getD []
      let last := decide ((s.slot k).plen ≤ (s.slot k).prompt + toks.length)
      ∃ t, exec .injection s = .next t ∧ (t.slot k).inj = some ⟨0, toks.length, (s.slot k).prompt, last⟩ ∧
        (t.slot k).prompt = (s.slot k).prompt + toks.length ∧ (t.slot k).chunk = none ∧ t.srv.last = k ∧
        t.srv.due = s.srv.due ++ (if last then [(k, toks.length - 1)] else []) ∧ t.mem = s.mem) ∧
    (∀ j, (s.slot k).inj = some j → j.kind = 0 → j.last = false →
      ∃ t, exec (.injectionFinish k) s = .next t ∧ (t.slot k).inj = none ∧ t.srv.due = s.srv.due ∧ t.mem = s.mem) ∧
    (s.sstate k = 5 → (s.slot k).inj = none → (s.slot k).comWait = 0 →
      ∃ t, exec (.slotRelease k) s = .next t ∧ t.sstate k = 6 ∧ (t.slot k).relWait = 15 ∧ t.mem = s.mem)

/-- Tokens (R275 to R277, R288, R293, R296, R298, R299, R301): FORAGER_DRAW of a row of a running slot takes the row's
candidates and hands on the first of them (GREEDY; its log-probability is free, log entry 60) or the one that R288 draws;
with its first token a request is in DECODE; a poisoned row ends it. TOKEN_COMMIT writes the oldest drawn token out, its
position and count with it, also of a request that ended after it was drawn (R276); a stop token or the last token ends the
request. TTFT_DEADLINE marks a late CP1 request, and ends it if it asked for that and runs. -/
def Obligations.Tokens : Prop :=
  ∀ (s : State) (k : Nat), k < 16384 →
    let running : Prop := s.sstate k = 2 ∨ s.sstate k = 3
    let x := s.slot k
    (∀ ls row rest j, s.frontLists = some ls → s.srv.due = (k, row) :: rest → x.inj = some j → running → x.tree = none →
      let cs := mergeCands ls (min x.topk s.vocab)
      let i := if x.flag 0 then 0 else (drawToken x (j.pos + row + 1) cs).1
      (ls.any listPoison = false → cs ≠ [] → finite32 (cs.getD 0 ⟨0, 0⟩).z = true →
        ∃ t d, exec .foragerDraw s = .next t ∧ t.srv.due = rest ∧ t.srv.drawn = s.srv.drawn ++ [d] ∧ d.slot = k ∧
          d.tok = (cs.getD i ⟨0, 0⟩).tok ∧ d.pos = j.pos + row + 1 ∧ d.tree = false ∧ t.sstate k = 3 ∧ t.mem = s.mem ∧
          (x.flag 0 = false → d.lp = (drawToken x (j.pos + row + 1) cs).2)) ∧
      (ls.any listPoison = true → ∃ t, exec .foragerDraw s = .next t ∧ t.sstate k = 5 ∧
        t.fld 38 .srvSlot0 50 43 k = 0x12 ∧ t.srv.due = rest ∧ t.srv.drawn = s.srv.drawn)) ∧
    (∀ d rest, s.srv.drawn = d :: rest → d.slot = k →
      let stop := (List.range 4).any (fun i => decide (x.stop i = d.tok))
      let out (t : State) : Prop := t.srv.drawn = rest ∧ t.generated k = (s.generated k + 1) % 2 ^ 24 ∧
        t.spos k = d.pos % 2 ^ 24 ∧ (t.slot k).cur = d.tok ∧ t.mem = s.mem ∧
        (x.mute = false → ∃ bs, HostOut.write (fnPort x.fn) (x.ring + 32 * (x.recs % 2 ^ x.rsz)) bs ∈ t.host.out)
      (running → 0 < x.maxnew → x.maxnew < 2 ^ 24 → ∃ t, exec .tokenCommit s = .next t ∧ out t ∧
        (stop = true → t.sstate k = 5 ∧ t.fld 38 .srvSlot0 50 43 k = 0x16) ∧
        (stop = false → s.generated k + 1 = x.maxnew → t.sstate k = 5 ∧ t.fld 38 .srvSlot0 50 43 k = 0x17) ∧
        (stop = false → s.generated k + 1 ≠ x.maxnew → t.sstate k = s.sstate k ∨ t.sstate k = 4)) ∧
      (s.sstate k = 5 → x.owed = true → ∃ t, exec .tokenCommit s = .next t ∧ out t ∧ t.sstate k = 5 ∧
        t.fld 38 .srvSlot0 50 43 k = s.fld 38 .srvSlot0 50 43 k)) ∧
    (∀ h, s.hc ≤ h → x.cp1 = true → s.generated k = 0 → x.deadline ≤ usBetween x.acceptHc h → s.sstate k ≠ 0 →
      ∃ t, exec (.ttftDeadline k h) s = .next t ∧ (t.slot k).late = true ∧ t.hc = h ∧
        ((x.dropLate = false ∨ s.sstate k = 1 ∨ s.sstate k = 7) → t.sstate k = s.sstate k) ∧
        (x.dropLate = true → (running ∨ s.sstate k = 4) → t.sstate k = 5 ∧ t.fld 38 .srvSlot0 50 43 k = 0x15))

/-- COST_WRITE and QUOTA_WRITE (R305, R456, R458): the cost, or the quota, of a write is loaded, INUSE apart; a quota above
16,384 slots or injections is an access error without effect. -/
def Claim.CostsAndQuotas : Prop :=
  ∀ (s : State) (ctx : Nat) (v : Word64), ctx < 1024 → (∀ k ∈ s.srv.queue, k < 16384) →
    (∃ t, exec (.costWrite 0 v) s = .next t ∧ t.reg 38 .srvCosta = v.toNat ∧ t.resp.status = 0 ∧ t.mem = s.mem) ∧
    (∃ t, exec (.costWrite 1 v) s = .next t ∧ t.reg 38 .srvCostb = v.toNat ∧ t.resp.status = 0 ∧ t.mem = s.mem) ∧
    (bits v.toNat 62 48 ≤ 16384 → bits v.toNat 46 32 ≤ 16384 → ∃ t, exec (.quotaWrite ctx 0 v) s = .next t ∧
      t.resp.status = 0 ∧ bit (t.reg 38 .secQuotaa ctx) 63 = bit v.toNat 63 ∧
      t.fld 38 .secQuotaa 62 48 ctx = bits v.toNat 62 48 ∧ t.fld 38 .secQuotaa 46 32 ctx = bits v.toNat 46 32) ∧
    ((16384 < bits v.toNat 62 48 ∨ 16384 < bits v.toNat 46 32) → ∃ t, exec (.quotaWrite ctx 0 v) s = .next t ∧
      t = { s with resp := t.resp } ∧ t.resp.status = 2) ∧
    (∃ t, exec (.quotaWrite ctx 1 v) s = .next t ∧ t.resp.status = 0 ∧
      t.fld 38 .secQuotab 21 0 ctx = bits v.toNat 21 0 ∧ t.fld 38 .secQuotab 53 32 ctx = bits v.toNat 53 32)

/-- CANCEL, ACK and drafts. -/
def Obligations.SlotCommands : Prop := Claim.CancelAndAck ∧ Claim.Drafts

/-- Injections, costs and quotas. -/
def Obligations.Scheduling : Prop := Claim.Injections ∧ Claim.CostsAndQuotas
/-! ## The host ports -/

/-- Queue pairs (R417, R418, R422, R445): SQ_FETCH reads the next entry of an ACTIVE pair while its completion queue has
room; a doorbell inside its queue loads the tail or frees consumed entries, one beyond it puts the pair in ERROR; EN set on
a DISABLED pair with good sizes makes it ACTIVE and empty; EN cleared drains it, and an empty pair is DISABLED at once. -/
def Obligations.HostQueues : Prop :=
  ∀ (s : State) (fn q : Nat) (v : Word64), pairExists fn q = true →
    let p := s.pair fn q
    let room := p.cmds.length + (p.posted - p.consumed) < s.cqSize fn q
    let base := bits (s.reg (38 + fnPort fn) .cmdSqb (fnNo fn) q) 63 12 * 4096
    (s.qstate fn q = 1 → p.tail ≠ p.fetched % s.sqSize fn q → room → ∃ t, exec (.sqFetch fn q) s = .next t ∧
      (t.pair fn q).fetched = p.fetched + 1 ∧ (t.pair fn q).cmds = p.cmds ++ [{ id := p.fetched }] ∧ t.mem = s.mem ∧
      ∃ r ∈ t.host.reads, r.fn = fn ∧ r.addr = base + s.entrySize fn q * (p.fetched % s.sqSize fn q) ∧
        r.len = s.entrySize fn q ∧ r.use = .entry fn q p.fetched) ∧
    ((s.qstate fn q ≠ 1 ∨ p.tail = p.fetched % s.sqSize fn q ∨ ¬room) → exec (.sqFetch fn q) s = .next s) ∧
    (s.qstate fn q = 1 → v.toNat % 4096 < s.sqSize fn q → ∃ t, exec (.cmdSqtdb fn q v) s = .next t ∧
      t.pair fn q = { p with tail := v.toNat % 4096 } ∧ t.qstate fn q = 1 ∧ t.mem = s.mem) ∧
    (s.qstate fn q = 1 → s.sqSize fn q ≤ v.toNat % 4096 → ∃ t, exec (.cmdSqtdb fn q v) s = .next t ∧
      t.pair fn q = p ∧ t.qstate fn q = 2) ∧
    (∀ n, s.qstate fn q = 1 → n ≤ p.posted - p.consumed → n < s.cqSize fn q →
      v.toNat % 4096 = (p.consumed + n) % s.cqSize fn q → ∃ t, exec (.cmdCqhdb fn q v) s = .next t ∧
        t.pair fn q = { p with consumed := p.consumed + n } ∧ t.qstate fn q = 1 ∧ t.mem = s.mem) ∧
    (s.qstate fn q ≠ 1 → ∃ t u, exec (.cmdSqtdb fn q v) s = .next t ∧ exec (.cmdCqhdb fn q v) s = .next u ∧
      t = { s with resp := t.resp } ∧ u = { s with resp := u.resp }) ∧
    (s.qstate fn q = 0 → bit (s.qcfg fn q) 31 = false → sizeOk fn (bits v.toNat 7 4) = true →
      sizeOk fn (bits v.toNat 3 0) = true → (fnNo fn ≠ 0 → s.fld (38 + fnPort fn) .cmdVfctx 31 31 (fnNo fn - 1) = 1) →
      ∃ t, exec (.queueEnable fn q v) s = .next t ∧ t.resp.status = 0 ∧ t.qstate fn q = 1 ∧ t.pair fn q = {} ∧
        t.isCp1 fn q = bit v.toNat 30 ∧ t.sqSize fn q = 2 ^ bits v.toNat 7 4 ∧ t.cqSize fn q = 2 ^ bits v.toNat 3 0) ∧
    (bit (s.qcfg fn q) 31 = true → ∃ t, exec (.queueDisable fn q v) s = .next t ∧ t.resp.status = 0 ∧
      bit (t.qcfg fn q) 31 = false ∧ (∀ w ∈ t.host.waits, ¬(w.1 = fn ∧ w.2.1 = q)) ∧ t.mem = s.mem ∧
      (p.cmds = [] → t.qstate fn q = 0) ∧ (∀ c ∈ p.cmds, (fn, q, c.id) ∉ s.host.waits → t.qstate fn q = 3))

/-- The register commands (R428, R436): inside the own package the access is made and its status and data complete the
command, at once or, where the access is on its way as a request (log entry 41), with the answer; a physical function's access to another package becomes one request of the host port, and the command waits for
its answer; a virtual function's is refused. -/
def Claim.RegisterCommands : Prop :=
  ∀ (s : State) (fn q id : Nat) (b : List Byte) (cp1 w : Bool),
    s.Takes fn q cp1 (match cp1, w with | false, false => 0x10 | false, true => 0x11 | true, false => 3 | true, true => 4) id b →
    let c : Instr := match cp1, w with
      | false, false => .regRead fn q | false, true => .regWrite fn q | true, false => .rdreg fn q | true, true => .wrreg fn q
    let addr := numAt b (if cp1 then 8 else 24) 8
    let len := if cp1 then 4 else p0Width b
    let data := if w then some ((b.drop (if cp1 then 16 else 32)).take len) else none
    let d := 38 + fnPort fn
    (addrPkg addr = s.pkgId d →
      let r := s.cmdAccess fn (.regCmd fn q id) addr len data
      let u := if r.1 = isoStatus then r.2.2.isolation (whoOf fn) addr else r.2.2
      u.host.pairs = s.host.pairs →
      (r.1 ≠ waitStatus → ∃ t, exec c s = .next t ∧ t.mem = r.2.2.mem ∧ t.resp = s.resp ∧
        u.Posts t fn q id b (cp2Status r.1) (if w ∨ (r.1 ≠ 0 ∧ r.1 ≠ 4) then 0 else ofBytes r.2.1)) ∧
      (r.1 = waitStatus → ∃ t, exec c s = .next t ∧ t.mem = r.2.2.mem ∧ t.fabs = r.2.2.fabs ∧
        (t.pair fn q).cmds = (s.pair fn q).cmds.map (fun x => if x.id = id then { x with started := true } else x))) ∧
    (∀ g, addrPkg addr ≠ s.pkgId d → fnNo fn = 0 → addrDie addr < 40 → (s.fab d).freeTag 0 = some g →
      ∃ t, exec c s = .next t ∧ t.mem = s.mem ∧ (t.fab d).reqs = (s.fab d).reqs ++ [
          { unit := 0, tag := g, gen := Tab.get 0 (s.fab d).gens g, read := !w, remote := true, at_ := s.hc
            use := .regCmd fn q id, len }] ∧
        (t.fab d).inbox = (s.fab d).inbox ++ [{ accessMsg addr len data with
          unit := 0
          tag := g
          gen := Tab.get 0 (s.fab d).gens g
          sdie := d
          spkg := s.pkgId d }]) ∧
    (addrPkg addr ≠ s.pkgId d → fnNo fn ≠ 0 → ∃ t, exec c s = .next t ∧ t.mem = s.mem ∧ t.fabs = s.fabs)

/-- MEM_READ and MEM_WRITE (R427): a MEM_READ of one message inside the own package that is performed brings the bytes to
the host and completes with their count; a MEM_WRITE first reads its data from the host, in messages that do not cross
4 KiB; an address or length that is no multiple of 64 completes with FIELD. -/
def Claim.MemoryMoves : Prop :=
  ∀ (s : State) (fn q id : Nat) (b : List Byte) (w : Bool), (∀ m ∈ s.host.moves, ¬(m.fn = fn ∧ m.q = q)) →
    s.Takes fn q false (if w then 0x12 else 0x13) id b →
    let c : Instr := if w then .memWrite fn q else .memRead fn q
    let a := numAt b 24 8
    let h := numAt b 8 8
    let n := numAt b 16 4
    let fits := a % 64 = 0 ∧ h % 64 = 0 ∧ n % 64 = 0 ∧ 64 ≤ n ∧ n ≤ 1048576
    let r := (s.begun fn q id).cmdAccess fn (.move fn q id) a n none
    (¬fits → ∃ t, exec c s = .next t ∧ t.mem = s.mem ∧ s.Posts t fn q id b 4 0) ∧
    (w = false → fits → a % 4096 + n ≤ 4096 → addrPkg a = s.pkgId (38 + fnPort fn) → r.1 = 0 →
      r.2.2.host = (s.begun fn q id).host → r.2.2.qcfg fn q = s.qcfg fn q →
      r.2.2.reg (38 + fnPort fn) .cmdCqb (fnNo fn) q = s.reg (38 + fnPort fn) .cmdCqb (fnNo fn) q →
      ∃ t, exec c s = .next t ∧ t.mem = r.2.2.mem ∧ HostOut.write (fnPort fn) h r.2.1 ∈ t.host.out ∧ s.Posts t fn q id b 0 n) ∧
    (w = true → fits → bit (byteAt b 20) 0 = false → ∃ t, exec c s = .next t ∧ t.mem = s.mem ∧
      (∃ m ∈ t.host.moves, m.fn = fn ∧ m.q = q ∧ m.id = id ∧ m.read = false ∧ m.todo = pieces moveFuel a h n ∧ m.done = 0) ∧
      ∃ x ∈ t.host.reads, x.fn = fn ∧ x.addr = h ∧ x.len = min n (4096 - a % 4096) ∧ x.use = .source fn q id)

/-- EVENT_WAIT and the two NOPs (R425, R431, R435): a NOP completes with OK and does nothing else; an EVENT_WAIT waits, or
completes with the pending event of the lowest kind. -/
def Claim.EventsAndNops : Prop :=
  ∀ (s : State) (fn q id : Nat) (b : List Byte),
    (s.Takes fn q false 0x3F id b → ∃ t, exec (.nop fn q) s = .next t ∧ s.Posts t fn q id b 0 0 ∧ t.mem = s.mem ∧
      t.srv = s.srv ∧ t.cores = s.cores) ∧
    (s.Takes fn q true 5 id b → ∃ t, exec (.cp1Nop fn q) s = .next t ∧ s.Posts t fn q id b 0 0 ∧ t.mem = s.mem ∧
      t.srv = s.srv ∧ t.cores = s.cores) ∧
    (s.Takes fn q false 0x30 id b → s.qstate fn q ≠ 3 → (s.host.waits.filter (fun w => decide (w.1 = fn))).length < 4 →
      (s.host.events.find? (fun e => decide (e.1 / 8 = fn)) = none → ∃ t, exec (.eventWait fn q) s = .next t ∧
        t.host.waits = s.host.waits ++ [(fn, q, id)] ∧ t.host.out = s.host.out ∧ t.mem = s.mem) ∧
      ∀ k n d, s.host.events.find? (fun e => decide (e.1 / 8 = fn)) = some (k, n, d) → ∃ t, exec (.eventWait fn q) s = .next t ∧
        s.Posts t fn q id b 0 (k % 8 + (min n 0xFFFF) <<< 8 + (d % 2 ^ 32) <<< 32) ∧
        t.host.events = Tab.erase s.host.events k ∧ t.mem = s.mem)

/-- What the commands of the host queues do beside serving: register commands, moves, events (R425 to R431, R435). -/
def Obligations.HostCommands : Prop := Claim.RegisterCommands ∧ Claim.MemoryMoves ∧ Claim.EventsAndNops

/-- Step-program images (R429, R433): PROG_STAGE of an aligned range inside the embedding region begins a hash, and nothing
else stands staged; STAGE_HASH_DONE stages the image if its digest and its content are good, else nothing is staged and the
command completes with DIGEST; PROG_UNSTAGE leaves nothing staged. -/
def Obligations.ProgramStaging : Prop :=
  ∀ (s : State) (fn q id : Nat) (b : List Byte),
    let off := numAt b 24 8
    let len := numAt b 16 4
    let free := s.swState ≠ 3 ∧ s.swState ≠ 4 ∧ s.fld 38 .wgtSeal 30 30 = 0 ∧ s.stageState ≠ 1
    (s.Takes fn q false 0x20 id b → free → off % 65536 = 0 → off < 2 ^ 46 → len ≠ 0 → insideRegion (s.region 32 4) off len = true →
      ∃ t, exec (.progStage fn q) s = .next t ∧ t.stageState = 1 ∧ t.mem = s.mem ∧
        bits (t.reg 38 .cmdStage) 61 30 = len ∧ bits (t.reg 38 .cmdStage) 29 0 * 65536 = off ∧
        ∃ x, t.host.stage = some x ∧ x.fn = fn ∧ x.q = q ∧ x.id = id ∧ x.digest = (b.drop 64).take 48) ∧
    (s.Takes fn q false 0x20 id b → free → (off % 65536 ≠ 0 ∨ len = 0 ∨ insideRegion (s.region 32 4) off len = false) →
      ∃ t, exec (.progStage fn q) s = .next t ∧ t.stageState = 0 ∧ s.Posts t fn q id b 0x0D 0 ∧ t.mem = s.mem) ∧
    (s.Takes fn q false 0x20 id b → ¬free → ∃ t, exec (.progStage fn q) s = .next t ∧ t.stageState = s.stageState ∧
      s.Posts t fn q id b 0x0E 0 ∧ t.mem = s.mem) ∧
    (∀ x, s.host.stage = some x → x.fn = fn → x.q = q → x.id = id → pairExists fn q = true → s.memErr = [] →
      (s.pair fn q).cmds.find? (fun c => decide (c.id = id)) = some { id, bytes := some b, started := true } →
      let at_ := bits (s.reg 38 .cmdStage) 29 0 * 65536
      let img := s.readMem 32 at_ (bits (s.reg 38 .cmdStage) 61 30)
      let good : Prop := sha384 img = x.digest ∧ ∃ xs, imageSections img = some xs ∧
        xs.all (fun y => y.wellFormed) = true ∧ s.imageAccepted xs = true
      (good → ∃ t, exec .stageHashDone s = .next t ∧ t.stageState = 2 ∧ s.Posts t fn q id b 0 0 ∧ t.mem = s.mem ∧
        t.host.stage = none ∧ ∀ i, i < 6 → t.reg 38 .cmdSdig i = numAt x.digest (8 * i) 8) ∧
      (¬good → ∃ t, exec .stageHashDone s = .next t ∧ t.stageState = 0 ∧ s.Posts t fn q id b 0x0D 0 ∧ t.mem = s.mem ∧
        t.host.stage = none)) ∧
    (s.Takes fn q false 0x21 id b → s.host.stage = none →
      (s.swState ≠ 3 → s.swState ≠ 4 → ∃ t, exec (.progUnstage fn q) s = .next t ∧ t.stageState = 0 ∧
        s.Posts t fn q id b 0 0 ∧ t.mem = s.mem) ∧
      ((s.swState = 3 ∨ s.swState = 4) → ∃ t, exec (.progUnstage fn q) s = .next t ∧ t.stageState = s.stageState ∧
        s.Posts t fn q id b 0x0E 0 ∧ t.mem = s.mem))

/-- Reads of host memory (R284, R417, R439, R440): the data of an outstanding read reach what asked for them; a failed read
of an entry puts the pair in ERROR; a completion without an outstanding read is counted and ends its tag's quarantine. A
read that times out puts its tag in quarantine; HOST_TAG_RELEASE ends that after its time. -/
def Obligations.HostMemoryReads : Prop :=
  ∀ (s : State) (port tag h : Nat) (bs : List Byte), port < 2 →
    (∀ r fn q id, tag < 16384 → s.findRead port tag = some r → r.use = .entry fn q id → pairExists fn q = true →
      (bs.length = r.len → ∃ t, exec (.hostReadCompletion port tag true bs) s = .next t ∧ t.mem = s.mem ∧
        (t.pair fn q).cmds = (s.pair fn q).cmds.map (fun c =>
          if c.id = id then { c with bytes := some bs, seq := s.host.arrived } else c)) ∧
      (s.qstate fn q = 1 → ∃ t, exec (.hostReadCompletion port tag false bs) s = .next t ∧ t.qstate fn q = 2 ∧
        (t.pair fn q).cmds = (s.pair fn q).cmds.filter (fun c => decide (c.id ≠ id)) ∧ t.mem = s.mem)) ∧
    (∀ r k, tag < 16384 → s.findRead port tag = some r → r.use = .prompt k → k < 16384 →
      (∀ x ∈ s.host.reads, x.use = .prompt k → x = r) → (s.sstate k = 2 ∨ s.sstate k = 4) → bs.length = r.len →
      let toks := (List.range (bs.length / 4)).map (fun i => numAt bs (4 * i) 4)
      ((∀ x ∈ toks, x < s.vocab) → ∃ t, exec (.hostReadCompletion port tag true bs) s = .next t ∧
        (t.slot k).chunk = some toks ∧ t.sstate k = s.sstate k ∧ t.mem = s.mem) ∧
      ((∃ x ∈ toks, s.vocab ≤ x) → ∃ t, exec (.hostReadCompletion port tag true bs) s = .next t ∧ t.sstate k = 5 ∧
        t.fld 38 .srvSlot0 50 43 k = 1)) ∧
    (s.findRead port tag = none → ∃ t, exec (.hostReadCompletion port tag true bs) s = .next t ∧ t.mem = s.mem ∧
      t.fld (38 + port) .cmdHtmo 15 0 = satAdd 16 (s.fld (38 + port) .cmdHtmo 15 0) 1 ∧
      ∀ x ∈ t.host.quar, ¬(x.1 = port ∧ x.2.1 = tag)) ∧
    (∀ r n, tag < 16384 → s.findRead port tag = some r → hostLimit (Tab.get 0 s.host.devCtl2 r.fn) = some n → r.at_ + n ≤ h →
      s.hc ≤ h → ∃ t, exec (.hostReadTimeout port tag h) s = .next t ∧ t.hc = h ∧ (port, tag, h) ∈ t.host.quar ∧
        t.mem = s.mem) ∧
    (∀ x ∈ s.host.quar, x.1 = port → x.2.1 = tag → x.2.2 + s.fld (38 + port) .cmdHtmo 31 16 * 100000 ≤ h → s.hc ≤ h →
      ∃ t, exec (.hostTagRelease port tag h) s = .next t ∧ t.hc = h ∧ t.mem = s.mem ∧
        ∀ y ∈ t.host.quar, ¬(y.1 = port ∧ y.2.1 = tag))

/-- Semaphores (R9, R437, R438, R450): TAKE gives a free semaphore to its requester and changes no held one; when both ports
take in one cycle, the one that did not win last wins; GIVE by the owner and FORCE by a physical function or the BMC free
it; from anyone else they are access errors, and change no semaphore. So is every access of a virtual function (an
isolation event) and of the debug port: the registers are in view P. -/
def Claim.Semaphores : Prop :=
  ∀ (s : State) (n : Nat) (who : Who), n < 256 → who.code < 2048 →
    let same (t : State) : Prop := (∀ m, m < 256 → t.reg 38 .sem m = s.reg 38 .sem m) ∧ t.mem = s.mem ∧ t.cores = s.cores
    (inViewP who = true →
      (s.semHeld n = false → ∃ t, exec (.semTake n [who]) s = .next t ∧ t.reg 38 .sem n = 2 ^ 31 + who.code ∧ t.mem = s.mem) ∧
      (s.semHeld n = true → s.fld 38 .sem 10 0 n = who.code → ∃ t, exec (.semGive who n) s = .next t ∧ t.reg 38 .sem n = 0 ∧
        t.resp.status = 0) ∧
      ((s.semHeld n = false ∨ s.fld 38 .sem 10 0 n ≠ who.code) → ∃ t, exec (.semGive who n) s = .next t ∧
        same t ∧ t.resp.status = 2)) ∧
    (∀ whos, s.semHeld n = true → (∀ w ∈ whos, inViewP w = true) → ∃ t, exec (.semTake n whos) s = .next t ∧
      t = { s with resp := t.resp }) ∧
    (s.semHeld n = false → s.host.takeWon < 2 → ∃ t, exec (.semTake n [.pf 0, .pf 1]) s = .next t ∧
      t.host.takeWon = 1 - s.host.takeWon ∧ t.reg 38 .sem n = 2 ^ 31 + 1024 * (1 - s.host.takeWon)) ∧
    ((who = .bmc ∨ ∃ p, who = .pf p) → ∃ t, exec (.semForce who n) s = .next t ∧ t.reg 38 .sem n = 0 ∧ t.resp.status = 0) ∧
    (who = .firmware → ∃ t, exec (.semForce who n) s = .next t ∧ same t ∧ t.resp.status = 2) ∧
    (inViewP who = false → ∀ c ∈ [Instr.semTake n [who], .semGive who n, .semForce who n],
      ∃ t, exec c s = .next t ∧ same t ∧ t.resp.status = 2 ∧
        ((∃ p f, who = .vf p f) → t.fld 38 .secIso 15 0 = satAdd 16 (s.fld 38 .secIso 15 0) 1))

/-- FUNCTION_LEVEL_RESET (R412, R422) of a virtual function: its pairs are disabled and empty, its events, waits and moves
are gone, its running requests end, and its semaphores are free. -/
def Claim.FunctionReset : Prop :=
  ∀ (s : State) (fn : Nat), fnPort fn < 2 → fnNo fn ≠ 0 → fnNo fn ≤ 512 →
    (∀ e ∈ s.srv.slots, e.1 < 16384) → (∀ k ∈ s.srv.queue, k < 16384 ∧ s.sstate k = 7) →
    ∃ t, exec (.functionLevelReset fn) s = .next t ∧ t.mem = s.mem ∧
      (∀ q, q < 64 → t.pair fn q = {} ∧ t.qstate fn q = 0) ∧ (∀ w ∈ t.host.waits, w.1 ≠ fn) ∧
      (∀ m ∈ t.host.moves, m.fn ≠ fn) ∧
      (∀ k, k ∈ s.slotList → (s.slot k).fn = fn → (s.sstate k = 2 ∨ s.sstate k = 3 ∨ s.sstate k = 4) → t.sstate k = 5) ∧
      (∀ n, n < 256 → s.semHeld n = true → s.fld 38 .sem 10 0 n = fn → t.semHeld n = false)

/-- Apertures and configuration requests (R410, R414, R415, R465, R599): a TLP through a disabled aperture, or that failed
its IDE check, reaches nothing; a read of the own package is answered with what it read, or waits for the answer of its
request (log entry 41); before its port is ready a function
answers with Retry; after, a read gives its dword, and a write of Device Control 2 is kept. -/
def Claim.HostAccesses : Prop :=
  ∀ (s : State) (port n a tag len : Nat), port < 2 → n < 16 → a < 2 ^ 26 →
    let v := s.reg (38 + port) .cmdAper n
    let addr := bits v 63 26 * 2 ^ 26 + a
    (∀ w, w.all (fun bs : List Byte => decide (bs.length = len)) = true →
      (∀ i, ∃ t, exec (.apertureAccess port n a tag len w (some i)) s = .next t ∧ t.mem = s.mem ∧ t.srv = s.srv ∧
        t.fld 38 .secIso 30 16 = satAdd 15 (s.fld 38 .secIso 30 16) 1) ∧
      (bit v 0 = false → ∃ t, exec (.apertureAccess port n a tag len w none) s = .next t ∧ t.mem = s.mem ∧ t.srv = s.srv ∧
        t.cores = s.cores ∧ (w = none → HostOut.tlp (1024 * port) tag 0 (List.replicate len 0#8) ∈ t.host.out))) ∧
    (bit v 0 = true → addrPkg addr = s.pkgId (38 + port) →
      let r := s.mmio (.pf port) (.tlp (1024 * port) tag addr) (addrDie addr) (addrOff addr) len none
      ∃ t, exec (.apertureAccess port n a tag len none none) s = .next t ∧ t.mem = r.mem ∧
        (r.resp.status ≠ waitStatus → HostOut.tlp (1024 * port) tag 0 (if r.resp.data.length = len then r.resp.data else List.replicate len 0#8) ∈ t.host.out) ∧
        (r.resp.status = waitStatus → t = r)) ∧
    (∀ f off, f ≤ 512 → off < 4096 →
      let fn := 1024 * port + f
      (∀ w, bit s.plat.ready port = false → ∃ t, exec (.configurationRequest fn tag off w) s = .next t ∧
        t.host.out = s.host.out ++ [.tlp fn tag 2 []] ∧ t.host.devCtl2 = s.host.devCtl2) ∧
      (bit s.plat.ready port = true → ∃ t, exec (.configurationRequest fn tag off none) s = .next t ∧
        t.host.out = s.host.out ++ [.tlp fn tag 0 (toBytes 4 (s.configDword fn (off / 4 * 4)))] ∧ t.mem = s.mem) ∧
      (∀ x : Word32, bit s.plat.ready port = true → off = devCtl2At →
        ∃ t, exec (.configurationRequest fn tag off (some x)) s = .next t ∧ t.mem = s.mem ∧
          Tab.get 0 t.host.devCtl2 fn = x.toNat % 65536))

/-- Semaphores, function resets, apertures and configuration requests (R410 to R415, R422, R437, R438, R465). -/
def Obligations.HostUnits : Prop := Claim.Semaphores ∧ Claim.FunctionReset ∧ Claim.HostAccesses

/-- The registers that raising a bit of PFAB_ERR of a die at link `l` may write: PFAB_ERR, its record, and the event ring of the
link (R375, R376, R618). -/
def FabErrWrites (die l a : Nat) : Prop :=
  a = pkgAddr die (Reg.off ⟨.pfabErr, 0, 0⟩) ∨ a = pkgAddr die (Reg.off ⟨.pfabErrinfo, 0, 0⟩) ∨
  a = pkgAddr die (Reg.off ⟨(linkRing die l).stat.1, (linkRing die l).stat.2, 0⟩) ∨
  ∃ j, j < 128 ∧ a = pkgAddr die (Reg.off ⟨(linkRing die l).fam, (linkRing die l).stat.2, j⟩)

/-- Register and buffer accesses (R6 to R9, R112, R113, R336, R413, R415), where the path of the accessor leads there and nothing
holds the access up on its way (log entry 41): a read of a register in view returns its readable
fields and then clears its RC fields; a write of a register without a rule of its own loads the fields that its access codes
let; a write of a core buffer's bytes is made while the core is STOPPED, and is an access error without effect otherwise. An
access of firmware to its own die that no register's place, width and alignment fit changes nothing but PFAB_ERR, its record and
the event, and answers zeros. A virtual function whose BARs do not lead there reads zeros, and that is an isolation event. -/
def Obligations.RegisterAccesses : Prop :=
  ∀ (s : State) (who : Who) (die off width : Nat) (v : Word64), die < 40 →
    (barReaches who die off = true → (die = s.dieOf who ∨ (s.tagAtOnce (s.accessor who) die).isSome = true) →
      (∀ r, findReg die off (width / 8) = some (.ok r) → s.inView (s.accessor who) die r = true → who ≠ .jtag →
        let home := r.home die
        (s.readsMirror die r = false → r.fam ∉ [RegFam.dbgRingc, .dbgRingu, .dbgRstatc, .dbgRstatu] →
          ∃ t, exec (.readClear who die off width) s = .next t ∧ t.resp.status = 0 ∧
            t.resp.data = toBytes (r.fam.shape.width / 8) (s.live home r (s.reg home r.fam r.i r.j) &&& r.fam.readMask) ∧
            t.reg home r.fam r.i r.j = r.fam.readCleared (s.reg home r.fam r.i r.j) ∧ t.mem = s.mem ∧ t.cores = s.cores) ∧
        (s.readsMirror die r = true → ∃ t, exec (.readClear who die off width) s = .next t ∧ t.resp.status = 0 ∧
          t.csr = s.csr ∧ t.mem = s.mem ∧ t.cores = s.cores) ∧
        (r.fam ∈ [RegFam.coreSoft, .coreWdog, .monQhThr] → ∃ t, exec (.registerWrite who die off width v) s = .next t ∧
          t.resp.status = 0 ∧ t.mem = s.mem ∧ t.cores = s.cores ∧
          t.reg home r.fam r.i r.j = r.fam.written (s.reg home r.fam r.i r.j) (v.toNat % 2 ^ r.fam.shape.width))) ∧
      (die < 32 → off < 0x2000000 → (width = 32 ∨ width = 64) → off % (width / 8) = 0 → s.whoCtx who = none → who ≠ .jtag →
        (s.coreState die (off / 65536) = 0 → ∃ t, exec (.registerWrite who die off width v) s = .next t ∧
          t.resp.status = 0 ∧ t.readMem die off (width / 8) = toBytes (width / 8) v.toNat ∧
          ∀ a, ¬(pkgAddr die off ≤ a ∧ a < pkgAddr die off + width / 8) → t.readByte a = s.readByte a) ∧
        (s.coreState die (off / 65536) ≠ 0 → ∃ t, exec (.registerWrite who die off width v) s = .next t ∧
          t.resp.status = 2 ∧ t.mem = s.mem ∧ t.cores = s.cores ∧ bit (t.reg die .pfabErr) 1 = true))) ∧
    (∀ r, die = s.dieOf .firmware → regOver die off = some r → r.defined = true → r.isEntry die off (width / 8) = false →
      r.fits die off (width / 8) = false →
      let refused (t : State) (bs : List Byte) : Prop := t = { s with
          csr := t.csr
          rings := t.rings
          resp := ⟨2, bs⟩ } ∧ bit (t.reg die .pfabErr) 1 = true ∧
        ∀ a, ¬FabErrWrites die 0 a → Tab.get 0#64 t.csr a = Tab.get 0#64 s.csr a
      (∃ t, exec (.readClear .firmware die off width) s = .next t ∧ refused t (List.replicate (width / 8) 0#8)) ∧
      ∃ t, exec (.registerWrite .firmware die off width v) s = .next t ∧ refused t []) ∧
    (barReaches who die off = false →
      (∃ t, exec (.readClear who die off width) s = .next t ∧ t.resp = ⟨2, List.replicate (width / 8) 0#8⟩ ∧ t.mem = s.mem ∧
        t.cores = s.cores ∧ t.srv = s.srv ∧ t.fld 38 .secIso 15 0 = satAdd 16 (s.fld 38 .secIso 15 0) 1) ∧
      ∃ t, exec (.registerWrite who die off width v) s = .next t ∧ t.resp = ⟨2, []⟩ ∧ t.mem = s.mem ∧
        t.cores = s.cores ∧ t.srv = s.srv ∧ t.fld 38 .secIso 15 0 = satAdd 16 (s.fld 38 .secIso 15 0) 1)

/-! ## The package fabric -/

/-- What a message of the fabric does (R336, R348 to R353, R362, R364 to R366, R368): not its turn, it stays; on its way it goes to
the output that the route names, and one without a route, or whose link is DOWN, is answered UNREACH or dropped; at its die a RD
or WR is performed and answered with its tag, generation, status and data; a CPL or ACK ends its request; an MCV or MCC of a
compute die enters the mesh at the module's port cluster; a vector to a memory die carries a command, one to a control die a
candidate list, and a control die takes no other group and no credit. -/
def Obligations.FabricMessages : Prop :=
  ∀ (s : State) (die n : Nat), die < 40 →
    (∀ r ∈ [(1, Instr.rd die n), (2, .wr die n), (3, .cpl die n), (4, .ack die n), (5, .mcv die n), (6, .mcc die n)],
      (s.takeMsg die n r.1 = none → exec r.2 s = .next s) ∧
      ∀ m v, s.takeMsg die n r.1 = some (m, v) → s.waitsHere die m = false → s.endsHere die m = false → ownSend die m = false →
        m.dpkg = s.pkgId die →
        let l := s.reg die .pfabRt m.ddie % 8
        let left := (s.fab die).inbox.eraseIdx n
        (bit (s.reg die .pfabRt m.ddie) 31 = true → s.linkState die l ≠ 4 → ∃ t, exec r.2 s = .next t ∧ t.mem = s.mem ∧
          (t.link die l).tx.q = (s.link die l).tx.q ++ [{ msg := m }] ∧ (t.fab die).inbox = left) ∧
        (bit (s.reg die .pfabRt m.ddie) 31 = false ∨ s.linkState die l = 4 → ∃ t, exec r.2 s = .next t ∧ t.mem = s.mem ∧
          (m.isRequest = true → bit (t.reg die .pfabErr) 2 = true ∧ ∃ a, (t.fab die).inbox = left ++ [a] ∧ a.type = m.type + 2 ∧
            a.status = 3 ∧ a.tag = m.tag ∧ a.gen = m.gen ∧ a.unit = m.unit ∧ a.ddie = m.sdie ∧ a.dpkg = m.spkg ∧ a.data = []) ∧
          (m.isRequest = false → bit (t.reg die .pfabErr) 5 = true ∧ (t.fab die).inbox = left))) ∧
    (∀ m v (w : Bool), s.takeMsg die n (if w then 2 else 1) = some (m, v) → s.waitsHere die m = false →
      s.endsHere die m = true → (v.cross die m).windowWrite die m = none →
      let r := (v.cross die m).target m.accessor die m.addr m.len (if w then some m.data else none)
      let st := if r.resp.status = isoStatus then 2 else r.resp.status
      ∃ t, exec (if w then .wr die n else .rd die n) s = .next t ∧ t.mem = r.mem ∧ t.resp = s.resp ∧
        ((st = 1 ∨ st = 2) → bit (t.reg die .pfabErr) (st - 1) = true) ∧
        ∃ a, (t.fab die).inbox = (r.fab die).inbox ++ [a] ∧ a.type = m.type + 2 ∧ a.status = st ∧ a.tag = m.tag ∧
          a.gen = m.gen ∧ a.unit = m.unit ∧ a.ddie = m.sdie ∧ a.dpkg = m.spkg ∧ a.priv = false ∧ a.ctx = 0 ∧
          a.data = (if w = false ∧ (st = 0 ∨ st = 4) then r.resp.data else [])) ∧
    (∀ m v x (w : Bool), s.takeMsg die n (if w then 4 else 3) = some (m, v) → s.waitsHere die m = false →
      s.endsHere die m = true → (s.fab die).match? m = some x → (x.use = .quiet ∨ x.use = .resp) →
      (∀ y ∈ (s.fab die).waits, y.1 ≠ x.unit) → ∃ t, exec (if w then .ack die n else .cpl die n) s = .next t ∧ t.mem = s.mem ∧
        (t.fab die).reqs = (s.fab die).reqs.filter (fun y => decide (y ≠ x)) ∧
        t.resp = (if x.use = .resp then ⟨m.status, if m.status = 0 ∨ m.status = 4 then m.data else x.zeros⟩ else s.resp)) ∧
    (∀ m v, s.takeMsg die n 5 = some (m, v) → s.waitsHere die m = false → s.endsHere die m = true →
      (die < 32 → ∃ t, exec (.mcv die n) s = .next t ∧ t.mem = s.mem ∧
        let old := s.router die (portCluster die m.inp)
        let new := t.router die (portCluster die m.inp)
        new.queue 4 1 ++ new.edgeIn = old.queue 4 1 ++ old.edgeIn ++ m.meshFlits) ∧
      (32 ≤ die → die < 36 → m.aborted = false → (s.md die).asm = [] → 64 ≤ m.data.length →
        s.cmdLen die m.data = .bytes m.data.length → ∃ t, exec (.mcv die n) s = .next t ∧ t.mem = s.mem ∧
          (t.md die).cmds = (s.md die).cmds ++ [⟨⟨m.spkg, m.sdie, true, m.group⟩, m.data⟩]) ∧
      (die = s.servingDie → m.group < 16 → m.aborted = false → ∃ t, exec (.mcv die n) s = .next t ∧ t.mem = s.mem ∧
        Tab.get [] t.srv.lists m.group = Tab.get [] s.srv.lists m.group ++ [m.data]) ∧
      (38 ≤ die → 16 ≤ m.group → ∃ t, exec (.mcv die n) s = .next t ∧ t.mem = s.mem ∧ t.srv = s.srv ∧
        bit (t.reg die .pfabErr) 6 = true)) ∧
    (∀ m v, s.takeMsg die n 6 = some (m, v) → s.waitsHere die m = false → s.endsHere die m = true →
      (die < 32 → ∃ t, exec (.mcc die n) s = .next t ∧ t.mem = s.mem ∧
        let old := s.router die (portCluster die m.inp)
        let new := t.router die (portCluster die m.inp)
        new.queue 4 1 ++ new.edgeIn = old.queue 4 1 ++ old.edgeIn ++ [.cr m.group m.ctr m.amt]) ∧
      ((32 ≤ die ∧ die < 36) ∨ 38 ≤ die → ∃ t, exec (.mcc die n) s = .next t ∧ t.mem = s.mem ∧ t.srv = s.srv ∧
        bit (t.reg die .pfabErr) 6 = true))

/-- Go-back-N on a die link (R339, R340, R369): an undamaged new flit in sequence is accepted, and stays in the sender's replay
buffer; it uses one credit of its VC, and none leaves on a VC without credit; a damaged one is answered with a NAK of the expected
SEQ and delivers nothing; an ACK frees the flits up to its SEQ; a NAK makes the sender resend from its SEQ; an ABORT ends the
vector of its stream; a credit return says how many flits the receiver has taken out; a due ACK names the last accepted SEQ and
goes with the credits. -/
def Claim.LinkFlits : Prop :=
  ∀ (s : State) (die l d m : Nat), die < 40 → l < 6 → partner die l = some (d, m) → s.linkUp die l = true →
    let e := s.link die l
    let o := s.link d m
    let next := o.tx.step (s.linkOutlet d m) s.hc
    (∀ r f, next = some r → r.flit = some f → Tab.get 0 o.sent f.vc - Tab.get 0 o.back f.vc < linkBuffer f.vc) ∧
    (∀ r f, o.ctl = [] → o.next = o.replay.length → o.replay.length < 384 → o.txSeq = e.rxSeq → e.rxSeq < 512 →
      next = some r → r.flit = some f →
      ∃ t, exec (.dieLinkFlit die l 0) s = .next t ∧ t.mem = s.mem ∧ (t.link die l).rxSeq = (e.rxSeq + 1) % 512 ∧
        (t.link d m).replay = o.replay ++ [(o.txSeq, f)] ∧ (t.link d m).txSeq = (o.txSeq + 1) % 512 ∧
        (t.link d m).tx = r.tx ∧ Tab.get 0 (t.link d m).sent f.vc = Tab.get 0 o.sent f.vc + 1 ∧
        Tab.get 0 (t.link die l).freed f.vc = Tab.get 0 e.freed f.vc + 1) ∧
    (∀ w v noise, s.linkSend d m = some (w, v) → wireGood (w ^^^ noise) = false →
      ∃ t, exec (.dieLinkFlit die l noise) s = .next t ∧ (t.link die l).ctl = e.ctl ++ [.nak e.rxSeq] ∧
        (t.link die l).rxSeq = e.rxSeq ∧ (t.link die l).parts = e.parts ∧ t.fabs = s.fabs ∧ t.mem = s.mem) ∧
    (∀ q rest i, o.ctl = .ack q :: rest → q < 512 → e.replay.findIdx? (fun x => decide (x.1 = q)) = some i →
      ∃ t, exec (.flitAck die l) s = .next t ∧ (t.link die l).replay = e.replay.drop (i + 1) ∧ (t.link d m).ctl = rest ∧
        t.fabs = s.fabs ∧ t.mem = s.mem) ∧
    (∀ q rest i, o.ctl = .nak q :: rest → q < 512 → e.replay.findIdx? (fun x => decide (x.1 = q)) = some i → e.naks < 7 →
      ∃ t, exec (.flitNak die l) s = .next t ∧ (t.link die l).next = i ∧ (t.link die l).replay = e.replay ∧
        (t.link d m).ctl = rest ∧ t.fabs = s.fabs ∧ t.mem = s.mem) ∧
    (∀ r st, o.ctl = [] → o.next = o.replay.length → o.replay.length < 384 → next = some r → r.flit = none →
      r.abort = some st → st < 8 → (Tab.get {} e.parts (8 + st)).type ≠ 0 → ∃ t, exec (.abort die l) s = .next t ∧
        (t.fab die).inbox = (s.fab die).inbox ++ [{ Tab.get {} e.parts (8 + st) with
          aborted := true
          inp := l }] ∧ t.mem = s.mem) ∧
    (∀ vc rest h, vc < 256 → o.ctl = .credit vc :: rest → Tab.get 0 o.freed vc < 2 ^ 64 →
      ∃ t, exec (.creditReturn die l vc h) s = .next t ∧ t.hc = max s.hc h ∧ (t.link d m).ctl = rest ∧ t.mem = s.mem ∧ t.fabs = s.fabs ∧
        t.link die l = { e with back := Tab.set 0 e.back vc (Tab.get 0 o.freed vc) }) ∧
    (0 < e.unacked → ∃ t, exec (.ackDue die l) s = .next t ∧ t.mem = s.mem ∧
      t.link die l = { e with
        unacked := 0
        ctl := e.ctl ++ .ack ((e.rxSeq + 511) % 512) :: e.freed.map (fun x => .credit x.1) })

/-- Training, stalls, the lock and timeouts (R341, R365 to R367, R372): LINK_TRAINING_DONE brings both ends UP at full width,
DEGRADED below it, DOWN with both halves failing, and a half once given up stays so; a VC with flits waiting that has not moved
for LSTALL takes its link DOWN, and before that nothing happens; PFAB_LOCK sets LOCK; a request that
times out ends with TIMEOUT and its tag enters quarantine, which QUARANTINE_EXPIRY ends with the next generation; one whose
completion has arrived does not time out. -/
def Claim.LinkStates : Prop :=
  ∀ (s : State) (die l d m : Nat), die < 40 → l < 6 → partner die l = some (d, m) →
    let e := s.link die l
    (∀ low high, s.linkState die l = 1 → e.halves = [] → e.halve = false →
      ∃ t, exec (.linkTrainingDone die l low high) s = .next t ∧ t.mem = s.mem ∧
        t.linkState die l = (if low ∧ high then 4 else if low ∨ high then 3 else 2) ∧ t.linkState d m = t.linkState die l ∧
        (¬(low ∧ high) → t.fld die .pfabLnk 28 26 l = fullWidth die l - (if low ∨ high then 1 else 0) ∧
          (t.link die l).halves = if low ∨ high then [low] else [])) ∧
    (s.linkState die l = 1 → e.halve = false → e.halves ≠ [] → e.halves.length < fullWidth die l →
      ∃ t, exec (.linkTrainingDone die l false false) s = .next t ∧ t.mem = s.mem ∧ t.linkState die l = 3 ∧
        t.fld die .pfabLnk 28 26 l = fullWidth die l - e.halves.length ∧ (t.link die l).halves = e.halves) ∧
    (∀ vc h, s.linkState die l ≠ 4 → (∃ x ∈ e.tx.q, x.msg.vc = vc) → s.hc ≤ h →
      (Tab.get 0 e.tx.since vc + 100 * s.fld die .pfabTmo 15 0 ≤ h →
        ∃ t, exec (.linkStall die l h) s = .next t ∧ t.hc = h ∧ t.linkState die l = 4 ∧ t.linkState d m = 4 ∧
          t.link die l = { halves := e.halves } ∧ bit (t.reg die .pfabErr) 11 = true ∧ bit (t.reg die .pfabErr) 10 = true ∧
          t.mem = s.mem) ∧
      ((∀ v, h < Tab.get 0 e.tx.since v + 100 * s.fld die .pfabTmo 15 0) → exec (.linkStall die l h) s = .next s)) ∧
    (∃ t, exec (.pfabLock die) s = .next t ∧ t.locked die = true ∧ t.mem = s.mem) ∧
    (∀ r h, r ∈ (s.fab die).reqs → (s.fab die).reqs.find? (fun x => decide (x.unit = r.unit) && decide (x.tag = r.tag)) = some r →
      r.use = .resp → s.hc ≤ h → r.at_ + 100 * (if r.remote then s.fld die .pfabTmo 47 32 else s.fld die .pfabTmo 31 16) ≤ h →
      ((∀ x ∈ (s.fab die).inbox, s.endsHere die x = true → x.type = 3 ∨ x.type = 4 → (s.fab die).match? x ≠ some r) →
        ∃ t, exec (.requestTimeout die r.unit r.tag h) s = .next t ∧ t.hc = h ∧ r ∉ (t.fab die).reqs ∧ t.mem = s.mem ∧
          (r.unit, r.tag, h) ∈ (t.fab die).quar ∧ t.resp = ⟨5, r.zeros⟩ ∧ bit (t.reg die .pfabErr) 3 = true) ∧
      (∀ x ∈ (s.fab die).inbox, s.endsHere die x = true → x.type = 3 ∨ x.type = 4 → (s.fab die).match? x = some r →
        exec (.requestTimeout die r.unit r.tag h) s = .next s)) ∧
    (∀ u g at_ h, (u, g, at_) ∈ (s.fab die).quar → at_ + 100000 * s.fld die .pfabTmo 63 48 ≤ h → s.hc ≤ h →
      (∀ y ∈ (s.fab die).waits, y.1 ≠ u) → ∃ t, exec (.quarantineExpiry die u g h) s = .next t ∧ t.hc = h ∧ t.mem = s.mem ∧
        (∀ x ∈ (t.fab die).quar, ¬(x.1 = u ∧ x.2.1 = g)) ∧
        Tab.get 0 (t.fab die).gens (4096 * u + g) = (Tab.get 0 (s.fab die).gens (4096 * u + g) + 1) % 16)

/-- The die links: flits and states (R339 to R341, R351, R365 to R367, R369, R372). -/
def Obligations.DieLinks : Prop := Claim.LinkFlits ∧ Claim.LinkStates

/-- The inter-package ports (R357 to R361, R367, R466 to R469): a good flit in sequence is accepted and returns the credits it
names, and a damaged one, or one under which a codeword has more than 15 symbols in error, is not, and is
answered with a NAK; a MAC whose tag verifies releases its window, another takes the port DOWN; the MAC not acknowledged
goes out again; at KSTEP the key slot changes; a lost lane halves the lanes and trains, the last takes the port DOWN;
training with the configured peer brings the port UP, with another DOWN; EN trains it to 4 lanes, EN cleared holds it; a VC that
has not moved for LSTALL takes the port DOWN. -/
def Obligations.Ports : Prop :=
  ∀ (s : State) (die p : Nat), (die = 36 ∨ die = 37) → p < 16 →
    let e := s.port die p
    let up := s.portState die p = 2 ∨ s.portState die p = 3
    (∀ h first align last ph ph3 steps (flit : BitVec 2048), up → ph < 808 → ph3 < 808 → steps ≤ 4 → e.sym = [] →
      e.sec = false → (∀ i ∈ first ++ align ++ last, i < 544) →
      (first ++ align ++ last).length ≤ s.fld die .lnkPcfg 27 16 p →
      let words := [first, align, last]
      let bs := toBytes 256 flit.toNat
      let spoilt := ∃ w ∈ words, 15 < w.eraseDups.length
      (¬spoilt → numAt bs 252 4 = crc32 (bs.take 252) → bit (numAt bs 0 2) 7 = false → bit (numAt bs 0 2) 8 = false →
        bits (numAt bs 0 2) 6 0 = e.rxSeq → ∃ t, exec (.ilpFlit die p h first align last flit ph steps ph3) s = .next t ∧
          (t.port die p).rxSeq = (e.rxSeq + 1) % 128 ∧ (t.port die p).acked = e.rxSeq ∧ (t.port die p).naks = 0 ∧
          t.mem = s.mem) ∧
      (spoilt ∨ numAt bs 252 4 ≠ crc32 (bs.take 252) → e.naks < 15 →
        ∃ t, exec (.ilpFlit die p h first align last flit ph steps ph3) s = .next t ∧ (t.port die p).rxSeq = e.rxSeq ∧
          (t.port die p).naks = e.naks + 1 ∧ (t.port die p).rest = e.rest ∧ t.fabs = s.fabs ∧ t.mem = s.mem)) ∧
    (∀ slot win tag, e.sec = true → win = e.rxWin → e.rxBytes.length = 248 * s.winLen die p →
      let key := s.portKey slot e.rxNonces e.peer e.peerPort (s.pkgId die) (portNo die p)
      (gcmTag key (windowIv win) e.rxBytes = toBytes 16 tag.toNat → ∃ t, exec (.mac die p slot win tag) s = .next t ∧
        (t.port die p).rxWin = win + 1 ∧ (t.port die p).rxBytes = [] ∧ (t.port die p).acked = (e.rxSeq + 127) % 128 ∧
        t.mem = s.mem) ∧
      (gcmTag key (windowIv win) e.rxBytes ≠ toBytes 16 tag.toNat → ∃ t, exec (.mac die p slot win tag) s = .next t ∧
        t.portState die p = 4 ∧ t.fld die .lnkSec 59 59 p = 1 ∧ t.mem = s.mem)) ∧
    (∀ q f rest, e.macs = (q, f) :: rest → ∃ t, exec (.macResend die p) s = .next t ∧
      t.port die p = { e with
        ctl := e.ctl ++ [f]
        line := e.line ++ [f] } ∧ t.mem = s.mem) ∧
    (e.sec = true → e.keyArmed = true → e.txBytes = [] → s.fld die .lnkSec 55 0 p ≤ (s.die die).wagV.toNat →
      ∃ t, exec (.keyChange die p) s = .next t ∧ t.fld die .lnkSec 60 60 p = 1 - s.fld die .lnkSec 60 60 p ∧
        (t.port die p).txSlot = 1 - s.fld die .lnkSec 60 60 p ∧ (t.port die p).keyArmed = false ∧ t.mem = s.mem) ∧
    (up → ∃ t, exec (.portLaneLoss die p) s = .next t ∧ t.mem = s.mem ∧
      (2 ≤ s.fld die .lnkPstat 28 26 p → t.portState die p = 1 ∧ (t.port die p).width = s.fld die .lnkPstat 28 26 p / 2 ∧
        t.fld die .lnkPstat 28 26 p = s.fld die .lnkPstat 28 26 p / 2) ∧
      (s.fld die .lnkPstat 28 26 p ≤ 1 → t.portState die p = 4 ∧ t.port die p = { width := e.width })) ∧
    (∀ peer port nonce, s.portState die p = 1 →
      let ok := peer = s.fld die .lnkPcfg 11 0 p ∧ port % 16 = s.fld die .lnkPcfg 15 12 p
      ∃ t, exec (.portTrainingDone die p peer port nonce) s = .next t ∧ t.mem = s.mem ∧
        (ok → t.portState die p = (if s.fld die .lnkPstat 28 26 p = 4 then 2 else 3) ∧ (t.port die p).nonceRx = nonce ∧
          (t.port die p).sec = bit (s.reg die .lnkSec p) 63) ∧
        (¬ok → t.portState die p = 4 ∧ bit (t.reg die .pfabErr) 12 = true)) ∧
    (s.fld die .lnkPcfg 31 31 p = 0 → ∃ t, exec (.lnkPcfgEn die p true) s = .next t ∧ t.portState die p = 1 ∧
      t.fld die .lnkPcfg 31 31 p = 1 ∧ t.fld die .lnkPstat 28 26 p = 4 ∧ t.port die p = { e with width := 4 } ∧ t.mem = s.mem) ∧
    (∃ t, exec (.lnkPcfgEn die p false) s = .next t ∧ t.portState die p = 0 ∧ t.fld die .lnkPcfg 31 31 p = 0 ∧
      t.port die p = e ∧ t.mem = s.mem) ∧
    (∀ vc h, s.portState die p ≠ 4 → (∃ x ∈ e.tx.q, x.msg.vc = vc) → s.hc ≤ h →
      (Tab.get 0 e.tx.since vc + 100 * s.fld die .pfabTmo 15 0 ≤ h →
        ∃ t, exec (.linkStall die (16 + p) h) s = .next t ∧ t.portState die p = 4 ∧
          bit (t.reg die .pfabErr) 11 = true ∧ t.mem = s.mem) ∧
      ((∀ v, h < Tab.get 0 e.tx.since v + 100 * s.fld die .pfabTmo 15 0) → exec (.linkStall die (16 + p) h) s = .next s))

/-! ## Model residency -/

/-- The golden-copy window (R386 to R388, R402, R409): a write to a record of a set that is not active and not in use goes
into both copies; a body write leaves the record invalid, a commit of good contents leaves it valid, and either clears
SETn_VALID of every memory die; where the partner does not perform the forwarded write, it stands in the die's own copy and
is refused with MIRROR; a write to a set in use is refused with its cause and changes no byte. -/
def Claim.GoldenWindow : Prop :=
  ∀ (s : State) (md set r b a a' : Nat) (bs : List Byte), 32 ≤ md → md < 36 → set < 2 → r < 131072 →
    s.recordAt md set r = some a → s.recordAt (mirror md) set r = some a' → a + recordSize ≤ 2 ^ 46 → a' + recordSize ≤ 2 ^ 46 →
    let both (t : State) : Prop := t.readMem md (a + b) bs.length = bs ∧ t.readMem (mirror md) (a' + b) bs.length = bs
    (s.setBusy (sideOf md) set = false → s.activeSet md ≠ set → bs ≠ [] → b + bs.length ≤ recordSize → 64 ≤ b →
      s.forwards md = false → ∃ t, exec (.goldRecordWrite md set r b bs) s = .next t ∧ t.resp.status = 2 ∧
        t.readMem md (a + b) bs.length = bs ∧ t.readMem (mirror md) a' recordSize = s.readMem (mirror md) a' recordSize ∧
        t.readByte (pkgAddr md (a + 1)) = 0 ∧ t.fld md .wgtLstat 31 28 = 6 ∧ bit (t.reg md .mdaErr) 14 = true) ∧
    (s.setBusy (sideOf md) set = false → s.activeSet md ≠ set → bs ≠ [] → b + bs.length ≤ recordSize → s.forwards md = true →
      (64 ≤ b → ∃ t, exec (.goldRecordWrite md set r b bs) s = .next t ∧ t.resp.status = 0 ∧ both t ∧
        t.readByte (pkgAddr md (a + 1)) = 0 ∧ t.readByte (pkgAddr (mirror md) (a' + 1)) = 0 ∧
        ∀ d ∈ mdIds, t.setValid d set = false) ∧
      (b = 0 → 64 ≤ bs.length → byteAt bs 1 = 1 → commitCause ((s.writeMem md a bs).record md a) = none →
        ∃ t, exec (.goldRecordWrite md set r b bs) s = .next t ∧ t.resp.status = 0 ∧ both t ∧
          ∀ d ∈ mdIds, t.setValid d set = false)) ∧
    ((s.setBusy (sideOf md) set = true ∨ (s.activeSet md = set ∧ s.fld md .mdaErr 13 13 = 0)) → b + bs.length ≤ 0x4000 →
      ∃ t, exec (.goldRecordWrite md set r b bs) s = .next t ∧ t.resp.status = 2 ∧ t.mem = s.mem ∧
        t.fld md .wgtLstat 31 28 = 4 ∧ bit (t.reg md .mdaErr) 14 = true)

/-- GOLD_COPY and GOLD_CLEAR (R388, R391, R392, R408): a copy whose first record is valid and sound sends it and is BUSY; a clear
of a set that is not active nor in use is BUSY, one in the cycle of a window write to the set is refused (that of an active set
is the model's choice, log entry 71), and at its end no record of the set is valid on either die of the side, and
the set is not valid on any. -/
def Claim.GoldenJobs : Prop :=
  ∀ (s : State) (md : Nat) (v : Word64), 32 ≤ md → md < 36 → s.fld md .wgtMdcmd 62 62 = 0 →
    let first := bits v.toNat 45 29
    let stop := min 131072 (first + bits v.toNat 28 11)
    let sset := bits v.toNat 59 59
    let dset := bits v.toNat 58 58
    (∀ a, (s.gold md).copy = none → s.memErr = [] → first < stop → s.recordAt md sset first = some a →
      recordOk (s.record md a) = true → ∃ t, exec (.goldCopy md v) s = .next t ∧ t.mem = s.mem ∧
        (t.gold md).copy = some { next := first + 1, stop, sset, dset, dpkg := bits v.toNat 57 46, out := 3 } ∧
        t.fld md .wgtMdcmd 62 62 = 1) ∧
    (s.activeSet md ≠ dset → s.setBusy (sideOf md) dset = false → ∃ t, exec (.goldClear ⟨md, false⟩ v) s = .next t ∧ t.mem = s.mem ∧
      (t.gold md).clearing = some dset ∧ t.fld md .wgtMdcmd 62 62 = 1) ∧
    (∀ meets, (meets = true ∨ s.activeSet md = dset ∨ s.setBusy (sideOf md) dset = true) →
      ∃ t, exec (.goldClear ⟨md, meets⟩ v) s = .next t ∧ t.mem = s.mem ∧ t.golds = s.golds ∧ t.fld md .wgtMdcmd 61 61 = 1 ∧
        t.fld md .wgtMdcmd 62 62 = 0) ∧
    (∀ set, (s.gold md).clearing = some set → set < 2 → ∃ t, exec (.goldClearDone md) s = .next t ∧
      (t.gold md).clearing = none ∧ t.fld md .wgtMdcmd 62 62 = 0 ∧ (∀ d ∈ mdIds, t.setValid d set = false) ∧
      ∀ d ∈ [md, mirror md], ∀ r ∈ s.validRecords d set, ∀ a, s.recordAt d set r = some a → t.readByte (pkgAddr d (a + 1)) = 0)

/-- Sealing and upkeep (R382, R383, R388, R393, R401 to R403): SEAL of a set that is not active starts, and one in the cycle of a
window write to the set is refused; SEAL_DONE sets SETn_VALID
on all four dies when both copies of each side agree and the digest is that of the header, and not when it differs; a
header word of a set not in use is written; a queued repair copies the sound record over the bad one, unless a window write
to the record meets it, which leaves it queued; a rehash that gives
the sealed digests changes nothing. -/
def Claim.Seals : Prop :=
  ∀ (s : State) (set : Nat), set < 2 →
    (s.fld 38 .wgtSeal 30 30 = 0 → s.swState ≠ 3 → s.swState ≠ 4 → (∀ d ∈ mdIds, (s.gold d).clearing = none) →
      s.activeSet 32 ≠ set → ∃ t, exec (.sealSet ⟨set, false⟩) s = .next t ∧ t.fld 38 .wgtSeal 31 29 = 6 + set ∧ t.mem = s.mem) ∧
    (∀ meets, s.fld 38 .wgtSeal 30 30 = 0 → (meets = true ∨ s.activeSet 32 = set) → ∃ t, exec (.sealSet ⟨set, meets⟩) s = .next t ∧
      t.fld 38 .wgtSeal 30 30 = 0 ∧ t.fld 38 .wgtSeal 27 24 = 3 ∧ t.mem = s.mem) ∧
    (let dig (d : Nat) := (s.hashSide d set).1
     let num (d : Nat) := (s.hashSide d set).2.1
     let hdr := s.imageHeader set
     let id := imageDigest hdr (dig 32) (dig 34)
     s.fld 38 .wgtSeal 30 30 = 1 → s.fld 38 .wgtSeal 29 29 = set → s.memErr = [] →
     (∀ d ∈ mdIds, ∀ x ∈ (s.gold d).lost, x.1 ≠ set) → dig 32 = dig 33 → dig 34 = dig 35 → num 32 = num 33 → num 34 = num 35 →
     num 32 = numAt hdr 16 4 → num 34 = numAt hdr 20 4 →
     ∃ t, exec .sealDone s = .next t ∧ t.fld 38 .wgtSeal 31 30 = 0 ∧ t.mem = s.mem ∧
       (id = (hdr.drop 72).take 48 → t.fld 38 .wgtSeal 27 24 = 0 ∧ (∀ d ∈ mdIds, t.setValid d set = true) ∧
         Tab.get [] t.sealed_ (2 * set) = dig 32 ∧ Tab.get [] t.sealed_ (2 * set + 1) = dig 34 ∧
         ∀ i, i < 6 → t.reg 38 .wgtDig set i = numAt id (8 * i) 8) ∧
       (id ≠ (hdr.drop 72).take 48 → t.fld 38 .wgtSeal 27 24 = 1 ∧ ∀ d ∈ mdIds, t.setValid d set = s.setValid d set)) ∧
    (∀ i (v : Word64), i < 32 → s.activeSet 32 ≠ set → s.setBusy 0 set = false → s.setBusy 1 set = false →
      ∃ t, exec (.wgtHdrWrite set i v) s = .next t ∧ t.resp.status = 0 ∧ t.reg 38 .wgtHdr set i = v.toNat ∧
        (∀ d ∈ mdIds, t.setValid d set = false) ∧ t.mem = s.mem) ∧
    (∀ md r rest a a', 32 ≤ md → md < 36 → (s.gold md).repairs = (set, r) :: rest → s.memErr = [] →
      s.recordAt md set r = some a → s.recordAt (mirror md) set r = some a' → a + recordSize ≤ 2 ^ 46 →
      a' + recordSize ≤ 2 ^ 46 → recordOk (s.record md a) = false → recordOk (s.record (mirror md) a') = true →
      (∃ t, exec (.goldRepair ⟨md, false⟩) s = .next t ∧ (t.gold md).repairs = rest ∧ t.record md a = s.record (mirror md) a' ∧
        t.record (mirror md) a' = s.record (mirror md) a') ∧
      ∃ t, exec (.goldRepair ⟨md, true⟩) s = .next t ∧ t.mem = s.mem ∧ (set, r) ∈ (t.gold md).repairs) ∧
    (∀ side, side < 2 → s.activeSet (32 + 2 * side) = set → (s.gold (32 + 2 * side)).rehash = true → s.memErr = [] →
      (s.hashSide (32 + 2 * side) set).1 = Tab.get [] s.sealed_ (2 * set + side) →
      (s.hashSide (33 + 2 * side) set).1 = Tab.get [] s.sealed_ (2 * set + side) →
      ∃ t, exec (.goldRehashDone side) s = .next t ∧ (t.gold (32 + 2 * side)).rehash = false ∧
        (t.gold (33 + 2 * side)).rehash = false ∧ (∀ d, t.setValid d set = s.setValid d set) ∧ t.mem = s.mem)

/-- The golden copy (R382 to R388, R391 to R393, R401 to R403, R408, R409). -/
def Obligations.GoldenCopy : Prop := Claim.GoldenWindow ∧ Claim.GoldenJobs ∧ Claim.Seals

/-- A weight-set switch (R394 to R397, R399, R405): ARM from IDLE waits for every slot to drain; GO commits what R395 does not
refuse; ABORT before the committed step returns to IDLE, or to FAILED where that preceded (log entry 179), and from the step on has
no effect; at the committed step every core that runs stops; with all stopped
the new set becomes the active one; with the fill over every core starts again at instruction 0, and the switch is IDLE
with RESULT 0. -/
def Claim.SwitchStates : Prop :=
  ∀ (s : State), (∀ k ∈ s.srv.queue, k < 16384) → s.host.waits = [] →
    ((s.swState = 0 ∨ s.swState = 5) → ∃ t, exec .switchArm s = .next t ∧ t.resp.status = 0 ∧ t.mem = s.mem ∧
      t.swState = (if s.isDrained then 2 else 1)) ∧
    (s.swState = 1 → s.isDrained = true → ∃ t, exec .switchDrained s = .next t ∧ t.swState = 2 ∧ t.mem = s.mem) ∧
    (s.goRefused = none → ∃ t, exec .switchGo s = .next t ∧ t.swState = 3 ∧ t.mem = s.mem) ∧
    (∀ r, s.goRefused = some r → ∃ t, exec .switchGo s = .next t ∧ t.swState = s.swState ∧ t.fld 38 .wgtSwstat 27 24 = r ∧
      t.mem = s.mem) ∧
    (1 ≤ s.swState → s.swState ≤ 3 → (s.swState = 3 → s.switchDue = false) →
      ∃ t, exec .switchAbort s = .next t ∧ t.swState = (if s.switch.failed then 5 else 0) ∧
        t.fld 38 .wgtSwstat 27 24 = 8 ∧ t.mem = s.mem) ∧
    (s.swState = 3 → s.switchDue = true → ∃ t, exec .switchAbort s = .next t ∧ t = { s with resp := t.resp }) ∧
    (s.swState = 3 → (s.fld 38 .wgtSwctl 28 28 = 1 ∨ s.reg 38 .wgtSwstep ≤ (s.die s.generator).wagV.toNat) →
      (∀ d, d < 40 → s.recovering d = false) → ∃ t, exec .switchStart s = .next t ∧ t.swState = 4 ∧ t.mem = s.mem ∧
        t.switch = { startHc := s.hc } ∧
        ∀ cd k, cd < 32 → k < 512 → (s.core cd k).run = .active → (t.core cd k).stopping = true) ∧
    (s.swState = 4 → s.switch.applied = false → (∀ e ∈ s.cores, e.2.run = .stopped) →
      ∃ t, exec .switchCoresStopped s = .next t ∧ t.switch.applied = true ∧
        ∀ d ∈ mdIds, t.activeSet d = s.fld 38 .wgtSwctl 27 27) ∧
    (s.swState = 4 → s.switch.applied = true → (∀ x ∈ s.loaders, x.why ≠ 0) → s.mayRun = true →
      ∃ t, exec .switchFillDone s = .next t ∧ t.swState = 0 ∧ t.fld 38 .wgtSwstat 27 24 = 0 ∧ t.switch = {} ∧ t.mem = s.mem ∧
        ∀ cd k, cd < 32 → k < 512 → (s.core cd k).run = .stopped → (t.core cd k).run = .active ∧ (t.core cd k).pc = 0)

/-- The weight loader and refills (R385, R397, R399, R574, R587): a loader's next packet starts as a write command of its
engine, again after a refusal for temperature; a write through a window is answered when its packets are in; the last record
tested enables the engine's map entry; REFILL queues a
record of the die's side, and REFILL_RUN puts the oldest one on its way. -/
def Claim.Loaders : Prop :=
  ∀ (s : State) (n : Nat) (x : Loader), s.loaders[n]? = some x →
    let u := ((s.setLoader n x).engCode x.cd x.k x.p x.code)
    let chunk := decide (128 ≤ x.base + x.next)
    let index := if chunk then x.base + x.next - 128 else x.base + x.next
    let data := x.packets.getD x.next 0
    let e := s.engine x.cd x.k x.p
    let issued (t : State) : Prop := (t.engine x.cd x.k x.p).cmd = some ⟨(s.die x.cd).cc, chunk, index, data⟩ ∧
      t.loaders = s.loaders.set n { x with
        sent := true
        held := none } ∧ t.mem = s.mem
    ((e.state = .idle ∨ e.state = .faulted) → e.cmd = none → u.writeRefusal x.cd x.k x.p chunk index data = none →
      x.next < x.packets.length →
      (x.held = none → x.sent = false → ∃ t, exec (.loaderWrite n) s = .next t ∧ issued t) ∧
      (∀ r, x.held = some r → r < s.fld 38 .hkStat 63 32 → ∃ t, exec (.loaderReissue n) s = .next t ∧ issued t)) ∧
    (∀ m, x.reply = some m → x.held = none → x.sent = false → x.packets.length ≤ x.next → x.cd < 40 →
      ∃ t, exec (.loaderWrite n) s = .next t ∧ t.loaders = s.loaders.eraseIdx n ∧ t.mem = s.mem ∧
        ∃ a, (t.fab x.cd).inbox = (s.fab x.cd).inbox ++ [a] ∧ a.type = m.type + 2 ∧ a.status = 0 ∧ a.tag = m.tag ∧ a.gen = m.gen) ∧
    (x.reply = none → x.held = none → x.sent = false → x.packets.length ≤ x.next → x.why ≠ 1 → x.l < 16 → x.p ≤ 16 → e.state = .idle → e.loaded = true →
      e.tested = true → (∀ m, m < 16 → (s.mapl x.cd x.k m).1 = false) → x.cd < 32 → x.k < 512 →
      ∃ t, exec (.loaderWrite n) s = .next t ∧ t.mapl x.cd x.k x.l = (true, x.p) ∧
        (t.engine x.cd x.k x.p).state = .active ∧ t.loaders = s.loaders.eraseIdx n ∧ t.mem = s.mem) ∧
    (∀ cd md (v : Word64), cd < 32 → 32 ≤ md → md < 36 → cdSide cd = sideOf md → bits v.toNat 55 50 < 32 →
      cdSide (bits v.toNat 55 50) = sideOf md → bit v.toNat 63 = true → (s.gold md).refills.length < 64 →
      ∃ t, exec (.refill cd md v) s = .next t ∧ t.resp.status = 0 ∧ t.mem = s.mem ∧
        (t.gold md).refills = (s.gold md).refills ++
          [⟨bits v.toNat 55 50, bits v.toNat 49 41, bits v.toNat 40 37, bits v.toNat 36 32⟩]) ∧
    (∀ md y rest a, 32 ≤ md → md < 36 → (s.gold md).refills = y :: rest → (∀ z ∈ s.loaders, ¬(z.why = 1 ∧ z.md = md)) →
      s.memErr = [] → y.p < 17 → s.recordAt md (s.activeSet md) (recordIndex y.cd y.k y.l) = some a →
      recordOk (s.record md a) = true → ∃ t, exec (.refillRun md) s = .next t ∧ (t.gold md).refills = rest ∧
        t.loaders = s.loaders ++ [loaderOf md y.cd y.k y.p y.l 1 (s.record md a)] ∧ t.mem = s.mem)

/-- The switch and the loaders (R385, R394 to R399, R405, R574, R587). -/
def Obligations.SwitchAndLoaders : Prop := Claim.SwitchStates ∧ Claim.Loaders


/-! ## Housekeeping, calibration and quantization health -/

/-- The housekeeping round (R320, R529, R538, R539): both control dies go on to the next round with both converters at slot
0; the input voltage is the mean of the four channels; every die whose read-back came in is captured; a sweep leaves every
core's health counters zero. No byte of memory changes. -/
def Claim.HousekeepingRound : Prop :=
  ∀ (s : State) (h stale : Nat) (rails : List Nat) (hbm : List Int), rails.length = 120 → hbm.length = 8 →
    s.host.waits = [] → ∃ t, exec (.housekeepingRound h stale rails hbm) s = .next t ∧ t.hc = max s.hc h ∧ t.mem = s.mem ∧
      (∀ kd ∈ [38, 39], t.fld kd .hkStat 63 32 = (s.fld kd .hkStat 63 32 + 1) % 2 ^ 32 ∧ (t.hk kd).slot0 = 0 ∧
        (t.hk kd).slot1 = 0) ∧
      t.fld 38 .pwrPkgstat 63 48 = (rneDiv ((s.fld 38 .hkCh 31 16 8 + s.fld 39 .hkCh 31 16 8 : Nat) : Int) 8).toNat ∧
      (∀ d, d < 40 → t.fld 38 .hkDiea 63 63 d = b2n (bit stale d) ∧
        (bit stale d = false → t.fld 38 .hkDiea 47 32 d = s.fld d .pwrStat 15 0 ∧
          t.fld 38 .hkDiea 15 0 d = s.fld d .thmStat 15 0 ∧
          t.fld 38 .hkDieb 15 0 d = rails.getD (3 * d) 0 % 2 ^ 16 ∧
          t.fld 38 .hkDieb 47 32 d = rails.getD (3 * d + 2) 0 % 2 ^ 16)) ∧
      (s.fld 38 .monQhCfg 31 31 = 1 → t.health.rounds = s.health.rounds + 1 ∧
        ∀ cd k, cd < 32 → k < 512 → t.reg cd .coreQh k = 0)

/-- Quantization health (R321, R322, R325): QH_CLR waits for the round boundary; at the end of a window of N rounds a flag
stands where it stood or where the window's count exceeds the threshold in force, a fresh one is recorded, and the next
window starts with the thresholds of MON_QH_THR; before its end a window goes on. -/
def Claim.HealthWindows : Prop :=
  ∀ (s : State),
    (∃ t, exec .qhClr s = .next t ∧ t.fld 38 .monQhCfg 30 30 = 1 ∧ t.resp.status = 0 ∧ t.health = s.health ∧ t.mem = s.mem) ∧
    (s.fld 38 .monQhCfg 31 31 = 0 ∨ s.health.rounds < s.fld 38 .monQhCfg 15 0 → exec .qhWindowEnd s = .next s) ∧
    (s.fld 38 .monQhCfg 31 31 = 1 → s.fld 38 .monQhCfg 15 0 ≤ s.health.rounds → s.host.waits = [] →
      (∀ x ∈ s.health.win, x.1 < 16384) →
      let above (x : Nat) : Prop := ∃ n, (x, n) ∈ s.health.win ∧ elem s.health.thr 16 (x % 4) < n
      ∃ t, exec .qhWindowEnd s = .next t ∧ t.health = { win := [], rounds := 0, thr := s.reg 38 .monQhThr } ∧ t.mem = s.mem ∧
        (∀ L e, L < 4096 → e < 4 →
          (bit (t.reg 38 .monQhlf L) e = true ↔ bit (s.reg 38 .monQhlf L) e = true ∨ above (4 * L + e))) ∧
        ((∃ L e, L < 4096 ∧ e < 4 ∧ above (4 * L + e) ∧ bit (s.reg 38 .monQhlf L) e = false) →
          t.fld 38 .monQhStat 31 31 = 1))

/-- The housekeeping round and quantization health (R320 to R325, R529, R538, R539). -/
def Obligations.Housekeeping : Prop := Claim.HousekeepingRound ∧ Claim.HealthWindows

/-- The converters (R536 to R544): a slot that no urgent request takes makes its scheduled conversion, corrected with O and F
and clamped, into SAMPLE, and a channel's last one forms its mean; an urgent request takes the slot instead, and leaves
SAMPLE; URGENT_CONVERSION makes one, or is refused. After slot 499 nothing happens. -/
def Obligations.Conversions : Prop :=
  ∀ (s : State) (kd conv h : Nat) (r : Int), (kd = 38 ∨ kd = 39) → conv < 2 → -2048 ≤ r → r ≤ 4095 →
    let at_ := if conv = 0 then (s.hk kd).slot0 else (s.hk kd).slot1
    let next (t : State) : Prop := t.mem = s.mem ∧ t.hc = max s.hc (h + 203) ∧
      (if conv = 0 then (t.hk kd).slot0 else (t.hk kd).slot1) = at_ + 1
    let o : Int := s.fld kd .calAdc (32 * conv + 15) (32 * conv)
    let f : Int := s.fld kd .calAdc (32 * conv + 31) (32 * conv + 16)
    let code (d : Bool) : Int :=
      let num : Int := (bif d then 16 * r else 16 * r - o) * 2048
      let q := if o < f then rneDiv num (f - o).toNat else rneDiv (-num) (o - f).toNat
      bif d then max (-2048) (min 2047 q) else max 0 (min 4095 q)
    let ch := s.fld kd .hkUrg 20 16
    (500 ≤ at_ → exec (.adcSlot kd conv h r) s = .next s) ∧
    (∀ n last, at_ < 500 → slotUse conv at_ = .normal n last → s.takesSlot kd conv at_ (.normal n last) h = false → o ≠ f →
      let acc := Tab.get {} (s.hk kd).acc n
      ∃ t, exec (.adcSlot kd conv h r) s = .next t ∧ next t ∧
        t.fld kd .hkCh 15 0 n = unsigned 16 (code ((s.hk kd).differential n)) ∧
        (last = true → t.fld kd .hkCh 55 48 n = (acc.n + 1) % 256 ∧
          t.fld kd .hkCh 31 16 n = unsigned 16 (rneDiv (16 * (acc.sum + code ((s.hk kd).differential n))) (acc.n + 1)))) ∧
    (∀ u, at_ < 500 → slotUse conv at_ = u → s.takesSlot kd conv at_ u h = true → o ≠ f →
      ∃ t, exec (.adcSlot kd conv h r) s = .next t ∧ next t ∧ (t.hk kd).urgent = none ∧
        t.fld kd .hkUrg 15 0 = unsigned 16 (code ((s.hk kd).differential ch)) ∧ t.fld kd .hkUrg 30 29 = 1 ∧
        ∀ n, n < 32 → t.fld kd .hkCh 15 0 n = s.fld kd .hkCh 15 0 n) ∧
    (∀ v : Word64, (s.fld kd .hkUrg 30 30 = 1 ∨ validChannel (bits v.toNat 20 16) = false) →
      ∃ t, exec (.urgentConversion kd v) s = .next t ∧ t.resp.status = 2 ∧ t.csr = s.csr ∧ t.plat = s.plat ∧ t.mem = s.mem) ∧
    (∀ v : Word64, s.fld kd .hkUrg 30 30 = 0 → validChannel (bits v.toNat 20 16) = true →
      ∃ t, exec (.urgentConversion kd v) s = .next t ∧ t.resp.status = 0 ∧ t.fld kd .hkUrg 20 16 = bits v.toNat 20 16 ∧
        t.fld kd .hkUrg 30 29 = 2 ∧ (t.hk kd).urgent = some s.hc ∧ t.mem = s.mem)

/-- Calibration (R549, R551, R553 to R556, R563): CAL_GO starts a die, or notes a trigger on one that runs, and refuses a
die above 39; a trim moves one code toward its accepted value; CAL_SAVE holds the record of the accepted values, which a
good save leaves in the flash; CAL_RESTORE takes the accepted rail codes from the valid copy with the higher SEQ. -/
def Obligations.Calibration : Prop :=
  ∀ (s : State),
    (∀ all die, (all = true ∨ die % 64 < 40) → ∃ t, exec (.calGo all die) s = .next t ∧ t.resp.status = 0 ∧ t.mem = s.mem ∧
      ∀ d, d < 40 → (all = true ∨ d = die % 64) → t.fld 38 .calDie 63 63 d = 1 ∧
        (s.fld 38 .calDie 63 63 d = 1 → t.fld 38 .calDie 62 62 d = 1) ∧
        (s.fld 38 .calDie 63 63 d = 0 → t.fld 38 .calDie 58 53 d = 8 * (calItems d).headD 0)) ∧
    (∀ die, 40 ≤ die % 64 → ∃ t, exec (.calGo false die) s = .next t ∧ t.resp.status = 2 ∧ t.csr = s.csr ∧ t.plat = s.plat ∧
      t.mem = s.mem) ∧
    (∀ d item, d < 40 → 1 ≤ item → item ∈ calItems d →
      let a := s.accepted d item
      let c := s.trim d item
      ∃ t, exec (.trimRampStep d item) s = .next t ∧ t.mem = s.mem ∧ t.accepted d item = a ∧
        t.trim d item = (if c < a then c + 1 else if a < c then c - 1 else c) ∧
        ∀ i, 1 ≤ i → i ≤ 3 → i ≠ item → t.trim d i = s.trim d i) ∧
    (s.fld 38 .calCtl 27 27 = 1 → ∃ t, exec .calSave s = .next t ∧ t.fld 38 .calCtl 26 24 = 2 ∧ t.plat = s.plat ∧ t.mem = s.mem) ∧
    (s.fld 38 .calCtl 27 27 = 0 → ∃ t c n, exec .calSave s = .next t ∧ t.fld 38 .calCtl 27 27 = 1 ∧ t.mem = s.mem ∧
      t.plat.saving = some (c, s.calRecord n) ∧ c < 2 ∧ (s.calBest = none → c = 0 ∧ n = 1) ∧
      (∀ b, s.calBest = some b → n = s.calSeq b + 1 ∧ (s.calValid (1 - b) = false ∨ s.calSeq (1 - b) < s.calSeq b → c = 1 - b))) ∧
    (∀ c rec_, s.plat.saving = some (c, rec_) → (∃ t, exec (.calSaveDone true) s = .next t ∧ t.plat.saving = none ∧
        t.fld 38 .calCtl 27 24 = 0 ∧ t.mem = s.mem ∧ t.readFlash (calCopy c) rec_.length = rec_) ∧
      ∃ t, exec (.calSaveDone false) s = .next t ∧ t.plat.saving = none ∧ t.fld 38 .calCtl 27 24 = 1 ∧ t.mem = s.mem) ∧
    (let busy := s.fld 38 .calCtl 27 27 = 1 ∨ ∃ d, d < 40 ∧ s.fld 38 .calDie 63 63 d = 1
     (busy → ∃ t, exec .calRestore s = .next t ∧ t.fld 38 .calCtl 26 24 = 2 ∧ t.plat = s.plat ∧ t.mem = s.mem) ∧
     (¬busy → s.calBest = none → ∃ t, exec .calRestore s = .next t ∧ t.fld 38 .calCtl 26 24 = 3 ∧ t.plat = s.plat ∧
       t.mem = s.mem) ∧
     (∀ c, ¬busy → s.calBest = some c → ∃ t, exec .calRestore s = .next t ∧ t.fld 38 .calCtl 26 24 = 0 ∧
       t.fld 38 .calCtl 23 23 = c ∧ t.mem = s.mem ∧ ∀ d item, d < 40 → 1 ≤ item → item ∈ calItems d →
         let b := s.readFlash (calCopy c) 708
         bit (byteAt b (64 + 16 * d + 3)) item = true → t.accepted d item = byteAt b (64 + 16 * d + item - 1)))

/-! ## Security -/

/-- The responder's negotiation (R463): GET_VERSION restarts it, ends its sessions and answers 1.2 and 1.3; a step out of
its order is refused and changes nothing of the secure state; a request that needs the negotiation is refused before it. -/
def Claim.SpdmNegotiation : Prop :=
  ∀ (s : State) (port : Nat), port < 2 →
    let x := s.spdm port
    let refused (c : Instr) : Prop := ∃ t, exec c s = .next t ∧ t.resp.status = 2 ∧ t.sec = s.sec ∧ t.mem = s.mem
    (∃ t, exec (.getVersion port) s = .next t ∧ t.resp = { status := 0, data := [0x12#8, 0x13#8] } ∧ t.mem = s.mem ∧
      (t.spdm port).phase = 1 ∧ (t.spdm port).sessions = [] ∧ t.spdm (1 - port) = s.spdm (1 - port)) ∧
    (1 ≤ x.phase → ∃ t, exec (.getCapabilities port) s = .next t ∧ t.resp.status = 0 ∧ t.mem = s.mem ∧
      t.spdm port = { x with phase := max 2 x.phase }) ∧
    (2 ≤ x.phase → ∃ t, exec (.negotiateAlgorithms port) s = .next t ∧ t.resp.status = 0 ∧ t.mem = s.mem ∧
      t.spdm port = { x with phase := max 3 x.phase }) ∧
    (x.phase < 1 → refused (.getCapabilities port)) ∧ (x.phase < 2 → refused (.negotiateAlgorithms port)) ∧
    (x.phase < 3 → ∀ slot off n i, refused (.getDigests port) ∧ refused (.getCertificate port slot off n) ∧
      refused (.challenge port slot) ∧ refused (.getMeasurements port i) ∧ refused (.keyExchange port)) ∧
    ∀ id, s.secureSession port id = false → ∀ slot key, refused (.heartbeat port id) ∧ refused (.keyUpdate port id) ∧
      refused (.endSession port id) ∧ refused (.vendorDefinedRequest port id) ∧ refused (.setLinkKey port id slot key)

/-- The responder's requests (R463, R464): digests, certificates, a challenge with a fresh nonce, the seven measurements. -/
def Claim.SpdmRequests : Prop :=
  ∀ (s : State) (port : Nat), port < 2 → 3 ≤ (s.spdm port).phase →
    let answers (c : Instr) (bs : List Byte) (drawn : Nat) : Prop := ∃ t, exec c s = .next t ∧
      t.resp = { status := 0, data := bs } ∧ t.sec = s.sec ∧ t.mem = s.mem ∧ t.csr = s.csr ∧ t.draws = s.draws + drawn
    let refused (c : Instr) : Prop := ∃ t, exec c s = .next t ∧ t.resp.status = 2 ∧ t.sec = s.sec ∧ t.mem = s.mem
    answers (.getDigests port) (sha384 (s.certificate 0) ++ sha384 (s.certificate 1)) 0 ∧
    (∀ slot off n, slot < 2 → answers (.getCertificate port slot off n) (((s.certificate slot).drop off).take n) 0) ∧
    (∀ slot, slot < 2 → answers (.challenge port slot)
      (sha384 (s.certificate slot) ++ toBytes 32 (Config.random s.draws).toNat) 1) ∧
    (∀ slot off n, 2 ≤ slot → refused (.getCertificate port slot off n) ∧ refused (.challenge port slot)) ∧
    (∀ i, 1 ≤ i → i ≤ 7 → answers (.getMeasurements port i) (s.measurement i) 0) ∧
    answers (.getMeasurements port 255) ((List.range 7).flatMap (fun i => s.measurement (i + 1))) 0 ∧
    (s.fld 38 .secBoot 28 28 = 0 → answers (.getMeasurements port 3) (List.replicate 48 0#8) 0) ∧
    answers (.getMeasurements port 6) s.sec.program 0 ∧
    answers (.getMeasurements port 5)
      ((List.range 6).flatMap (fun j => toBytes 8 (s.reg 38 .wgtDig (s.fld 32 .mdaGold 0 0) j))) 0 ∧
    (∀ i, i = 0 ∨ 7 < i → i ≠ 255 → refused (.getMeasurements port i))

/-- Sessions and link keys (R463, R466): a port opens at most two sessions, FINISH makes one secure or ends it, and in a
secure session the requests that need one are served; a link key goes into its slot unless the slot is in use. -/
def Claim.SpdmSessions : Prop :=
  ∀ (s : State) (port id : Nat), port < 2 →
    let x := s.spdm port
    let ok (c : Instr) (f : State → Prop) : Prop := ∃ t, exec c s = .next t ∧ t.resp.status = 0 ∧ t.mem = s.mem ∧ f t
    (3 ≤ x.phase → x.sessions.length < 2 → ok (.keyExchange port) (fun t =>
      (t.spdm port).sessions = x.sessions ++ [{ id := x.next, open_ := false }] ∧ (t.spdm port).next = x.next + 1 ∧
        t.resp.data = toBytes 4 x.next ++ toBytes 32 (Config.random s.draws).toNat)) ∧
    (2 ≤ x.sessions.length → ∃ t, exec (.keyExchange port) s = .next t ∧ t.resp.status = 2 ∧ t.sec = s.sec ∧ t.mem = s.mem) ∧
    ((⟨id, false⟩ : Session) ∈ x.sessions → ok (.finish port id true) (fun t => t.secureSession port id = true) ∧
      ∃ t, exec (.finish port id false) s = .next t ∧ t.resp.status = 2 ∧ t.mem = s.mem ∧
        (t.spdm port).sessions = x.sessions.filter (fun y => decide (y.id ≠ id))) ∧
    (s.secureSession port id = true →
      ok (.heartbeat port id) (fun t => t.sec = s.sec) ∧ ok (.keyUpdate port id) (fun t => t.sec = s.sec) ∧
      ok (.vendorDefinedRequest port id) (fun t => t.sec = s.sec) ∧
      ok (.endSession port id) (fun t => t.secureSession port id = false) ∧
      ∀ slot key, slot < 2 → key.length = 32 →
        (s.keySlotInUse slot = false → ok (.setLinkKey port id slot key) (fun t => t.sec = s.sec ∧
          Tab.get [] t.linkKeys slot = key ∧ ∀ j, j ≠ slot → Tab.get [] t.linkKeys j = Tab.get [] s.linkKeys j)) ∧
        (s.keySlotInUse slot = true → ∃ t, exec (.setLinkKey port id slot key) s = .next t ∧ t.resp.status = 2 ∧
          t.linkKeys = s.linkKeys ∧ t.mem = s.mem))

/-- Attestation over SPDM and the link keys (R463, R464, R466). -/
def Obligations.Attestation : Prop := Claim.SpdmNegotiation ∧ Claim.SpdmRequests ∧ Claim.SpdmSessions

/-- SEC_SVN.COMMIT (R462): at a temperature that permits programming it raises the fused SVN to the running image's, is
refused with RESULT 1 when that is not above it, and with RESULT 2 at another temperature; no other fuse changes. -/
def Claim.SvnCommit : Prop :=
  ∀ (s : State),
    let run := s.fld 38 .secBoot 22 16
    let was := s.sec.fuses
    ∃ t, exec .svnCommit s = .next t ∧ t.mem = s.mem ∧ t.sec = { s.sec with fuses := t.sec.fuses } ∧ t.pending = s.pending ∧
      (s.writePermitted 38 = true → was.svn < run → t.sec.fuses = { was with svn := run } ∧ t.fld 38 .secSvn 30 28 = 0) ∧
      (s.writePermitted 38 = true → run ≤ was.svn → t.sec.fuses = was ∧ t.fld 38 .secSvn 30 28 = 1) ∧
      (s.writePermitted 38 = false → t.sec.fuses = was ∧ t.fld 38 .secSvn 30 28 = 2)

/-- The debug unlock (R471 to R474): GO draws a new nonce, and is refused with its result while serving is enabled or a slot
is in use, with DBGKEY blank, or with a signature that fails; a good one destroys the keys, ends the sessions and starts
the zeroing, at whose end every byte of every TABLES, KV8 and KV4 region is zero and the state is UNLOCKED. -/
def Claim.DebugUnlock : Prop :=
  ∀ (s : State),
    let busy := s.fld 38 .srvCtl 31 31 = 1 ∨ ∃ k ∈ s.slotList, s.sstate k ≠ 0
    let refused (r : Nat) : Prop := ∃ t, exec .debugUnlock s = .next t ∧ t.fld 38 .secDbgctl 27 24 = r ∧ t.mem = s.mem ∧
      t.sec = { s.sec with nonce := s.sec.nonce + 1 } ∧ t.fld 38 .secDbgctl 31 28 = s.fld 38 .secDbgctl 31 28
    (s.fld 38 .secDbgctl 30 30 = 0 → busy → refused 2) ∧
    (s.fld 38 .secDbgctl 30 30 = 0 → ¬busy → s.sec.fuses.dbgKey = [] → refused 3) ∧
    (s.fld 38 .secDbgctl 30 30 = 0 → ¬busy → s.sec.fuses.dbgKey ≠ [] → s.debugSigned = false → refused 1) ∧
    (s.fld 38 .secDbgctl 30 30 = 0 → ¬busy → s.sec.fuses.dbgKey ≠ [] → s.debugSigned = true →
      ∃ t, exec .debugUnlock s = .next t ∧ t.fld 38 .secDbgctl 31 28 = 13 ∧ t.sec.unlocking = true ∧ t.linkKeys = [] ∧
        t.sec.nonce = s.sec.nonce + 1 ∧ (∀ p, p < 2 → (t.spdm p).sessions = []) ∧ t.mem = s.mem ∧
        ∀ d p, d = 36 ∨ d = 37 → p < 16 → (t.port d p).sec = false) ∧
    (s.sec.unlocking = false → exec .unlockDone s = .next s) ∧
    (s.sec.unlocking = true → ∃ t, exec .unlockDone s = .next t ∧ t.sec = { s.sec with unlocking := false } ∧
      t.fld 38 .secDbgctl 31 24 = 32 ∧
      let inside (a : Nat) : Prop := ∃ md ∈ mdIds, ∃ kind ∈ [1, 2, 3], ∃ b n, s.region md kind = some (b, n) ∧
        pkgAddr md b ≤ a ∧ a < pkgAddr md b + n
      (∀ a, inside a → t.readByte a = 0) ∧ ∀ a, ¬inside a → t.readByte a = s.readByte a)

/-- The fused SVN and the debug unlock (R462, R471 to R474). -/
def Obligations.FusesAndDebug : Prop := Claim.SvnCommit ∧ Claim.DebugUnlock

/-! ## Clocks and the waggle counter -/

/-- A die's copy (R489, R490, R497, R580, R632): a valid copy steps by one at its boundary, 100 reference cycles or one fewer or
more after the last; an INVALID copy takes the start value that KD0, or KD1 once it has taken over, has sent; an adjustment that comes in time waits for
its step, a late one raises its error; WAG_CAPTURE reads the copy. A die whose clocks stand still does not step. -/
def Claim.WaggleCopies : Prop :=
  ∀ (s : State) (d : Nat), d < 40 →
    let x := s.die d
    let g := s.generator
    let runs := x.heat.gated = false ∧ x.heat.tripped = false
    (∀ cc, ¬runs → exec (.waggleStep d cc) s = .next s) ∧
    (∀ cc, runs → x.wagValid = true → ∃ t, exec (.waggleStep d cc) s = .next t ∧ t.mem = s.mem ∧ (t.die d).wagValid = true ∧
      (t.die d).wagV = x.wagV + 1 ∧ (t.die d).stepHc = x.stepHc + x.stepLen x.wagV.toNat ∧ t.cores = s.cores ∧
      (∀ e, e ≠ d → t.die e = s.die e) ∧
      ((∀ a ∈ x.adj, a.1 ≠ x.wagV.toNat) → (t.die d).stepHc = x.stepHc + 100)) ∧
    (∀ cc v h, runs → x.wagValid = false → x.wagStart = some (v, h) → ∃ t, exec (.waggleStep d cc) s = .next t ∧
      t.mem = s.mem ∧ (t.die d).wagValid = true ∧ (t.die d).wagV = BitVec.ofNat 64 v ∧ (t.die d).stepHc = h ∧
      (t.die d).wagStart = none ∧ ∀ e, e ≠ d → t.die e = s.die e) ∧
    (∀ lead, d ≠ g → (s.die g).wagValid = true → 16 ≤ lead → ∃ t, exec (.waggleStart d lead) s = .next t ∧
      t = { s with dies := t.dies } ∧ (∀ e, e ≠ d → t.die e = s.die e) ∧
      t.die d = { x with wagStart := some ((s.die g).wagV.toNat + lead, (s.die g).boundary lead) }) ∧
    (∀ lead, (s.die g).wagValid = false ∨ lead < 16 ∨ d = g → exec (.waggleStart d lead) s = .next s) ∧
    (∀ v a rest, x.adjIn = (v, a) :: rest → x.wagValid = true → x.wagV.toNat ≤ v →
      ∃ t, exec (.waggleAdjust d) s = .next t ∧ t = { s with dies := t.dies } ∧ (∀ e, e ≠ d → t.die e = s.die e) ∧
        t.die d = { x with
          adjIn := rest
          adj := x.adj ++ [(v, a)] }) ∧
    (∀ v a rest, x.adjIn = (v, a) :: rest → x.wagValid = true → v < x.wagV.toNat →
      ∃ t, exec (.waggleAdjust d) s = .next t ∧ t.mem = s.mem ∧ bit (t.reg d .wagErr) 2 = true ∧ (t.die d).adjIn = rest ∧
        (t.die d).adj.length = x.adj.length + 1) ∧
    ∃ t, exec (.wagCapture d) s = .next t ∧ t.resp.status = 0 ∧ t.mem = s.mem ∧ t.dies = s.dies ∧
      t.reg d .wagCapv = x.wagV.toNat ∧
      t.fld d .wagCapp 6 0 = (if x.wagValid = true then min 100 (s.hc - x.stepHc) else 0)

/-- Sync across the swarm (R493 to R499): a request is stamped and put on its port; a request received is answered; the
first usable response sets KD0's copy and makes the state ACQUIRING, and an eighth near one in a row LOCKED; in LOCKED and
HOLDOVER one steers the copy without a jump, with an error above 100 µs; a primary
master without a partner locks by itself after its timeout; a follower that hears nothing goes into HOLDOVER, and the
secondary master takes over; an edge of PKG_SYNC gives the offset to the nearest multiple of the period, and one out of its
bounds is an error; without WAG_EXT.EN, or on a package that is no primary master, an edge has no effect. -/
def Claim.Swarm : Prop :=
  ∀ (s : State),
    let P := s.fld 38 .wagCfg 20 16
    let g := s.generator
    let v := (s.die g).wagV.toNat
    let role := s.fld 38 .wagCfg 31 30
    let state (t : State) := t.fld 38 .wagStat 31 29
    let master (t : State) := t.fld 38 .wagStat 28 28
    (∀ ph, ph < 808 → (master s = 0 ∨ role = 2) → (state s = 0 ∨ s.sync.lastReq + 32 ≤ v) →
      s.portState (36 + P / 16) (P % 16) = 2 → ∃ t, exec (.syncReqDue false ph) s = .next t ∧ t.mem = s.mem ∧ t.csr = s.csr ∧
        t.sync.seq = (s.sync.seq + 1) % 256 ∧ t.sync.lastReq = v ∧
        (36 + P / 16, P % 16, (s.sync.seq + 1) % 256, s.stamp (36 + P / 16) ph) ∈ t.sync.reqs ∧
        (t.port (36 + P / 16) (P % 16)).ctl.length = (s.port (36 + P / 16) (P % 16)).ctl.length + 1) ∧
    (∀ die p seq ph2 steps ph3, (die = 36 ∨ die = 37) → p < 16 → seq < 256 → ph2 < 808 → ph3 < 808 → steps ≤ 4 →
      ∃ t, exec (.syncReq die p seq ph2 steps ph3) s = .next t ∧ t.mem = s.mem ∧ t.csr = s.csr ∧ t.sync = s.sync ∧
        (t.port die p).ctl = (s.port die p).ctl ++ [ilpFlit (flitHead (s.port die p).acked (s.port die p).nakDue true 0 0 0 0)
          ([0x03#8, BitVec.ofNat 8 (b2n (decide (state s = 2)) + 2 * master s), BitVec.ofNat 8 seq, 0#8] ++
            toBytes 8 (s.die die).wagV.toNat ++ toBytes 2 ph2 ++ toBytes 6 0 ++
            toBytes 8 ((s.die die).wagV.toNat + steps) ++ toBytes 2 ph3)]) ∧
    (∀ die p seq mst v2 ph2 v3 ph3 ph4 t1, (die = 36 ∨ die = 37) → p < 16 → master s = 0 →
      s.sync.reqs.find? (fun r => decide ((r.1, r.2.1, r.2.2.1) = (die, p, seq))) = some (die, p, seq, t1) →
      let t2 : Int := ((800 * v2 + ph2 : Nat) : Int)
      let t3 : Int := ((800 * v3 + ph3 : Nat) : Int)
      let d2 := (t2 - t1) + (s.stamp die ph4 - t3)
      let o2 := (t2 - t1) - (s.stamp die ph4 - t3)
      (state s = 0 → ∃ t, exec (.syncRsp die p seq true mst v2 ph2 v3 ph3 ph4) s = .next t ∧ t.mem = s.mem ∧ state t = 1 ∧
        (t.die g).wagValid = true ∧ (t.die g).wagV = BitVec.ofNat 64 ((t3 + d2 / 2).toNat / 800) ∧
        ∀ d, d < 40 → d ≠ g → (t.die d).wagValid = false) ∧
      (state s = 1 → o2.natAbs ≤ 160 → 7 ≤ s.sync.good → ∃ t, exec (.syncRsp die p seq true mst v2 ph2 v3 ph3 ph4) s = .next t ∧
        t.mem = s.mem ∧ state t = 2 ∧ master t = b2n (decide (role = 1)) ∧ t.dies = s.dies) ∧
      (2 ≤ state s → ∃ t, exec (.syncRsp die p seq true mst v2 ph2 v3 ph3 ph4) s = .next t ∧ t.mem = s.mem ∧ state t = 2 ∧
        master t = 0 ∧ (∀ d, (t.die d).wagV = (s.die d).wagV) ∧ (160000 < o2.natAbs → bit (t.reg 38 .wagErr) 1 = true)) ∧
      ∃ t, exec (.syncRsp die p seq false mst v2 ph2 v3 ph3 ph4) s = .next t ∧ t.csr = s.csr ∧ t.dies = s.dies ∧ t.mem = s.mem) ∧
    (∀ h, role = 1 → state s = 0 → s.sync.bringup + 1000000 ≤ h → ∃ t, exec (.masterTimeout h) s = .next t ∧ t.mem = s.mem ∧
      state t = 2 ∧ master t = 1 ∧ (t.die g).wagValid = true ∧ (t.die g).wagV = 0) ∧
    (∀ h, (role ≠ 1 ∨ state s ≠ 0 ∨ h < s.sync.bringup + 1000000) → exec (.masterTimeout h) s = .next s) ∧
    (state s = 2 → master s = 0 → s.sync.lastUp + 2048 ≤ v → s.sync.lastAny + 1024 ≤ v →
      ∃ t, exec .syncHoldover s = .next t ∧ t.mem = s.mem ∧ t.dies = s.dies ∧ bit (t.reg 38 .wagErr) 0 = true ∧
        state t = (if role = 2 then 2 else 3) ∧ master t = b2n (decide (role = 2))) ∧
    (∀ h high, s.fld 38 .wagExt 31 31 = 1 → role = 1 → (s.die g).wagValid = true → s.hc ≤ h →
      let per := 100 * s.fld 38 .wagExt 23 0
      let wrong := (∃ e, s.sync.edge = some e ∧ per < 1000 * ((h - e : Nat) - (per : Int)).natAbs) ∨ high < 100
      let now := 100 * v + (h - (s.die g).stepHc)
      let near := (2 * now + per) / (2 * per) * per
      (wrong → ∃ t, exec (.pkgSyncEdge h high) s = .next t ∧ t.hc = h ∧ t.mem = s.mem ∧ t.sync.edge = some h ∧ t.dies = s.dies ∧
        bit (t.reg 38 .wagErr) 3 = true ∧ t.fld 38 .wagStat 15 0 = s.fld 38 .wagStat 15 0) ∧
      (¬wrong → ∃ t, exec (.pkgSyncEdge h high) s = .next t ∧ t.hc = h ∧ t.mem = s.mem ∧ t.sync.edge = some h ∧
        bit (t.reg 38 .wagErr) 3 = bit (s.reg 38 .wagErr) 3 ∧ (∀ d, (t.die d).wagV = (s.die d).wagV) ∧ state t = state s ∧
        t.fld 38 .wagStat 15 0 = unsigned 16 (max (-0x7FFF) (min 0x7FFF (8 * ((near : Int) - (now : Int))))))) ∧
    ∀ h high, (s.fld 38 .wagExt 31 31 = 0 ∨ role ≠ 1) → exec (.pkgSyncEdge h high) s = .next s

/-- Lost clocks (R487): a die that loses its PLL gates its clocks, loses LOCK, raises its error and, on a compute or memory
die, reports fault 7; a lost reference is raised on both control dies; a link whose partner has stopped its clocks goes
DOWN. -/
def Claim.ClockLosses : Prop :=
  ∀ (s : State), s.host.waits = [] →
    (∀ d, d < 40 → ∃ t, exec (.pllLoss d) s = .next t ∧ t.mem = s.mem ∧ bit (t.reg d .clkErr) 1 = true ∧
      t.fld d .clkStat 31 31 = 0 ∧ (t.die d).heat.gated = true ∧ bit (t.reg 38 .rasAlertc) 1 = true ∧
      (t.die d).faults = (if d < 36 then (s.die d).faults ++ [7] else (s.die d).faults)) ∧
    (∃ t, exec .refLoss s = .next t ∧ t.mem = s.mem ∧ t.dies = s.dies ∧ bit (t.reg 38 .clkErr) 0 = true ∧
      bit (t.reg 39 .clkErr) 0 = true ∧ bit (t.reg 38 .rasAlertc) 1 = true ∧ ∀ d, d < 40 → t.fld d .clkStat 30 30 = 0) ∧
    (∀ d l e m, d < 40 → l < 8 → partner d l = some (e, m) →
      ((s.die e).heat.gated = true → ∃ t, exec (.forwardedClockLoss d l) s = .next t ∧ t.mem = s.mem ∧ t.linkState d l = 4 ∧
        t.linkState e m = 4) ∧
      ((s.die e).heat.gated = false → (s.die e).heat.tripped = false → exec (.forwardedClockLoss d l) s = .next s))

/-- Clock losses, the waggle copies and sync (R487, R489, R490, R493 to R499, R632). -/
def Obligations.Clocks : Prop := Claim.WaggleCopies ∧ Claim.Swarm ∧ Claim.ClockLosses

/-! ## Power and heat -/

/-- The governor (R511, R513 to R515, R529): a compute die's allowance for the next loop step is what its limit less the
margin leaves beside the power of everything else, at most a slew above the last one, from 512 to 8,192; its cores' CAPs
share it out, the extra passes from the start core on; another die skips cycles while it is above its limit; KD0 keeps the
highest input power. -/
def Claim.Governor : Prop :=
  ∀ (s : State) (d h w f pin : Nat), d < 40 →
    let p := 8 * w + f
    let passes := (s.die d).heat.passes
    let lim := s.fld d .pwrLim 11 0
    let margin := s.fld d .pwrLim 31 24
    let room : Int := ((lim : Int) - (margin : Int)) * 100000000 - max 0 (((p * 12500000 : Nat) : Int) - ((passes * 16384 : Nat) : Int))
    let last := s.fld d .pwrStat 47 32 + s.fld d .pwrLim 23 12
    let a := (max 512 (min 8192 (min (room / 3276800) (last : Int)))).toNat
    let first := (s.die d).heat.start
    ∃ t, exec (.governorStep d h w f pin) s = .next t ∧ t.hc = max s.hc h ∧ t.mem = s.mem ∧ t.engines = s.engines ∧
      t.fld d .pwrStat 15 0 = p % 2 ^ 16 ∧ t.fld d .pwrStat 31 16 = max (min p 0xFFFF) (s.fld d .pwrStat 31 16) ∧
      (∀ e, e ≠ d → t.die e = s.die e) ∧
      (d < 32 → t.fld d .pwrStat 47 32 = a ∧
        t.fld d .pwrStat 63 63 = b2n (decide (room / 3276800 < ((min 8192 last : Nat) : Int))) ∧
        (t.die d).heat.start = (first + a % 512) % 512 ∧ (t.die d).heat.passes = 0 ∧
        (∀ i, i < 512 → (t.core d ((first + i) % 512)).cap = a / 512 + (if i < a % 512 then 1 else 0)) ∧
        ∀ cd k, cd ≠ d → k < 512 → t.core cd k = s.core cd k) ∧
      (32 ≤ d → t.cores = s.cores ∧ (t.die d).heat.skip = decide (8 * (lim - margin) < p) ∧
        t.fld d .pwrStat 63 63 = b2n (s.die d).heat.skip) ∧
      (d = 38 → t.fld 38 .pwrPkgstat 47 32 = max (min pin 0xFFFF) (s.fld 38 .pwrPkgstat 47 32))

/-- A temperature sample (R518 to R524) of a die whose clocks run: the die's temperature is its hottest valid reading, or 100 °C once fewer than six
are valid; the thresholds at 90, 95 and 100 °C are left 3 °C below and no sooner than 1 ms after; the level is the
higher of the die's own and the external throttle's; a warning, level 2 and a sensor failure are recorded. A die whose clocks
stand takes none; a tripped one comes out of its reset once all its sensors read 105 °C or less. -/
def Claim.ThermalSamples : Prop :=
  ∀ (s : State) (d h : Nat) (ts : List (Option Int)), d < 40 → ts.length = 8 → s.host.waits = [] →
    let good := ts.filterMap (fun x => if validTemp x then x else none)
    let x := (s.die d).heat
    let failed := x.failed = true ∨ good.length < 6
    let cool := ∀ y ∈ ts, ∃ v : Int, y = some v ∧ v ≤ 840
    (x.gated = true → ¬(s.tripHeld d = true ∧ cool) → exec (.thermalSample d h ts) s = .next (s.toHc h)) ∧
    (x.gated = true → s.tripHeld d = true → cool → ∃ t, exec (.thermalSample d h ts) s = .next t ∧ t.mem = s.mem ∧
      t.cores = s.cores ∧ (t.die d).heat = { x with tripped := false, gated := false } ∧ ∀ e, e ≠ d → t.die e = s.die e) ∧
    (x.gated = false → ∀ T : Int, (failed → T = 800) → (¬failed → T = good.foldl max (-320)) →
    let on (was : Option Nat) (limit : Int) : Bool := match was with
      | none => decide (limit ≤ T)
      | some e => !(decide (T ≤ limit - 24) && decide (e + 100000 ≤ h))
    let inner := bif on x.lvl2 800 then 2 else bif on x.lvl1 760 then 1 else 0
    let outer := if s.plat.throttleFrom ≤ h ∧ (s.plat.throttle = true ∨ h < s.plat.throttleUntil) then 1 else 0
    ∃ t, exec (.thermalSample d h ts) s = .next t ∧ t.mem = s.mem ∧ t.cores = s.cores ∧
      t.fld d .thmStat 15 0 = unsigned 16 T ∧ (t.fld d .thmStat 27 27 = 1 ↔ failed) ∧
      t.fld d .thmStat 31 30 = max inner outer ∧ t.fld d .thmStat 28 28 = b2n (on x.warn 720) ∧
      (t.die d).heat.lvl2.isSome = on x.lvl2 800 ∧ (t.die d).heat.lvl1.isSome = on x.lvl1 760 ∧
      (t.fld d .thmStat 26 26 = b2n (t.writePermitted d)) ∧
      (∀ i v, i < 8 → ts.getD i none = some v → t.fld d .thmSens 15 0 i = unsigned 16 v) ∧
      (x.lvl2 = none → on x.lvl2 800 = true → bit (t.reg d .thmEvt) 2 = true ∧ bit (t.reg 38 .rasAlertc) 4 = true) ∧
      ∀ e, e ≠ d → t.die e = s.die e)

/-- The external throttle, the critical trip and the supply errors (R511, R521, R524, R530). -/
def Claim.Trips : Prop :=
  ∀ (s : State), s.host.waits = [] →
    (∀ h, s.hasThrottleIn = true → ∃ t, exec (.throttleInChange true h) s = .next t ∧ t.mem = s.mem ∧ t.dies = s.dies ∧
      t.plat.throttle = true ∧ t.plat.throttleUntil = h + 100000 ∧ ∀ d, d < 40 →
        t.fld d .thmStat 31 30 = max 1 (s.fld d .thmStat 31 30) ∧
        (s.fld d .thmStat 31 30 = 0 → bit (t.reg d .thmEvt) 1 = true)) ∧
    (∀ h, s.hasThrottleIn = false → exec (.throttleInChange true h) s = .next s) ∧
    (∀ h, ∃ t, exec (.throttleInChange false h) s = .next t ∧ t.plat = { s.plat with throttle := false } ∧ t.csr = s.csr ∧
      t.mem = s.mem) ∧
    (∀ m, (∃ d, d < 40 ∧ bit m d = true) → ∃ t, exec (.thermalTrip m) s = .next t ∧ t.mem = s.mem ∧ t.plat.thermtrip = true ∧
      bit (t.reg 38 .thmTrip) 63 = true ∧ ∀ d, d < 40 → (t.die d).heat.gated = true ∧
        (bit m d = true → (t.die d).heat.tripped = true ∧ bit (t.reg 38 .thmTrip) d = true) ∧
        (bit m d = false → (t.die d).heat.tripped = (s.die d).heat.tripped)) ∧
    (∀ m, (∀ d, d < 40 → bit m d = false) → exec (.thermalTrip m) s = .next s) ∧
    (∀ c ∈ [(Instr.inputUndervoltage, 0), (Instr.inputOvervoltage, 1)], ∃ t, exec c.1 s = .next t ∧ t.mem = s.mem ∧
      t.dies = s.dies ∧ bit (t.reg 38 .pwrErr) c.2 = true ∧ bit (t.reg 38 .rasAlertc) 2 = true) ∧
    ∃ t, exec .vrFault s = .next t ∧ t.mem = s.mem ∧ t.dies = s.dies ∧ bit (t.reg 38 .pwrErr) 3 = true ∧
      t.reg 38 .rasAlertc = s.reg 38 .rasAlertc

/-- The governor, thermal control, trips and supply errors (R511 to R530). -/
def Obligations.PowerAndHeat : Prop := Claim.Governor ∧ Claim.ThermalSamples ∧ Claim.Trips

/-! ## Faults and recovery -/

/-- The steps of a recovery of a compute die (R571, R574, R583): a fault starts one, counted; QUIESCE stops the cores and
ends when they have stopped; CLEAR leaves every core as it was before its first run and every router empty; RESTART
starts every core; REPLAY ends when nothing is awaited any more. With RAS_CTL.EN at 0 a fault is class E. A FAILED die
takes no step. -/
def Claim.RecoverySteps : Prop :=
  ∀ (s : State) (d : Nat), d < 32 → s.host.waits = [] →
    let x := s.die d
    let st (t : State) := t.fld d .rasStat 63 61
    let times := x.ras.times.filter (fun h => decide (s.hc < h + 100000))
    (st s = 7 → exec (.faultRecovery d) s = .next s) ∧
    (∀ c cs, st s ≠ 7 → st s ≠ 6 → x.faults = c :: cs → c < 32 → 7 ∉ x.faults → s.fld d .rasCtl 31 31 = 1 → x.ras.rec_ = none →
      times.length < s.fld d .rasCtl 3 0 → ∃ t, exec (.faultRecovery d) s = .next t ∧ t.mem = s.mem ∧ t.cores = s.cores ∧
        st t = 1 ∧ t.fld d .rasStat 60 56 = c ∧ (t.die d).faults = [] ∧
        (t.die d).ras.rec_ = some { cause := c, since := s.hc } ∧
        t.fld d .rasStat 47 32 = min 0xFFFF (s.fld d .rasStat 47 32 + 1)) ∧
    (∀ c cs, st s ≠ 7 → st s ≠ 6 → x.faults = c :: cs → c < 32 → 7 ∉ x.faults → s.fld d .rasCtl 31 31 = 0 → c ≠ 14 →
      ∃ t, exec (.faultRecovery d) s = .next t ∧ t.mem = s.mem ∧ st t = 7 ∧ t.fld d .rasStat 60 56 = c ∧ t.warmDue.isSome ∧
        bit (t.reg 38 .rasAlert) d = true ∧ bit (t.reg 38 .rasAlertc) 9 = true) ∧
    (st s = 1 → x.faults = [] → (∀ k, (s.core d k).run = .active → k < 512 → (s.core d k).stopping = false → ∃ t,
      exec (.faultRecovery d) s = .next t ∧ t.mem = s.mem ∧ st t = 1 ∧ (t.core d k).stopping = true)) ∧
    (st s = 1 → x.faults = [] → (∀ e ∈ s.cores, e.1 / 512 = d → e.2.run = .stopped) → ∃ t,
      exec (.faultRecovery d) s = .next t ∧ t.mem = s.mem ∧ st t = 2 ∧ t.cores = s.cores) ∧
    (st s = 2 → x.faults = [] → ∃ t, exec (.faultRecovery d) s = .next t ∧ t.mem = s.mem ∧
      (∀ k, k < 512 → (t.core d k).regs = ({} : Core).regs ∧ (t.core d k).run = .stopped ∧ (t.core d k).pc = 0) ∧
      (∀ c, c < 64 → t.router d c = {}) ∧
      (Tab.rising 0 s.cores = true → ∀ cd k, cd ≠ d → k < 512 → t.core cd k = s.core cd k) ∧
      ((∀ e ∈ s.engines, e.1 / 17 / 512 = d → e.2.state ≠ .faulted) → st t = 4 ∧ t.engines = s.engines)) ∧
    (st s = 4 → x.faults = [] → x.wagValid = true → ∃ t, exec (.faultRecovery d) s = .next t ∧ t.mem = s.mem ∧ st t = 5 ∧
      ∀ k, k < 512 → (s.core d k).run = .stopped → (t.core d k).run = .active ∧ (t.core d k).pc = 0) ∧
    (∀ r, st s = 5 → x.faults = [] → x.ras.rec_ = some r → r.landed = true → x.ras.expect = [] → ∃ t,
      exec (.faultRecovery d) s = .next t ∧ t.mem = s.mem ∧ t.cores = s.cores ∧ st t = 0 ∧ (t.die d).ras.rec_ = none ∧
        t.fld d .rasCtl 30 30 = 0 ∧ bit (t.reg 38 .rasAlert) d = false ∧
        t.fld d .rasStat 31 16 = min ((s.hc - r.since) / 100) 0xFFFF)

/-- Class C and the die reset (R566, R579, R590): a die fault puts a compute or memory die into DIE_RESET, and a second one
within 1 s is class E; the reset of a memory die keeps every byte of memory, and that of a compute die without a staged
image leaves none of its own; with the refills over the die goes on to RESTART. -/
def Claim.DieResets : Prop :=
  ∀ (s : State) (d : Nat), d < 36 → s.host.waits = [] →
    let x := s.die d
    let st (t : State) := t.fld d .rasStat 63 61
    (st s ≠ 7 → 7 ∈ x.faults → (∀ h, x.ras.lastC = some h → h + 100000000 ≤ s.hc) → ∃ t, exec (.faultRecovery d) s = .next t ∧
      t.mem = s.mem ∧ st t = 6 ∧ t.fld d .rasStat 60 56 = 7 ∧ (t.die d).faults = [] ∧
      (t.die d).ras.rec_ = some { cause := 7, since := s.hc } ∧ (t.die d).ras.lastC = some s.hc) ∧
    (∀ h, st s ≠ 7 → 7 ∈ x.faults → x.ras.lastC = some h → s.hc < h + 100000000 → ∃ t, exec (.faultRecovery d) s = .next t ∧
      t.mem = s.mem ∧ st t = 7 ∧ t.warmDue.isSome) ∧
    (x.ras.rec_ = none ∨ st s ≠ 6 → exec (.dieReset d) s = .next s) ∧
    (∀ r, x.ras.rec_ = some r → st s = 6 → r.landed = true → (∀ l ∈ s.loaders, l.why ≠ 2) → ∃ t,
      exec (.dieReset d) s = .next t ∧ t.mem = s.mem ∧ st t = 4 ∧ (t.die d).ras.rec_ = some { r with landed := false }) ∧
    (∀ r, x.ras.rec_ = some r → st s = 6 → r.landed = false → ∃ t, exec (.dieReset d) s = .next t ∧
      (t.die d).wagValid = false ∧ (32 ≤ d → t.mem = s.mem) ∧
      (d < 32 → s.stageState ≠ 2 → (∀ o, o < 2 ^ 46 → t.readByte (pkgAddr d o) = 0) ∧
        (∀ e o, e ≠ d → o < 2 ^ 46 → t.readByte (pkgAddr e o) = s.readByte (pkgAddr e o)) ∧
        ∀ k, k < 512 → t.core d k = {}))

/-- The other commands of the reliability engines (R570, R577, R580, R581, R583): FORCE reports a fault, once; a release frees the
copies of its step and receiver, unless the step is not complete; a resend sends the retained messages for a receiver and
group again, in order, but for those that the receiver holds, and keeps their copies; one that finds an uncorrectable copy sets
UE; a control die counts the other's missing heartbeats, and takes over after three: the
requests of the other's host port end. -/
def Claim.Reliability : Prop :=
  ∀ (s : State) (d : Nat), hasRas d = true →
    (s.fld d .rasCtl 30 30 = 0 → ∃ t, exec (.rasForce d) s = .next t ∧ t.resp.status = 0 ∧ t.fld d .rasCtl 30 30 = 1 ∧
      (t.die d).faults = (s.die d).faults ++ [14] ∧ t.mem = s.mem) ∧
    (s.fld d .rasCtl 30 30 = 1 → ∃ t, exec (.rasForce d) s = .next t ∧ t.resp.status = 0 ∧ t.dies = s.dies ∧ t.csr = s.csr ∧
      t.mem = s.mem) ∧
    (∀ k p e, k < 16384 → (p ≠ s.pkgId d ∨ s.stepComplete e k = true) → ∃ t, exec (.stepRelease d k p e) s = .next t ∧
      t.mem = s.mem ∧ t.csr = s.csr ∧ (t.fab d).retained = (s.fab d).retained.filter
        (fun r => !(decide (r.1 = k) && decide (s.finalDie r.2 = (p, e))))) ∧
    (∀ k e, k < 16384 → s.stepComplete e k = false → exec (.stepRelease d k (s.pkgId d) e) s = .next s) ∧
    (∀ p e g skip,
      let kept := (s.fab d).retained.filter (fun r => decide (s.finalDie r.2 = (p, e)) && decide (s.finalGroup r.2 = g))
      let held := ((s.fab e).log.filter (fun x => match x with
        | .landing pkg die group _ _ => decide (pkg = s.pkgId d) && decide (die = d) && decide (group = g)
        | _ => false)).length
      let again := kept.drop (if p = s.pkgId d then held else skip)
      ((∀ r ∈ kept, r.2.storeErr = 0) → ∃ t, exec (.resendRequest d p e g skip) s = .next t ∧ t.mem = s.mem ∧
        t.cores = s.cores ∧ (t.fab d).retained = (s.fab d).retained ∧ (t.fab d).log = (s.fab d).log ∧ (again = [] → t = s) ∧
        ∀ l, s.linkState d l ≠ 4 → (∀ r ∈ again, r.2.dpkg = s.pkgId d ∧ bit (s.reg d .pfabRt r.2.ddie) 31 = true ∧
            s.reg d .pfabRt r.2.ddie % 8 = l) →
          (t.link d l).tx.q = (s.link d l).tx.q ++ again.map (fun r => { msg := r.2 })) ∧
      ((∃ r ∈ kept, 2 ≤ r.2.storeErr) → ∃ t, exec (.resendRequest d p e g skip) s = .next t ∧
        bit (t.reg d .rasStore) 63 = true)) ∧
    (38 ≤ d → (∃ t, exec (.kdHeartbeat d false) s = .next t ∧ t.csr = s.csr ∧ t.mem = s.mem ∧
        t.plat = (if d = 38 then { s.plat with missed0 := s.plat.missed0 + 1 } else { s.plat with missed1 := s.plat.missed1 + 1 })) ∧
      ((s.die d).heat.gated = false → s.arrives d (77 - d) = true → ∃ t, exec (.kdHeartbeat d true) s = .next t ∧
        t.mem = s.mem ∧ t.plat = (if d = 38 then { s.plat with missed0 := 0 } else { s.plat with missed1 := 0 })) ∧
      (let missed := if d = 38 then s.plat.missed1 else s.plat.missed0
       (missed < 3 → exec (.controlDieTakeover d) s = .next s) ∧
       (3 ≤ missed → s.plat.lostKd = 0 → s.host.waits = [] → (∀ k ∈ s.slotList, k < 16384) → s.slotList.Nodup →
        ∃ t, exec (.controlDieTakeover d) s = .next t ∧ t.mem = s.mem ∧ t.plat.lostKd = 1 + (77 - d) ∧
          bit (t.reg 38 .rasAlertc) 12 = true ∧ t.fld 38 .rasAlertc 11 11 = d - 38 ∧
          ∀ k ∈ s.slotList, fnPort (s.slot k).fn = 39 - d → (s.sstate k = 7 → t.sstate k = 0) ∧
            (2 ≤ s.sstate k → s.sstate k ≤ 4 → t.sstate k = 5))))

/-- Recovery, die resets, releases and the loss of a control die (R566 to R583, R590). -/
def Obligations.Recovery : Prop := Claim.RecoverySteps ∧ Claim.DieResets ∧ Claim.Reliability

/-! ## Resets and boot -/

/-- Cold starts (R460, R461, R524, R589 to R592): a supply that comes alone is noted; with both supplies and no RST_N the
package boots: every register file, engine and memory of the cold reset; with no accepted slot it stays in RECOVERY, and
without an owner's record it serves as package 0. A supply that goes clears everything but fuses, flash and, until 12 V
goes, THM_TRIP. -/
def Claim.ColdStarts : Prop :=
  ∀ (s : State) (h : Nat) (owned encrypt : Bool) (pkg stfail : Nat) (tables : List (Nat × Nat × Word64)), s.host.waits = [] →
    let cleared (t : State) : Prop := t.mem = [] ∧ t.memErr = [] ∧ t.cores = [] ∧ t.routers = [] ∧ t.srv = {} ∧ t.loaders = [] ∧
      t.pending = s.pending ∧ t.sec.fuses = s.sec.fuses ∧ t.hc = max s.hc h
    (∀ c ∈ [(Instr.vinRise h owned encrypt pkg tables stfail, s.plat.vin, s.plat.pwrok, { s.plat with vin := true }),
        (Instr.pwrokAssert h owned encrypt pkg tables stfail, s.plat.pwrok, s.plat.vin, { s.plat with pwrok := true })],
      (c.2.1 = true → ∃ t, exec c.1 s = .next t ∧ t = { s with hc := max s.hc h }) ∧
      (c.2.1 = false → (c.2.2.1 = false ∨ s.plat.rstLow ≠ none) → ∃ t, exec c.1 s = .next t ∧
        t = { s with
          hc := max s.hc h
          plat := c.2.2.2 }) ∧
      (c.2.1 = false → c.2.2.1 = true → s.plat.rstLow = none → s.plat.saving = none →
        (s.slotCode 0 ≠ 0 → s.slotCode 1 ≠ 0 → ∃ t, exec c.1 s = .next t ∧ cleared t ∧ t.fld 38 .pwrBoot 59 56 = 6 ∧
          t.fld 38 .secBoot 31 30 = 2 ∧ t.fld 38 .secBoot 7 4 = s.slotCode 0 ∧ t.fld 38 .secBoot 3 0 = s.slotCode 1 ∧
          bit (t.reg 38 .rasAlertc) 7 = true) ∧
        (s.slotCode 0 = 0 → owned = false → ∃ t, exec c.1 s = .next t ∧ cleared t ∧ t.fld 38 .pwrBoot 59 56 = 0xF ∧
          t.fld 38 .pwrBoot 63 61 = 0 ∧ t.fld 38 .pwrBoot 39 0 = stfail % 2 ^ 40 ∧ t.fld 38 .secBoot 31 29 = 2 ∧
          t.fld 38 .secBoot 28 28 = 0 ∧ bit (t.reg 38 .rasAlertc) 7 = true ∧
          ∀ d, d < 40 → t.fld d .pfabPkgid 11 0 = 0 ∧ t.fld d .pfabCtl 31 31 = 1))) ∧
    (s.plat.saving = none → ∃ t, exec (.vinLoss h) s = .next t ∧ cleared t ∧ t.csr = [] ∧ t.plat.vin = false ∧
      t.plat.thermtrip = false ∧ t.plat.flash = s.plat.flash) ∧
    (s.plat.pwrok = false → ∃ t, exec (.pwrokDeassert h) s = .next t ∧ t = { s with hc := max s.hc h }) ∧
    (s.plat.pwrok = true → s.plat.saving = none → ∃ t, exec (.pwrokDeassert h) s = .next t ∧ cleared t ∧ t.plat.pwrok = false ∧
      t.plat.flash = s.plat.flash ∧ t.plat.thermtrip = false ∧ t.reg 38 .thmTrip = s.reg 38 .thmTrip ∧
      ∀ d, d < 40 → (t.die d).heat.gated = true)

/-- Warm restarts (R590, R593, R597, R598, R608): RST_N holds the package in warm reset, in which HBM and nothing else of
memory is kept and every used slot ends with FAULT; its release boots; a restart that is due runs at its time, by the same
reset; PWR_RESET.WARM makes one due 1 ms later, for a host or the BMC only; RST_LONG tells how long RST_N is held. -/
def Claim.WarmStarts : Prop :=
  ∀ (s : State) (h : Nat), s.host.waits = [] →
    let kept (t : State) : Prop := (∀ d o, o < 2 ^ 46 → t.readByte (pkgAddr d o) =
        (if 32 ≤ d ∧ d < 36 then s.readByte (pkgAddr d o) else 0)) ∧ t.pending = s.pending ∧ t.sec.fuses = s.sec.fuses
    (s.plat.rstLow ≠ none → ∃ t, exec (.rstNAssert h) s = .next t ∧ t = { s with hc := max s.hc h }) ∧
    (s.plat.rstLow = none → (∀ k ∈ s.slotList, k < 16384) → ∃ t, exec (.rstNAssert h) s = .next t ∧ kept t ∧ t.cores = [] ∧
      t.routers = [] ∧ t.srv = {} ∧ t.plat.rstLow = some h ∧ (t.die 38).wagV = (s.die 38).wagV ∧
      ∀ k ∈ s.slotList, s.sstate k ≠ 0 → t.sstate k = 0 ∧ t.fld 38 .srvSlot0 50 43 k = 0x10) ∧
    (∀ owned encrypt pkg tables stfail,
      (s.plat.rstLow = none → ∃ t, exec (.rstNRelease h owned encrypt pkg tables stfail) s = .next t ∧
        t = { s with hc := max s.hc h }) ∧
      (s.plat.rstLow ≠ none → s.fld 38 .pwrBoot 59 56 = 0xF → s.slotCode 0 = 0 → s.stageState ≠ 2 →
        ∃ t, exec (.rstNRelease h owned encrypt pkg tables stfail) s = .next t ∧ t.mem = s.mem ∧ t.plat.rstLow = none ∧
          t.fld 38 .pwrBoot 63 61 = 1 ∧ t.fld 38 .pwrBoot 59 56 = 0xF)) ∧
    (∀ stfail, (s.warmDue = none → exec (.warmRestart h stfail) s = .next s) ∧
      ∀ d, s.warmDue = some d → (h < d → exec (.warmRestart h stfail) s = .next s) ∧
        (d ≤ h → (s.slotCode 0 = 0 ∨ s.slotCode 1 = 0) → s.stageState ≠ 2 → s.plat.saving = none →
          ∃ t, exec (.warmRestart h stfail) s = .next t ∧ kept t ∧ t.cores = [] ∧ t.srv.queue = [] ∧ t.warmDue = none ∧
            t.fld 38 .pwrBoot 63 61 = s.plat.warmWhy % 8)) ∧
    (∀ who ∈ [Who.bmc, .pf 0, .pf 1], (s.dieOf who = 38 ∨ (s.tagAtOnce (s.accessor who) 38).isSome = true) →
      (s.warmDue = none → ∃ t, exec (.pwrResetWarm who) s = .next t ∧ t.resp.status = 0 ∧
        t.warmDue = some (s.hc + 100000) ∧ t.plat.warmWhy = 2 ∧ t.mem = s.mem ∧ t.csr = s.csr) ∧
      (s.warmDue ≠ none → ∃ t, exec (.pwrResetWarm who) s = .next t ∧ t.resp.status = 0 ∧
        t.warmDue = s.warmDue ∧ t.plat = s.plat ∧ t.mem = s.mem ∧ t.csr = s.csr)) ∧
    (∀ who ∈ [Who.firmware, .jtag], (s.dieOf who = 38 ∨ (s.tagAtOnce (s.accessor who) 38).isSome = true) →
      ∃ t, exec (.pwrResetWarm who) s = .next t ∧ t.resp.status = 2 ∧ t.warmDue = s.warmDue ∧ t.plat = s.plat ∧ t.mem = s.mem ∧
        ∀ a, ¬FabErrWrites 38 0 a → Tab.get 0#64 t.csr a = Tab.get 0#64 s.csr a) ∧
    (∀ port f, f < 1024 → ∃ t, exec (.pwrResetWarm (.vf port f)) s = .next t ∧ t.resp.status = 2 ∧ t.warmDue = s.warmDue ∧
      t.mem = s.mem) ∧
    (∀ since, s.plat.rstLow = some since → ∃ t, exec (.rstLong h) s = .next t ∧ t.mem = s.mem ∧
      (since + 100000000 ≤ h → t.fld 38 .pwrBoot 60 60 = 1) ∧ (h < since + 100000000 → t.csr = s.csr) ∧
      (since + 1000000000 ≤ h → bit (t.reg 38 .rasAlertc) 7 = true))

/-- The retirement record and the host ports' resets (R412, R595, R596, R598, R599): with nothing to record no copy is
written; a good write leaves a copy that lists what had retired, a failed one raises the alert and keeps the list; PERST
holds a port and restarts its responder; its release makes the port ready once the package is. -/
def Claim.RecordAndPorts : Prop :=
  ∀ (s : State),
    (∀ ok, s.plat.retire = [] → exec (.retirementRecordWrite ok) s = .next s) ∧
    (s.plat.retire ≠ [] → (∃ t c n ones, exec (.retirementRecordWrite true) s = .next t ∧ t.mem = s.mem ∧ t.csr = s.csr ∧ c < 2 ∧
        t.plat.retire = [] ∧ t.readFlash (retCopy c) 65536 = s.retRecord n ones ∧ (∀ b ∈ s.plat.retire, b ∈ ones) ∧
        ∀ k, s.retBest = some k → n = s.retSeq k + 1 ∧ ∀ b ∈ s.retBits k, b ∈ ones) ∧
      (s.host.waits = [] → ∃ t, exec (.retirementRecordWrite false) s = .next t ∧ t.mem = s.mem ∧ t.plat.retire = s.plat.retire ∧
        bit (t.reg 38 .rasAlertc) 7 = true)) ∧
    (∀ port, port < 2 → ∃ t, exec (.perstAssert port) s = .next t ∧ t.mem = s.mem ∧ bit t.plat.perst port = true ∧ bit t.plat.ready port = false ∧
        t.spdm port = {} ∧ t.spdm (1 - port) = s.spdm (1 - port) ∧ ∀ w ∈ t.host.waits, fnPort w.1 ≠ port) ∧
    (∀ port, port < 2 → (bit s.plat.perst port = false → exec (.perstRelease port) s = .next s) ∧
      (bit s.plat.perst port = true → ∃ t, exec (.perstRelease port) s = .next t ∧ t = { s with plat := t.plat } ∧
        bit t.plat.perst port = false ∧
        bit t.plat.ready port = (decide (s.fld 38 .pwrBoot 59 56 = 0xF) || bit s.plat.ready port)))

/-- Power-up, resets and boot (R412, R460, R461, R589 to R599, R608). -/
def Obligations.Resets : Prop := Claim.ColdStarts ∧ Claim.WarmStarts ∧ Claim.RecordAndPorts

/-! ## Pins and the BMC -/

/-- The sideband pins (R521, R602 to R607): a write of a reserved function is refused; a new function takes the pin at once,
the same one goes on with its FILT; a stable input changes PIN_SBIN, and the throttle stays on while any of its inputs is low;
edges of a fan give its period; PWM and LED toggle at the end of each phase, and each new period takes the PARAM of its
start. -/
def Claim.Sideband : Prop :=
  ∀ (s : State) (kd i : Nat), (kd = 38 ∨ kd = 39) → i < 8 →
    let f := s.fld kd .pinSbcfg 31 28 i
    let par := s.fld kd .pinSbcfg 15 0 i
    let x := s.pin kd i
    let low := bit (s.fld kd .pinSbin 7 0) i = false
    (∀ v : Word64, (8 ≤ bits v.toNat 31 28 ∨ (bits v.toNat 31 28 = 6 ∧ ¬(kd = 38 ∧ i = 7))) →
      ∃ t, exec (.pinSbcfgWrite kd i v) s = .next t ∧ t.resp.status = 2 ∧ t.csr = s.csr ∧ t.plat = s.plat ∧ t.mem = s.mem) ∧
    (∀ v : Word64, bits v.toNat 31 28 = 1 → ∃ t, exec (.pinSbcfgWrite kd i v) s = .next t ∧ t.resp.status = 0 ∧ t.mem = s.mem ∧
      t.pinFunc kd i = 1 ∧ t.pinLevel kd i = bit v.toNat 0 ∧
      t.fld kd .pinSbcfg 24 23 i = (if f = 1 then s.fld kd .pinSbcfg 24 23 i else bits v.toNat 24 23)) ∧
    (∀ v : Word64, bits v.toNat 31 28 = 2 → f ≠ 2 → ∃ t, exec (.pinSbcfgWrite kd i v) s = .next t ∧ t.resp.status = 0 ∧
      t.mem = s.mem ∧ t.fld kd .pinTach 31 31 i = 0 ∧ (t.pin kd i).edges = 0) ∧
    (∀ h level, x.deaf ≤ h → (low ↔ level = true) → ∃ t, exec (.sidebandInput kd i h level) s = .next t ∧ t.mem = s.mem ∧
      bit (t.reg kd .pinSbin) i = level ∧ (∀ j, j < 8 → j ≠ i → bit (t.reg kd .pinSbin) j = bit (s.reg kd .pinSbin) j) ∧
      (f = 5 → (level = false → t.plat.throttle = true) ∧
        (level = true → t.plat.throttle = if t.throttlePins then s.plat.throttle else false)) ∧
      (f ≠ 5 → t.plat = s.plat)) ∧
    (∀ h level, (h < x.deaf ∨ (low ↔ level = false)) → ∃ t, exec (.sidebandInput kd i h level) s = .next t ∧
      t = { s with hc := max s.hc h }) ∧
    (∀ h, f = 2 → 1 ≤ x.edges → ∃ t, exec (.tachEdge kd i h) s = .next t ∧ t.mem = s.mem ∧ t.fld kd .pinTach 31 31 i = 1 ∧
      t.fld kd .pinTach 23 0 i = min 0xFFFFFF ((h - x.edgeHc) / 100) ∧ (t.pin kd i).edgeHc = h) ∧
    (∀ h, f = 2 → x.edges = 0 → ∃ t, exec (.tachEdge kd i h) s = .next t ∧ t.mem = s.mem ∧ t.csr = s.csr ∧
      (t.pin kd i).edges = 1 ∧ (t.pin kd i).edgeHc = h) ∧
    (let period := bits par 15 8
     let high := bits par 7 0 * period / 255
     ∀ h, f = 3 → x.due ≤ h →
      (x.out = true → 0 < x.low → ∃ t, exec (.pwmToggle kd i h) s = .next t ∧ t.mem = s.mem ∧
        t.pin kd i = { x with
          out := false
          due := h + x.low
          low := 0 }) ∧
      (x.out = false ∨ x.low = 0 → 0 < period → ∃ t, exec (.pwmToggle kd i h) s = .next t ∧ t.mem = s.mem ∧
        t.pin kd i = (if high = 0 then { x with
            out := false
            due := h + 100 * period
            low := 0 }
          else { x with
            out := true
            due := h + 100 * high
            low := 100 * (period - high) }))) ∧
    (let t_ := 1000000 * bits par 7 0
     ∀ h, f = 4 → x.due ≤ h →
      (x.out = true → 0 < x.low → ∃ t, exec (.ledToggle kd i h) s = .next t ∧ t.mem = s.mem ∧
        t.pin kd i = { x with
          out := false
          due := h + x.low
          low := 0 }) ∧
      (x.out = false ∨ x.low = 0 → ∃ t, exec (.ledToggle kd i h) s = .next t ∧ t.mem = s.mem ∧
        t.pin kd i = (if t_ = 0 then { x with
            out := bit par 8
            due := h
            low := 0 }
          else { x with
            out := true
            due := h + t_
            low := t_ }))) ∧
    ∀ h, (h < x.due ∨ f ≠ 3 → ∃ t, exec (.pwmToggle kd i h) s = .next t ∧ t = { s with hc := max s.hc h }) ∧
      (h < x.due ∨ f ≠ 4 → ∃ t, exec (.ledToggle kd i h) s = .next t ∧ t = { s with hc := max s.hc h })

/-- The BMC (R350, R364, R580, R601): an access to a place of the own package is made from its control die, and its status
byte and the data of a read wait for the block read, which returns them; while it is held up on its way the answer of before
stays (log entry 41). One to another package goes as a request of unit 1. -/
def Claim.BmcAccess : Prop :=
  ∀ (s : State) (a v : Word64) (w : Word32),
    (∃ t, exec .bmcBlockRead s = .next t ∧ t.resp = { status := 0, data := s.plat.bmc } ∧ t.plat = s.plat ∧ t.mem = s.mem) ∧
    let d := s.dieOf .bmc
    (addrPkg a.toNat = s.pkgId d →
      let at_ (n : Nat) (o : Option (List Byte)) : State :=
        s.access (s.accessor .bmc) .bmc (addrDie a.toNat) (addrOff a.toNat) n o
      let made (c : Instr) (n : Nat) (o : Option (List Byte)) : Prop := ∃ t, exec c s = .next t ∧
        t.mem = (at_ n o).mem ∧ t.csr = (at_ n o).csr ∧ t.resp = s.resp ∧
        ((at_ n o).resp.status = waitStatus → t.plat = (at_ n o).plat) ∧
        ((at_ n o).resp.status ≠ waitStatus →
          t.plat.bmc = toBytes 1 (at_ n o).resp.status ++ (if o = none then (at_ n o).resp.data else []))
      made (.bmcRead4 a) 4 none ∧ made (.bmcRead8 a) 8 none ∧ made (.bmcWrite4 a w) 4 (some (toBytes 4 w.toNat)) ∧
        made (.bmcWrite8 a v) 8 (some (toBytes 8 v.toNat))) ∧
    (addrPkg a.toNat ≠ s.pkgId d →
      let sent (n : Nat) (o : Option (List Byte)) : State := s.requestWait d 1 .bmc (accessMsg a.toNat n o)
      exec (.bmcRead4 a) s = .next (sent 4 none) ∧ exec (.bmcRead8 a) s = .next (sent 8 none) ∧
        exec (.bmcWrite4 a w) s = .next (sent 4 (some (toBytes 4 w.toNat))) ∧
        exec (.bmcWrite8 a v) s = .next (sent 8 (some (toBytes 8 v.toNat))))

/-- The sideband pins and the BMC (R350, R601 to R607). -/
def Obligations.PinsAndBmc : Prop := Claim.Sideband ∧ Claim.BmcAccess

/-! ## Observability -/

/-- Trace windows and PC samples (R611 to R616). -/
def Claim.Tracing : Prop :=
  ∀ (s : State) (cd : Nat), cd < 32 →
    let x := s.die cd
    let inside := x.wagValid = true ∧ s.reg cd .dbgTstart ≤ x.wagV.toNat ∧ x.wagV.toNat < s.reg cd .dbgTstop
    (inside → x.inWindow = false → ∃ t, exec (.traceWindowStart cd) s = .next t ∧ t.mem = s.mem ∧ (t.die cd).inWindow = true ∧
      t.fld cd .dbgTcfg 7 0 = (s.fld cd .dbgTcfg 7 0 + 1) % 256 ∧ t.cores = s.cores) ∧
    (¬inside ∨ x.inWindow = true → exec (.traceWindowStart cd) s = .next s) ∧
    (¬inside → x.inWindow = true → ∃ t, exec (.traceWindowStop cd) s = .next t ∧ t = { s with dies := t.dies } ∧
      t.die cd = { x with inWindow := false } ∧ ∀ d, d ≠ cd → t.die d = s.die d) ∧
    (inside ∨ x.inWindow = false → exec (.traceWindowStop cd) s = .next s) ∧
    ∀ k cc busy, k < 512 → ∃ t, exec (.pcSample cd k cc busy) s = .next t ∧ t.mem = s.mem ∧ t.engines = s.engines ∧
      (t.core cd k).regs = (s.core cd k).regs ∧
      (s.traced cd k 5 = false → s.SameCores t ∧ t.reg cd .dbgTdrop k = s.reg cd .dbgTdrop k) ∧
      (s.traced cd k 5 = true → (s.core cd k).trace.length < 8 → ∃ r, (t.core cd k).trace = (s.core cd k).trace ++ [r] ∧
        bits r.toNat 87 80 = 5 ∧ bits r.toNat 111 96 = cd * 512 + k ∧ ((s.core cd k).curLayer < 2 ^ 16 → (s.core cd k).curOp < 2 ^ 8 →
          bits r.toNat 155 144 = (s.core cd k).pc.toNat)) ∧
      (s.traced cd k 5 = true → 8 ≤ (s.core cd k).trace.length → (t.core cd k).trace = (s.core cd k).trace ∧
        t.reg cd .dbgTdrop k = min (s.reg cd .dbgTdrop k + 1) (2 ^ 64 - 1))

/-- The trace collector of a compute die (R616, R617): TRACE_WRITE takes the oldest record of a core that has one and lets
it wait for its pair, writes it with the one that waits, or, with the sink stopped, drops and counts it; TRACE_FLUSH writes
a lone record after 1 µs or at the window's end. A sink on die 40 to 63 is an address error of the die (R12, R336). -/
def Claim.TraceSink : Prop :=
  ∀ (s : State) (cd : Nat), cd < 32 →
    let c := Tab.get {} s.collectors cd
    let written := s.reg cd .dbgTwptr
    let size := s.fld cd .dbgTsize 15 0 * 65536
    let room := s.fld cd .dbgTcfg 29 29 = 1 ∨ 32 * (written + 2) ≤ size
    let place := s.reg cd .dbgTsink + 32 * written % size
    let sent (t : State) (a b : BitVec 256) : Prop := t.reg cd .dbgTwptr = (written + 2) % 2 ^ 64 ∧
      (addrDie place < 40 → ∃ m, (t.fab cd).inbox = (s.fab cd).inbox ++ [m] ∧ m.type = 2 ∧ m.ddie = addrDie place ∧
        m.addr = addrOff place ∧ m.data = toBytes 32 a.toNat ++ toBytes 32 b.toNat) ∧
      (40 ≤ addrDie place → bit (t.reg cd .pfabErr) 0 = true)
    let goesOn (k : Nat) (r : BitVec 256) (rest : List (BitVec 256)) (t : State) : Prop := exec (.traceWrite cd) s = .next t ∧
      k < 512 ∧ (s.core cd k).trace = r :: rest ∧ (t.core cd k).trace = rest ∧ t.mem = s.mem ∧
      (Tab.get {} t.collectors cd).turn = (k + 1) % 512
    ((∀ e ∈ s.cores, e.2.trace = []) → exec (.traceWrite cd) s = .next s) ∧
    (Tab.rising 0 s.cores = true → (∃ k, k < 512 ∧ (s.core cd k).trace ≠ []) →
      (s.fld cd .dbgTstat 30 29 ≠ 0 → ∃ t k r rest, goesOn k r rest t ∧
        t.reg cd .dbgTdrop k = min (s.reg cd .dbgTdrop k + 1) (2 ^ 64 - 1) ∧ (Tab.get {} t.collectors cd).half = c.half) ∧
      (s.fld cd .dbgTstat 30 29 = 0 → c.half = none → ∃ t k r rest, goesOn k r rest t ∧ t.csr = s.csr ∧
        (Tab.get {} t.collectors cd).half = some (r, s.hc)) ∧
      (∀ a h, s.fld cd .dbgTstat 30 29 = 0 → c.half = some (a, h) → room → ((s.fab cd).freeTag 4).isSome = true →
        ∃ t k r rest, goesOn k r rest t ∧ (Tab.get {} t.collectors cd).half = none ∧ sent t a r)) ∧
    ∀ h, (c.half = none → exec (.traceFlush cd h) s = .next s) ∧
      ∀ a at_, c.half = some (a, at_) →
        (h < at_ + 100 → (s.die cd).inWindow = true → exec (.traceFlush cd h) s = .next s) ∧
        (at_ + 100 ≤ h ∨ (s.die cd).inWindow = false →
          (¬room → ∃ t, exec (.traceFlush cd h) s = .next t ∧ t.mem = s.mem ∧ (Tab.get {} t.collectors cd).half = none ∧
            t.fld cd .dbgTstat 29 29 = 1 ∧ t.reg cd .dbgTdrop = min (s.reg cd .dbgTdrop + 1) (2 ^ 64 - 1)) ∧
          (room → ((s.fab cd).freeTag 4).isSome = true → ∃ t, exec (.traceFlush cd h) s = .next t ∧ t.mem = s.mem ∧
            (Tab.get {} t.collectors cd).half = none ∧ sent t a 0))

/-- Event rings and monitors (R619 to R621, R624, R626, R627): FREEZE writes what is staged, then its own entry, and freezes the
ring; THAW thaws it and writes its own entry as the newest; the step of DBG_RFREEZE freezes every ring of the die once; SNAP
copies the fields of a monitor into its shadow, CLR empties them. -/
def Claim.RingsAndMonitors : Prop :=
  ∀ (s : State),
    (∀ die u core, (if core then die < 32 ∧ u < 512 else die < 40 ∧ u < unitCount die) →
      let f : RegFam := if core then .dbgRstatc else .dbgRstatu
      let g : RegFam := if core then .dbgRingc else .dbgRingu
      let w := s.fld die f 15 0 u
      let ring : Ring := if core then .core u else .unit u
      let staged := (s.ringSt die ring).stage
      let entry (t : State) (code data : Nat) : Prop :=
        let n := (t.fld die f 15 0 u + 65535) % 65536
        t.reg die g u (2 * (n % 64) + 1) = (n % 256) <<< 56 + code <<< 48 + data ∧ (t.ringSt die ring).stage = [] ∧
          (staged = [] → n = w)
      (s.fld die f 31 31 u = 0 → ∃ t, exec (.freeze die core u) s = .next t ∧ t.resp.status = 0 ∧ t.mem = s.mem ∧
        t.fld die f 31 31 u = 1 ∧ entry t 0x3E 0) ∧
      (s.fld die f 31 31 u = 1 → ∃ t, exec (.freeze die core u) s = .next t ∧ t.resp.status = 0 ∧ t.csr = s.csr ∧ t.mem = s.mem) ∧
      ∃ t, exec (.thaw die core u) s = .next t ∧ t.resp.status = 0 ∧ t.mem = s.mem ∧ t.fld die f 31 31 u = 0 ∧ entry t 0x3F 0) ∧
    (∀ die, die < 40 →
      let at_ := s.reg die .dbgRfreeze
      (at_ = 2 ^ 64 - 1 ∨ (s.die die).wagValid = false ∨ (s.die die).wagV.toNat < at_ →
        exec (.ringFreezeStep die) s = .next s) ∧
      (at_ ≠ 2 ^ 64 - 1 → (s.die die).wagValid = true → at_ ≤ (s.die die).wagV.toNat →
        ∃ t, exec (.ringFreezeStep die) s = .next t ∧ t.mem = s.mem ∧ t.cores = s.cores ∧ t.reg die .dbgRfreeze = 2 ^ 64 - 1 ∧
          (∀ u, u < unitCount die → t.fld die .dbgRstatu 31 31 u = 1) ∧
          (die < 32 → ∀ k, k < 512 → t.fld die .dbgRstatc 31 31 k = 1))) ∧
    ∀ ctx die m, monExists ctx die m = true →
      let key := if ctx then 4096 + m else 16 * die + m
      let live := Tab.get {} s.monitors key
      (∃ t, exec (.monSnap ctx die m) s = .next t ∧ t.resp.status = 0 ∧ t.mem = s.mem ∧ t.csr = s.csr ∧
        Tab.get {} t.shadows key = (Tab.get {} t.monitors key).fields ∧
        (live.wait = [] → Tab.get {} t.monitors key = live) ∧
        ∀ j, j ≠ key → Tab.get {} t.shadows j = Tab.get {} s.shadows j ∧ Tab.get {} t.monitors j = Tab.get {} s.monitors j) ∧
      ∃ t, exec (.monClr ctx die m) s = .next t ∧ t.resp.status = 0 ∧ t.shadows = s.shadows ∧ t.mem = s.mem ∧ t.csr = s.csr ∧
        (Tab.get {} t.monitors key).fields = {} ∧
        ∀ j, j ≠ key → Tab.get {} t.monitors j = Tab.get {} s.monitors j

/-- Traces, event rings and monitors (R611 to R621, R626, R627). -/
def Obligations.Observability : Prop := Claim.Tracing ∧ Claim.TraceSink ∧ Claim.RingsAndMonitors

/-! ## The machine -/

/-- A step takes the command at the front of the queue and executes it with the queue's rest; on an empty queue the block
idles (the model's own convention, log entry 2). -/
def Obligations.StepRunsCommand : Prop :=
  (∀ (s : State) (c : Instr) (rest : List Instr), step { s with pending := c :: rest } = exec c { s with pending := rest }) ∧
  ∀ s : State, s.pending = [] → step s = .next s

/-- Every command whose operands name what the package has is carried out, in every state; any other stops the block by
name (R10, R16, R94). So no command is refused, and a queue of well-formed commands runs without a stop. -/
def Obligations.AcceptedIffWellFormed : Prop :=
  ∀ (i : Instr) (s : State), (i.wellFormed = true → ∃ t, exec i s = .next t) ∧
    (i.wellFormed = false → exec i s = .fault .noSuchUnit)

/-- No step of any command changes the queue's rest, nor a fuse but the fused SVN, which never falls (R459, R462, R590):
whatever holds of the fuses under the keys `K` and the SVN `n` still holds after it. -/
def Obligations.FusesNeverFall : Prop :=
  ∀ (K : Fuses) (n : Nat) (s t : State), s.FuseInv K n → step s = .next t → t.FuseInv K n ∧ t.pending = s.pending.tail

/-- Every step keeps the canonical form of memory: addresses strictly rise, and no byte is listed that reads as an unlisted
one. -/
def Obligations.MemoryStaysCanonical : Prop :=
  ∀ (s t : State), Memory.wf s.mem = true → step s = .next t → Memory.wf t.mem = true

/-- What holds right after reset (R6, R108, R123, R589): every register has its reset value, every core is STOPPED with its
registers at zero, s0 zero and p0 all ones, no command waits, memory is canonical and, by the model's choice (log entry
21), reads zero, and the fuses are those of the package. -/
def Claim.ResetState : Prop :=
  (∀ d f i j, State.reset.reg d f i j = Reg.reset ⟨f, i, j⟩ d % 2 ^ 64) ∧
  (∀ cd k, State.reset.coreState cd k = 0 ∧ (State.reset.core cd k).pc = 0 ∧ (∀ n, (State.reset.core cd k).sreg n = 0) ∧
    (∀ n, (State.reset.core cd k).vreg n = 0) ∧ (State.reset.core cd k).preg 0 = 2 ^ 256 - 1 ∧
    ∀ n, n ≠ 0 → (State.reset.core cd k).preg n = 0) ∧
  State.reset.pending = [] ∧ Memory.wf State.reset.mem = true ∧ (∀ a, State.reset.readByte a = 0) ∧
  State.reset.FuseInv State.reset.sec.fuses State.reset.sec.fuses.svn

/-- The hard-wired registers (R123): s0 reads zero and p0 all ones in every core, a write to either changes nothing of the
core, and a write to another register is read back from it and from no other. -/
def Claim.HardWired : Prop :=
  ∀ (c : Core) (n v : Nat), c.sreg 0 = 0 ∧ c.preg 0 = 2 ^ 256 - 1 ∧ c.setS 0 v = c ∧ c.setP 0 v = c ∧
    (n ≠ 0 → (c.setS n v).sreg n = v % 2 ^ 32 ∧ (c.setP n v).preg n = v % 2 ^ 256 ∧ (c.setV n v).vreg n = v % 2 ^ 2048 ∧
      ∀ m, m ≠ n → (c.setS n v).sreg m = c.sreg m ∧ (c.setP n v).preg m = c.preg m ∧ (c.setV n v).vreg m = c.vreg m)

/-- Reset and the hard-wired registers (R6, R108, R123, R589). -/
def Obligations.ResetAndHardWired : Prop := Claim.ResetState ∧ Claim.HardWired

/-- STATED R12: an access to die IDs 40 to 63, on a path that leads to other dies (R413), has no effect, reads as zeros, and is
reported as an address error: ADDR at the requester's die (R336, R375), and at the accessing function (R415). -/
def Obligations.AbsentDies : Prop :=
  ∀ (s : State) (who : Who) (die off width : Nat) (v : Word64), 40 ≤ die → die < 64 → barReaches who die off = true →
    let own (f a : Nat) : Prop := a = pkgAddr (38 + fnPort f) (Reg.off ⟨.cmdAerr, fnNo f, 0⟩) ∨
      a = pkgAddr (38 + fnPort f) (Reg.off ⟨.cmdAerra, fnNo f, 0⟩)
    let reported (t : State) (bs : List Byte) : Prop := t = { s with
        csr := t.csr
        rings := t.rings
        resp := { status := 1, data := bs } } ∧
      bit (t.reg (s.dieOf who) .pfabErr) 0 = true ∧
      (∀ a, (∀ f, who.fn? = some f → ¬own f a) → ¬FabErrWrites (s.dieOf who) 0 a → Tab.get 0#64 t.csr a = Tab.get 0#64 s.csr a) ∧
      ∀ f, who.fn? = some f →
        t.fld (38 + fnPort f) .cmdAerr 47 32 (fnNo f) = min 0xFFFF (s.fld (38 + fnPort f) .cmdAerr 47 32 (fnNo f) + 1)
    (∃ t, exec (.readClear who die off width) s = .next t ∧ reported t (List.replicate (width / 8) 0#8)) ∧
    ∃ t, exec (.registerWrite who die off width v) s = .next t ∧ reported t []

/-- R521: a sideband pin configured as the external throttle input puts every die of the package at level 1 for as long as
it is asserted, and for at least 1 ms after its assertion, whatever its temperature; a die at level 2 stays at level 2. -/
def Obligations.ExternalThrottle : Prop :=
  ∀ (s : State) (h : Nat),
    (∀ kd i, (kd = 38 ∨ kd = 39) → i < 8 → s.pinFunc kd i = 5 →
      ∃ t, exec (.throttleInChange true h) s = .next t ∧ t.plat.throttle = true ∧ t.plat.throttleUntil = h + 100000 ∧
        t.mem = s.mem ∧ t.dies = s.dies ∧ ∀ d, d < 40 →
          (s.fld d .thmStat 31 30 ≤ 1 → t.fld d .thmStat 31 30 = 1) ∧
          (s.fld d .thmStat 31 30 = 2 → t.fld d .thmStat 31 30 = 2)) ∧
    (∀ d ts, d < 40 → ts.length = 8 → s.host.waits = [] → (s.die d).heat.gated = false → s.plat.throttleFrom ≤ h →
      (s.plat.throttle = true ∨ h < s.plat.throttleUntil) →
      ∃ t, exec (.thermalSample d h ts) s = .next t ∧ 1 ≤ t.fld d .thmStat 31 30 ∧
        ((t.die d).heat.lvl2.isSome = true → t.fld d .thmStat 31 30 = 2) ∧ t.plat = s.plat) ∧
    ∃ t, exec (.throttleInChange false h) s = .next t ∧ t.plat.throttleUntil = s.plat.throttleUntil ∧ t.csr = s.csr

/-- R528: PWR_PKGCAP of KD0, at offset 0x100 of the power registers, holds EN in [31], reset 0, and CAP in [12:0], reset 6,500,
both RW; the bits between are reserved and read zero; a write of EN = 1 with CAP outside 1,000 to 6,500 has no effect. -/
def Obligations.PackageCap : Prop :=
  (∀ hi lo n, (hi, lo, n) ∈ [(31, 31, 0), (30, 13, 0), (12, 0, 6500)] → State.reset.fld 38 .pwrPkgcap hi lo = n) ∧
  ∀ (s : State) (v : Word64), s.plat.lostKd ≠ 39 →
    let cap := bits v.toNat 12 0
    let write := exec (.registerWrite .firmware 38 0x3F00B0000100 32 v) s
    (bit v.toNat 31 = true → (cap < 1000 ∨ 6500 < cap) → write = .next (s.respond 0)) ∧
    ((bit v.toNat 31 = false ∨ (1000 ≤ cap ∧ cap ≤ 6500)) → ∃ t, write = .next t ∧ t = { s with
        csr := t.csr
        resp := {} } ∧
      t.fld 38 .pwrPkgcap 31 31 = bits v.toNat 31 31 ∧ t.fld 38 .pwrPkgcap 12 0 = cap ∧
      t.fld 38 .pwrPkgcap 30 13 = s.fld 38 .pwrPkgcap 30 13) ∧
    exec (.readClear .firmware 38 0x3F00B0000100 32) s =
      .next (s.respond 0 (toBytes 4 (s.fld 38 .pwrPkgcap 31 31 * 2 ^ 31 + s.fld 38 .pwrPkgcap 12 0)))
end

