-- ==== Sys2Proof/Laws/State.lean ====
section
/-!
SUPPORT. What each update of the state leaves alone: one lemma per field and update, true by unfolding, so that no proof
unfolds a record update.
-/

namespace Sys2Proof.Machine

variable (s : State)

@[simp] theorem State.setReg_pending (d : Nat) (f : RegFam) (v i j : Nat) : (s.setReg d f v i j).pending = s.pending := rfl
@[simp] theorem State.setReg_hc (d : Nat) (f : RegFam) (v i j : Nat) : (s.setReg d f v i j).hc = s.hc := rfl
@[simp] theorem State.setReg_draws (d : Nat) (f : RegFam) (v i j : Nat) : (s.setReg d f v i j).draws = s.draws := rfl
@[simp] theorem State.setReg_mem (d : Nat) (f : RegFam) (v i j : Nat) : (s.setReg d f v i j).mem = s.mem := rfl
@[simp] theorem State.setReg_memErr (d : Nat) (f : RegFam) (v i j : Nat) : (s.setReg d f v i j).memErr = s.memErr := rfl
@[simp] theorem State.setReg_engines (d : Nat) (f : RegFam) (v i j : Nat) : (s.setReg d f v i j).engines = s.engines := rfl
@[simp] theorem State.setReg_cores (d : Nat) (f : RegFam) (v i j : Nat) : (s.setReg d f v i j).cores = s.cores := rfl
@[simp] theorem State.setReg_routers (d : Nat) (f : RegFam) (v i j : Nat) : (s.setReg d f v i j).routers = s.routers := rfl
@[simp] theorem State.setReg_dies (d : Nat) (f : RegFam) (v i j : Nat) : (s.setReg d f v i j).dies = s.dies := rfl
@[simp] theorem State.setReg_fabs (d : Nat) (f : RegFam) (v i j : Nat) : (s.setReg d f v i j).fabs = s.fabs := rfl
@[simp] theorem State.setReg_links (d : Nat) (f : RegFam) (v i j : Nat) : (s.setReg d f v i j).links = s.links := rfl
@[simp] theorem State.setReg_ports (d : Nat) (f : RegFam) (v i j : Nat) : (s.setReg d f v i j).ports = s.ports := rfl
@[simp] theorem State.setReg_linkKeys (d : Nat) (f : RegFam) (v i j : Nat) : (s.setReg d f v i j).linkKeys = s.linkKeys := rfl
@[simp] theorem State.setReg_mds (d : Nat) (f : RegFam) (v i j : Nat) : (s.setReg d f v i j).mds = s.mds := rfl
@[simp] theorem State.setReg_monitors (d : Nat) (f : RegFam) (v i j : Nat) : (s.setReg d f v i j).monitors = s.monitors := rfl
@[simp] theorem State.setReg_rings (d : Nat) (f : RegFam) (v i j : Nat) : (s.setReg d f v i j).rings = s.rings := rfl
@[simp] theorem State.setReg_srv (d : Nat) (f : RegFam) (v i j : Nat) : (s.setReg d f v i j).srv = s.srv := rfl
@[simp] theorem State.setReg_host (d : Nat) (f : RegFam) (v i j : Nat) : (s.setReg d f v i j).host = s.host := rfl
@[simp] theorem State.setReg_health (d : Nat) (f : RegFam) (v i j : Nat) : (s.setReg d f v i j).health = s.health := rfl
@[simp] theorem State.setReg_loaders (d : Nat) (f : RegFam) (v i j : Nat) : (s.setReg d f v i j).loaders = s.loaders := rfl
@[simp] theorem State.setReg_golds (d : Nat) (f : RegFam) (v i j : Nat) : (s.setReg d f v i j).golds = s.golds := rfl
@[simp] theorem State.setReg_sealed_ (d : Nat) (f : RegFam) (v i j : Nat) : (s.setReg d f v i j).sealed_ = s.sealed_ := rfl
@[simp] theorem State.setReg_switch (d : Nat) (f : RegFam) (v i j : Nat) : (s.setReg d f v i j).switch = s.switch := rfl
@[simp] theorem State.setReg_sync (d : Nat) (f : RegFam) (v i j : Nat) : (s.setReg d f v i j).sync = s.sync := rfl
@[simp] theorem State.setReg_plat (d : Nat) (f : RegFam) (v i j : Nat) : (s.setReg d f v i j).plat = s.plat := rfl
@[simp] theorem State.setReg_sec (d : Nat) (f : RegFam) (v i j : Nat) : (s.setReg d f v i j).sec = s.sec := rfl
@[simp] theorem State.setReg_collectors (d : Nat) (f : RegFam) (v i j : Nat) : (s.setReg d f v i j).collectors = s.collectors := rfl
@[simp] theorem State.setReg_shadows (d : Nat) (f : RegFam) (v i j : Nat) : (s.setReg d f v i j).shadows = s.shadows := rfl
@[simp] theorem State.setReg_resp (d : Nat) (f : RegFam) (v i j : Nat) : (s.setReg d f v i j).resp = s.resp := rfl
@[simp] theorem State.setReg_warmDue (d : Nat) (f : RegFam) (v i j : Nat) : (s.setReg d f v i j).warmDue = s.warmDue := rfl

@[simp] theorem State.setFld_pending (d : Nat) (f : RegFam) (hi lo v i j : Nat) : (s.setFld d f hi lo v i j).pending = s.pending := rfl
@[simp] theorem State.setFld_hc (d : Nat) (f : RegFam) (hi lo v i j : Nat) : (s.setFld d f hi lo v i j).hc = s.hc := rfl
@[simp] theorem State.setFld_draws (d : Nat) (f : RegFam) (hi lo v i j : Nat) : (s.setFld d f hi lo v i j).draws = s.draws := rfl
@[simp] theorem State.setFld_mem (d : Nat) (f : RegFam) (hi lo v i j : Nat) : (s.setFld d f hi lo v i j).mem = s.mem := rfl
@[simp] theorem State.setFld_memErr (d : Nat) (f : RegFam) (hi lo v i j : Nat) : (s.setFld d f hi lo v i j).memErr = s.memErr := rfl
@[simp] theorem State.setFld_engines (d : Nat) (f : RegFam) (hi lo v i j : Nat) : (s.setFld d f hi lo v i j).engines = s.engines := rfl
@[simp] theorem State.setFld_cores (d : Nat) (f : RegFam) (hi lo v i j : Nat) : (s.setFld d f hi lo v i j).cores = s.cores := rfl
@[simp] theorem State.setFld_routers (d : Nat) (f : RegFam) (hi lo v i j : Nat) : (s.setFld d f hi lo v i j).routers = s.routers := rfl
@[simp] theorem State.setFld_dies (d : Nat) (f : RegFam) (hi lo v i j : Nat) : (s.setFld d f hi lo v i j).dies = s.dies := rfl
@[simp] theorem State.setFld_fabs (d : Nat) (f : RegFam) (hi lo v i j : Nat) : (s.setFld d f hi lo v i j).fabs = s.fabs := rfl
@[simp] theorem State.setFld_links (d : Nat) (f : RegFam) (hi lo v i j : Nat) : (s.setFld d f hi lo v i j).links = s.links := rfl
@[simp] theorem State.setFld_ports (d : Nat) (f : RegFam) (hi lo v i j : Nat) : (s.setFld d f hi lo v i j).ports = s.ports := rfl
@[simp] theorem State.setFld_linkKeys (d : Nat) (f : RegFam) (hi lo v i j : Nat) : (s.setFld d f hi lo v i j).linkKeys = s.linkKeys := rfl
@[simp] theorem State.setFld_mds (d : Nat) (f : RegFam) (hi lo v i j : Nat) : (s.setFld d f hi lo v i j).mds = s.mds := rfl
@[simp] theorem State.setFld_monitors (d : Nat) (f : RegFam) (hi lo v i j : Nat) : (s.setFld d f hi lo v i j).monitors = s.monitors := rfl
@[simp] theorem State.setFld_rings (d : Nat) (f : RegFam) (hi lo v i j : Nat) : (s.setFld d f hi lo v i j).rings = s.rings := rfl
@[simp] theorem State.setFld_srv (d : Nat) (f : RegFam) (hi lo v i j : Nat) : (s.setFld d f hi lo v i j).srv = s.srv := rfl
@[simp] theorem State.setFld_host (d : Nat) (f : RegFam) (hi lo v i j : Nat) : (s.setFld d f hi lo v i j).host = s.host := rfl
@[simp] theorem State.setFld_health (d : Nat) (f : RegFam) (hi lo v i j : Nat) : (s.setFld d f hi lo v i j).health = s.health := rfl
@[simp] theorem State.setFld_loaders (d : Nat) (f : RegFam) (hi lo v i j : Nat) : (s.setFld d f hi lo v i j).loaders = s.loaders := rfl
@[simp] theorem State.setFld_golds (d : Nat) (f : RegFam) (hi lo v i j : Nat) : (s.setFld d f hi lo v i j).golds = s.golds := rfl
@[simp] theorem State.setFld_sealed_ (d : Nat) (f : RegFam) (hi lo v i j : Nat) : (s.setFld d f hi lo v i j).sealed_ = s.sealed_ := rfl
@[simp] theorem State.setFld_switch (d : Nat) (f : RegFam) (hi lo v i j : Nat) : (s.setFld d f hi lo v i j).switch = s.switch := rfl
@[simp] theorem State.setFld_sync (d : Nat) (f : RegFam) (hi lo v i j : Nat) : (s.setFld d f hi lo v i j).sync = s.sync := rfl
@[simp] theorem State.setFld_plat (d : Nat) (f : RegFam) (hi lo v i j : Nat) : (s.setFld d f hi lo v i j).plat = s.plat := rfl
@[simp] theorem State.setFld_sec (d : Nat) (f : RegFam) (hi lo v i j : Nat) : (s.setFld d f hi lo v i j).sec = s.sec := rfl
@[simp] theorem State.setFld_collectors (d : Nat) (f : RegFam) (hi lo v i j : Nat) : (s.setFld d f hi lo v i j).collectors = s.collectors := rfl
@[simp] theorem State.setFld_shadows (d : Nat) (f : RegFam) (hi lo v i j : Nat) : (s.setFld d f hi lo v i j).shadows = s.shadows := rfl
@[simp] theorem State.setFld_resp (d : Nat) (f : RegFam) (hi lo v i j : Nat) : (s.setFld d f hi lo v i j).resp = s.resp := rfl
@[simp] theorem State.setFld_warmDue (d : Nat) (f : RegFam) (hi lo v i j : Nat) : (s.setFld d f hi lo v i j).warmDue = s.warmDue := rfl

@[simp] theorem State.addFld_pending (d : Nat) (f : RegFam) (hi lo n i j : Nat) : (s.addFld d f hi lo n i j).pending = s.pending := rfl
@[simp] theorem State.addFld_hc (d : Nat) (f : RegFam) (hi lo n i j : Nat) : (s.addFld d f hi lo n i j).hc = s.hc := rfl
@[simp] theorem State.addFld_draws (d : Nat) (f : RegFam) (hi lo n i j : Nat) : (s.addFld d f hi lo n i j).draws = s.draws := rfl
@[simp] theorem State.addFld_mem (d : Nat) (f : RegFam) (hi lo n i j : Nat) : (s.addFld d f hi lo n i j).mem = s.mem := rfl
@[simp] theorem State.addFld_memErr (d : Nat) (f : RegFam) (hi lo n i j : Nat) : (s.addFld d f hi lo n i j).memErr = s.memErr := rfl
@[simp] theorem State.addFld_engines (d : Nat) (f : RegFam) (hi lo n i j : Nat) : (s.addFld d f hi lo n i j).engines = s.engines := rfl
@[simp] theorem State.addFld_cores (d : Nat) (f : RegFam) (hi lo n i j : Nat) : (s.addFld d f hi lo n i j).cores = s.cores := rfl
@[simp] theorem State.addFld_routers (d : Nat) (f : RegFam) (hi lo n i j : Nat) : (s.addFld d f hi lo n i j).routers = s.routers := rfl
@[simp] theorem State.addFld_dies (d : Nat) (f : RegFam) (hi lo n i j : Nat) : (s.addFld d f hi lo n i j).dies = s.dies := rfl
@[simp] theorem State.addFld_fabs (d : Nat) (f : RegFam) (hi lo n i j : Nat) : (s.addFld d f hi lo n i j).fabs = s.fabs := rfl
@[simp] theorem State.addFld_links (d : Nat) (f : RegFam) (hi lo n i j : Nat) : (s.addFld d f hi lo n i j).links = s.links := rfl
@[simp] theorem State.addFld_ports (d : Nat) (f : RegFam) (hi lo n i j : Nat) : (s.addFld d f hi lo n i j).ports = s.ports := rfl
@[simp] theorem State.addFld_linkKeys (d : Nat) (f : RegFam) (hi lo n i j : Nat) : (s.addFld d f hi lo n i j).linkKeys = s.linkKeys := rfl
@[simp] theorem State.addFld_mds (d : Nat) (f : RegFam) (hi lo n i j : Nat) : (s.addFld d f hi lo n i j).mds = s.mds := rfl
@[simp] theorem State.addFld_monitors (d : Nat) (f : RegFam) (hi lo n i j : Nat) : (s.addFld d f hi lo n i j).monitors = s.monitors := rfl
@[simp] theorem State.addFld_rings (d : Nat) (f : RegFam) (hi lo n i j : Nat) : (s.addFld d f hi lo n i j).rings = s.rings := rfl
@[simp] theorem State.addFld_srv (d : Nat) (f : RegFam) (hi lo n i j : Nat) : (s.addFld d f hi lo n i j).srv = s.srv := rfl
@[simp] theorem State.addFld_host (d : Nat) (f : RegFam) (hi lo n i j : Nat) : (s.addFld d f hi lo n i j).host = s.host := rfl
@[simp] theorem State.addFld_health (d : Nat) (f : RegFam) (hi lo n i j : Nat) : (s.addFld d f hi lo n i j).health = s.health := rfl
@[simp] theorem State.addFld_loaders (d : Nat) (f : RegFam) (hi lo n i j : Nat) : (s.addFld d f hi lo n i j).loaders = s.loaders := rfl
@[simp] theorem State.addFld_golds (d : Nat) (f : RegFam) (hi lo n i j : Nat) : (s.addFld d f hi lo n i j).golds = s.golds := rfl
@[simp] theorem State.addFld_sealed_ (d : Nat) (f : RegFam) (hi lo n i j : Nat) : (s.addFld d f hi lo n i j).sealed_ = s.sealed_ := rfl
@[simp] theorem State.addFld_switch (d : Nat) (f : RegFam) (hi lo n i j : Nat) : (s.addFld d f hi lo n i j).switch = s.switch := rfl
@[simp] theorem State.addFld_sync (d : Nat) (f : RegFam) (hi lo n i j : Nat) : (s.addFld d f hi lo n i j).sync = s.sync := rfl
@[simp] theorem State.addFld_plat (d : Nat) (f : RegFam) (hi lo n i j : Nat) : (s.addFld d f hi lo n i j).plat = s.plat := rfl
@[simp] theorem State.addFld_sec (d : Nat) (f : RegFam) (hi lo n i j : Nat) : (s.addFld d f hi lo n i j).sec = s.sec := rfl
@[simp] theorem State.addFld_collectors (d : Nat) (f : RegFam) (hi lo n i j : Nat) : (s.addFld d f hi lo n i j).collectors = s.collectors := rfl
@[simp] theorem State.addFld_shadows (d : Nat) (f : RegFam) (hi lo n i j : Nat) : (s.addFld d f hi lo n i j).shadows = s.shadows := rfl
@[simp] theorem State.addFld_resp (d : Nat) (f : RegFam) (hi lo n i j : Nat) : (s.addFld d f hi lo n i j).resp = s.resp := rfl
@[simp] theorem State.addFld_warmDue (d : Nat) (f : RegFam) (hi lo n i j : Nat) : (s.addFld d f hi lo n i j).warmDue = s.warmDue := rfl

@[simp] theorem State.orReg_pending (d : Nat) (f : RegFam) (m i j : Nat) : (s.orReg d f m i j).pending = s.pending := rfl
@[simp] theorem State.orReg_hc (d : Nat) (f : RegFam) (m i j : Nat) : (s.orReg d f m i j).hc = s.hc := rfl
@[simp] theorem State.orReg_draws (d : Nat) (f : RegFam) (m i j : Nat) : (s.orReg d f m i j).draws = s.draws := rfl
@[simp] theorem State.orReg_mem (d : Nat) (f : RegFam) (m i j : Nat) : (s.orReg d f m i j).mem = s.mem := rfl
@[simp] theorem State.orReg_memErr (d : Nat) (f : RegFam) (m i j : Nat) : (s.orReg d f m i j).memErr = s.memErr := rfl
@[simp] theorem State.orReg_engines (d : Nat) (f : RegFam) (m i j : Nat) : (s.orReg d f m i j).engines = s.engines := rfl
@[simp] theorem State.orReg_cores (d : Nat) (f : RegFam) (m i j : Nat) : (s.orReg d f m i j).cores = s.cores := rfl
@[simp] theorem State.orReg_routers (d : Nat) (f : RegFam) (m i j : Nat) : (s.orReg d f m i j).routers = s.routers := rfl
@[simp] theorem State.orReg_dies (d : Nat) (f : RegFam) (m i j : Nat) : (s.orReg d f m i j).dies = s.dies := rfl
@[simp] theorem State.orReg_fabs (d : Nat) (f : RegFam) (m i j : Nat) : (s.orReg d f m i j).fabs = s.fabs := rfl
@[simp] theorem State.orReg_links (d : Nat) (f : RegFam) (m i j : Nat) : (s.orReg d f m i j).links = s.links := rfl
@[simp] theorem State.orReg_ports (d : Nat) (f : RegFam) (m i j : Nat) : (s.orReg d f m i j).ports = s.ports := rfl
@[simp] theorem State.orReg_linkKeys (d : Nat) (f : RegFam) (m i j : Nat) : (s.orReg d f m i j).linkKeys = s.linkKeys := rfl
@[simp] theorem State.orReg_mds (d : Nat) (f : RegFam) (m i j : Nat) : (s.orReg d f m i j).mds = s.mds := rfl
@[simp] theorem State.orReg_monitors (d : Nat) (f : RegFam) (m i j : Nat) : (s.orReg d f m i j).monitors = s.monitors := rfl
@[simp] theorem State.orReg_rings (d : Nat) (f : RegFam) (m i j : Nat) : (s.orReg d f m i j).rings = s.rings := rfl
@[simp] theorem State.orReg_srv (d : Nat) (f : RegFam) (m i j : Nat) : (s.orReg d f m i j).srv = s.srv := rfl
@[simp] theorem State.orReg_host (d : Nat) (f : RegFam) (m i j : Nat) : (s.orReg d f m i j).host = s.host := rfl
@[simp] theorem State.orReg_health (d : Nat) (f : RegFam) (m i j : Nat) : (s.orReg d f m i j).health = s.health := rfl
@[simp] theorem State.orReg_loaders (d : Nat) (f : RegFam) (m i j : Nat) : (s.orReg d f m i j).loaders = s.loaders := rfl
@[simp] theorem State.orReg_golds (d : Nat) (f : RegFam) (m i j : Nat) : (s.orReg d f m i j).golds = s.golds := rfl
@[simp] theorem State.orReg_sealed_ (d : Nat) (f : RegFam) (m i j : Nat) : (s.orReg d f m i j).sealed_ = s.sealed_ := rfl
@[simp] theorem State.orReg_switch (d : Nat) (f : RegFam) (m i j : Nat) : (s.orReg d f m i j).switch = s.switch := rfl
@[simp] theorem State.orReg_sync (d : Nat) (f : RegFam) (m i j : Nat) : (s.orReg d f m i j).sync = s.sync := rfl
@[simp] theorem State.orReg_plat (d : Nat) (f : RegFam) (m i j : Nat) : (s.orReg d f m i j).plat = s.plat := rfl
@[simp] theorem State.orReg_sec (d : Nat) (f : RegFam) (m i j : Nat) : (s.orReg d f m i j).sec = s.sec := rfl
@[simp] theorem State.orReg_collectors (d : Nat) (f : RegFam) (m i j : Nat) : (s.orReg d f m i j).collectors = s.collectors := rfl
@[simp] theorem State.orReg_shadows (d : Nat) (f : RegFam) (m i j : Nat) : (s.orReg d f m i j).shadows = s.shadows := rfl
@[simp] theorem State.orReg_resp (d : Nat) (f : RegFam) (m i j : Nat) : (s.orReg d f m i j).resp = s.resp := rfl
@[simp] theorem State.orReg_warmDue (d : Nat) (f : RegFam) (m i j : Nat) : (s.orReg d f m i j).warmDue = s.warmDue := rfl

@[simp] theorem State.clearErr_pending (a n : Nat) : (s.clearErr a n).pending = s.pending := rfl
@[simp] theorem State.clearErr_hc (a n : Nat) : (s.clearErr a n).hc = s.hc := rfl
@[simp] theorem State.clearErr_draws (a n : Nat) : (s.clearErr a n).draws = s.draws := rfl
@[simp] theorem State.clearErr_csr (a n : Nat) : (s.clearErr a n).csr = s.csr := rfl
@[simp] theorem State.clearErr_mem (a n : Nat) : (s.clearErr a n).mem = s.mem := rfl
@[simp] theorem State.clearErr_engines (a n : Nat) : (s.clearErr a n).engines = s.engines := rfl
@[simp] theorem State.clearErr_cores (a n : Nat) : (s.clearErr a n).cores = s.cores := rfl
@[simp] theorem State.clearErr_routers (a n : Nat) : (s.clearErr a n).routers = s.routers := rfl
@[simp] theorem State.clearErr_dies (a n : Nat) : (s.clearErr a n).dies = s.dies := rfl
@[simp] theorem State.clearErr_fabs (a n : Nat) : (s.clearErr a n).fabs = s.fabs := rfl
@[simp] theorem State.clearErr_links (a n : Nat) : (s.clearErr a n).links = s.links := rfl
@[simp] theorem State.clearErr_ports (a n : Nat) : (s.clearErr a n).ports = s.ports := rfl
@[simp] theorem State.clearErr_linkKeys (a n : Nat) : (s.clearErr a n).linkKeys = s.linkKeys := rfl
@[simp] theorem State.clearErr_mds (a n : Nat) : (s.clearErr a n).mds = s.mds := rfl
@[simp] theorem State.clearErr_monitors (a n : Nat) : (s.clearErr a n).monitors = s.monitors := rfl
@[simp] theorem State.clearErr_rings (a n : Nat) : (s.clearErr a n).rings = s.rings := rfl
@[simp] theorem State.clearErr_srv (a n : Nat) : (s.clearErr a n).srv = s.srv := rfl
@[simp] theorem State.clearErr_host (a n : Nat) : (s.clearErr a n).host = s.host := rfl
@[simp] theorem State.clearErr_health (a n : Nat) : (s.clearErr a n).health = s.health := rfl
@[simp] theorem State.clearErr_loaders (a n : Nat) : (s.clearErr a n).loaders = s.loaders := rfl
@[simp] theorem State.clearErr_golds (a n : Nat) : (s.clearErr a n).golds = s.golds := rfl
@[simp] theorem State.clearErr_sealed_ (a n : Nat) : (s.clearErr a n).sealed_ = s.sealed_ := rfl
@[simp] theorem State.clearErr_switch (a n : Nat) : (s.clearErr a n).switch = s.switch := rfl
@[simp] theorem State.clearErr_sync (a n : Nat) : (s.clearErr a n).sync = s.sync := rfl
@[simp] theorem State.clearErr_plat (a n : Nat) : (s.clearErr a n).plat = s.plat := rfl
@[simp] theorem State.clearErr_sec (a n : Nat) : (s.clearErr a n).sec = s.sec := rfl
@[simp] theorem State.clearErr_collectors (a n : Nat) : (s.clearErr a n).collectors = s.collectors := rfl
@[simp] theorem State.clearErr_shadows (a n : Nat) : (s.clearErr a n).shadows = s.shadows := rfl
@[simp] theorem State.clearErr_resp (a n : Nat) : (s.clearErr a n).resp = s.resp := rfl
@[simp] theorem State.clearErr_warmDue (a n : Nat) : (s.clearErr a n).warmDue = s.warmDue := rfl

@[simp] theorem State.writeAt_pending (a : Nat) (bs : List Byte) : (s.writeAt a bs).pending = s.pending := rfl
@[simp] theorem State.writeAt_hc (a : Nat) (bs : List Byte) : (s.writeAt a bs).hc = s.hc := rfl
@[simp] theorem State.writeAt_draws (a : Nat) (bs : List Byte) : (s.writeAt a bs).draws = s.draws := rfl
@[simp] theorem State.writeAt_csr (a : Nat) (bs : List Byte) : (s.writeAt a bs).csr = s.csr := rfl
@[simp] theorem State.writeAt_engines (a : Nat) (bs : List Byte) : (s.writeAt a bs).engines = s.engines := rfl
@[simp] theorem State.writeAt_cores (a : Nat) (bs : List Byte) : (s.writeAt a bs).cores = s.cores := rfl
@[simp] theorem State.writeAt_routers (a : Nat) (bs : List Byte) : (s.writeAt a bs).routers = s.routers := rfl
@[simp] theorem State.writeAt_dies (a : Nat) (bs : List Byte) : (s.writeAt a bs).dies = s.dies := rfl
@[simp] theorem State.writeAt_fabs (a : Nat) (bs : List Byte) : (s.writeAt a bs).fabs = s.fabs := rfl
@[simp] theorem State.writeAt_links (a : Nat) (bs : List Byte) : (s.writeAt a bs).links = s.links := rfl
@[simp] theorem State.writeAt_ports (a : Nat) (bs : List Byte) : (s.writeAt a bs).ports = s.ports := rfl
@[simp] theorem State.writeAt_linkKeys (a : Nat) (bs : List Byte) : (s.writeAt a bs).linkKeys = s.linkKeys := rfl
@[simp] theorem State.writeAt_mds (a : Nat) (bs : List Byte) : (s.writeAt a bs).mds = s.mds := rfl
@[simp] theorem State.writeAt_monitors (a : Nat) (bs : List Byte) : (s.writeAt a bs).monitors = s.monitors := rfl
@[simp] theorem State.writeAt_rings (a : Nat) (bs : List Byte) : (s.writeAt a bs).rings = s.rings := rfl
@[simp] theorem State.writeAt_srv (a : Nat) (bs : List Byte) : (s.writeAt a bs).srv = s.srv := rfl
@[simp] theorem State.writeAt_host (a : Nat) (bs : List Byte) : (s.writeAt a bs).host = s.host := rfl
@[simp] theorem State.writeAt_health (a : Nat) (bs : List Byte) : (s.writeAt a bs).health = s.health := rfl
@[simp] theorem State.writeAt_loaders (a : Nat) (bs : List Byte) : (s.writeAt a bs).loaders = s.loaders := rfl
@[simp] theorem State.writeAt_golds (a : Nat) (bs : List Byte) : (s.writeAt a bs).golds = s.golds := rfl
@[simp] theorem State.writeAt_sealed_ (a : Nat) (bs : List Byte) : (s.writeAt a bs).sealed_ = s.sealed_ := rfl
@[simp] theorem State.writeAt_switch (a : Nat) (bs : List Byte) : (s.writeAt a bs).switch = s.switch := rfl
@[simp] theorem State.writeAt_sync (a : Nat) (bs : List Byte) : (s.writeAt a bs).sync = s.sync := rfl
@[simp] theorem State.writeAt_plat (a : Nat) (bs : List Byte) : (s.writeAt a bs).plat = s.plat := rfl
@[simp] theorem State.writeAt_sec (a : Nat) (bs : List Byte) : (s.writeAt a bs).sec = s.sec := rfl
@[simp] theorem State.writeAt_collectors (a : Nat) (bs : List Byte) : (s.writeAt a bs).collectors = s.collectors := rfl
@[simp] theorem State.writeAt_shadows (a : Nat) (bs : List Byte) : (s.writeAt a bs).shadows = s.shadows := rfl
@[simp] theorem State.writeAt_resp (a : Nat) (bs : List Byte) : (s.writeAt a bs).resp = s.resp := rfl
@[simp] theorem State.writeAt_warmDue (a : Nat) (bs : List Byte) : (s.writeAt a bs).warmDue = s.warmDue := rfl

@[simp] theorem State.writeMem_pending (d off : Nat) (bs : List Byte) : (s.writeMem d off bs).pending = s.pending := rfl
@[simp] theorem State.writeMem_hc (d off : Nat) (bs : List Byte) : (s.writeMem d off bs).hc = s.hc := rfl
@[simp] theorem State.writeMem_draws (d off : Nat) (bs : List Byte) : (s.writeMem d off bs).draws = s.draws := rfl
@[simp] theorem State.writeMem_csr (d off : Nat) (bs : List Byte) : (s.writeMem d off bs).csr = s.csr := rfl
@[simp] theorem State.writeMem_engines (d off : Nat) (bs : List Byte) : (s.writeMem d off bs).engines = s.engines := rfl
@[simp] theorem State.writeMem_cores (d off : Nat) (bs : List Byte) : (s.writeMem d off bs).cores = s.cores := rfl
@[simp] theorem State.writeMem_routers (d off : Nat) (bs : List Byte) : (s.writeMem d off bs).routers = s.routers := rfl
@[simp] theorem State.writeMem_dies (d off : Nat) (bs : List Byte) : (s.writeMem d off bs).dies = s.dies := rfl
@[simp] theorem State.writeMem_fabs (d off : Nat) (bs : List Byte) : (s.writeMem d off bs).fabs = s.fabs := rfl
@[simp] theorem State.writeMem_links (d off : Nat) (bs : List Byte) : (s.writeMem d off bs).links = s.links := rfl
@[simp] theorem State.writeMem_ports (d off : Nat) (bs : List Byte) : (s.writeMem d off bs).ports = s.ports := rfl
@[simp] theorem State.writeMem_linkKeys (d off : Nat) (bs : List Byte) : (s.writeMem d off bs).linkKeys = s.linkKeys := rfl
@[simp] theorem State.writeMem_mds (d off : Nat) (bs : List Byte) : (s.writeMem d off bs).mds = s.mds := rfl
@[simp] theorem State.writeMem_monitors (d off : Nat) (bs : List Byte) : (s.writeMem d off bs).monitors = s.monitors := rfl
@[simp] theorem State.writeMem_rings (d off : Nat) (bs : List Byte) : (s.writeMem d off bs).rings = s.rings := rfl
@[simp] theorem State.writeMem_srv (d off : Nat) (bs : List Byte) : (s.writeMem d off bs).srv = s.srv := rfl
@[simp] theorem State.writeMem_host (d off : Nat) (bs : List Byte) : (s.writeMem d off bs).host = s.host := rfl
@[simp] theorem State.writeMem_health (d off : Nat) (bs : List Byte) : (s.writeMem d off bs).health = s.health := rfl
@[simp] theorem State.writeMem_loaders (d off : Nat) (bs : List Byte) : (s.writeMem d off bs).loaders = s.loaders := rfl
@[simp] theorem State.writeMem_golds (d off : Nat) (bs : List Byte) : (s.writeMem d off bs).golds = s.golds := rfl
@[simp] theorem State.writeMem_sealed_ (d off : Nat) (bs : List Byte) : (s.writeMem d off bs).sealed_ = s.sealed_ := rfl
@[simp] theorem State.writeMem_switch (d off : Nat) (bs : List Byte) : (s.writeMem d off bs).switch = s.switch := rfl
@[simp] theorem State.writeMem_sync (d off : Nat) (bs : List Byte) : (s.writeMem d off bs).sync = s.sync := rfl
@[simp] theorem State.writeMem_plat (d off : Nat) (bs : List Byte) : (s.writeMem d off bs).plat = s.plat := rfl
@[simp] theorem State.writeMem_sec (d off : Nat) (bs : List Byte) : (s.writeMem d off bs).sec = s.sec := rfl
@[simp] theorem State.writeMem_collectors (d off : Nat) (bs : List Byte) : (s.writeMem d off bs).collectors = s.collectors := rfl
@[simp] theorem State.writeMem_shadows (d off : Nat) (bs : List Byte) : (s.writeMem d off bs).shadows = s.shadows := rfl
@[simp] theorem State.writeMem_resp (d off : Nat) (bs : List Byte) : (s.writeMem d off bs).resp = s.resp := rfl
@[simp] theorem State.writeMem_warmDue (d off : Nat) (bs : List Byte) : (s.writeMem d off bs).warmDue = s.warmDue := rfl

@[simp] theorem State.setCore_pending (cd k : Nat) (x : Core) : (s.setCore cd k x).pending = s.pending := rfl
@[simp] theorem State.setCore_hc (cd k : Nat) (x : Core) : (s.setCore cd k x).hc = s.hc := rfl
@[simp] theorem State.setCore_draws (cd k : Nat) (x : Core) : (s.setCore cd k x).draws = s.draws := rfl
@[simp] theorem State.setCore_csr (cd k : Nat) (x : Core) : (s.setCore cd k x).csr = s.csr := rfl
@[simp] theorem State.setCore_mem (cd k : Nat) (x : Core) : (s.setCore cd k x).mem = s.mem := rfl
@[simp] theorem State.setCore_memErr (cd k : Nat) (x : Core) : (s.setCore cd k x).memErr = s.memErr := rfl
@[simp] theorem State.setCore_engines (cd k : Nat) (x : Core) : (s.setCore cd k x).engines = s.engines := rfl
@[simp] theorem State.setCore_routers (cd k : Nat) (x : Core) : (s.setCore cd k x).routers = s.routers := rfl
@[simp] theorem State.setCore_dies (cd k : Nat) (x : Core) : (s.setCore cd k x).dies = s.dies := rfl
@[simp] theorem State.setCore_fabs (cd k : Nat) (x : Core) : (s.setCore cd k x).fabs = s.fabs := rfl
@[simp] theorem State.setCore_links (cd k : Nat) (x : Core) : (s.setCore cd k x).links = s.links := rfl
@[simp] theorem State.setCore_ports (cd k : Nat) (x : Core) : (s.setCore cd k x).ports = s.ports := rfl
@[simp] theorem State.setCore_linkKeys (cd k : Nat) (x : Core) : (s.setCore cd k x).linkKeys = s.linkKeys := rfl
@[simp] theorem State.setCore_mds (cd k : Nat) (x : Core) : (s.setCore cd k x).mds = s.mds := rfl
@[simp] theorem State.setCore_monitors (cd k : Nat) (x : Core) : (s.setCore cd k x).monitors = s.monitors := rfl
@[simp] theorem State.setCore_rings (cd k : Nat) (x : Core) : (s.setCore cd k x).rings = s.rings := rfl
@[simp] theorem State.setCore_srv (cd k : Nat) (x : Core) : (s.setCore cd k x).srv = s.srv := rfl
@[simp] theorem State.setCore_host (cd k : Nat) (x : Core) : (s.setCore cd k x).host = s.host := rfl
@[simp] theorem State.setCore_health (cd k : Nat) (x : Core) : (s.setCore cd k x).health = s.health := rfl
@[simp] theorem State.setCore_loaders (cd k : Nat) (x : Core) : (s.setCore cd k x).loaders = s.loaders := rfl
@[simp] theorem State.setCore_golds (cd k : Nat) (x : Core) : (s.setCore cd k x).golds = s.golds := rfl
@[simp] theorem State.setCore_sealed_ (cd k : Nat) (x : Core) : (s.setCore cd k x).sealed_ = s.sealed_ := rfl
@[simp] theorem State.setCore_switch (cd k : Nat) (x : Core) : (s.setCore cd k x).switch = s.switch := rfl
@[simp] theorem State.setCore_sync (cd k : Nat) (x : Core) : (s.setCore cd k x).sync = s.sync := rfl
@[simp] theorem State.setCore_plat (cd k : Nat) (x : Core) : (s.setCore cd k x).plat = s.plat := rfl
@[simp] theorem State.setCore_sec (cd k : Nat) (x : Core) : (s.setCore cd k x).sec = s.sec := rfl
@[simp] theorem State.setCore_collectors (cd k : Nat) (x : Core) : (s.setCore cd k x).collectors = s.collectors := rfl
@[simp] theorem State.setCore_shadows (cd k : Nat) (x : Core) : (s.setCore cd k x).shadows = s.shadows := rfl
@[simp] theorem State.setCore_resp (cd k : Nat) (x : Core) : (s.setCore cd k x).resp = s.resp := rfl
@[simp] theorem State.setCore_warmDue (cd k : Nat) (x : Core) : (s.setCore cd k x).warmDue = s.warmDue := rfl

@[simp] theorem State.setEngine_pending (cd k p : Nat) (x : Engine) : (s.setEngine cd k p x).pending = s.pending := rfl
@[simp] theorem State.setEngine_hc (cd k p : Nat) (x : Engine) : (s.setEngine cd k p x).hc = s.hc := rfl
@[simp] theorem State.setEngine_draws (cd k p : Nat) (x : Engine) : (s.setEngine cd k p x).draws = s.draws := rfl
@[simp] theorem State.setEngine_csr (cd k p : Nat) (x : Engine) : (s.setEngine cd k p x).csr = s.csr := rfl
@[simp] theorem State.setEngine_mem (cd k p : Nat) (x : Engine) : (s.setEngine cd k p x).mem = s.mem := rfl
@[simp] theorem State.setEngine_memErr (cd k p : Nat) (x : Engine) : (s.setEngine cd k p x).memErr = s.memErr := rfl
@[simp] theorem State.setEngine_cores (cd k p : Nat) (x : Engine) : (s.setEngine cd k p x).cores = s.cores := rfl
@[simp] theorem State.setEngine_routers (cd k p : Nat) (x : Engine) : (s.setEngine cd k p x).routers = s.routers := rfl
@[simp] theorem State.setEngine_dies (cd k p : Nat) (x : Engine) : (s.setEngine cd k p x).dies = s.dies := rfl
@[simp] theorem State.setEngine_fabs (cd k p : Nat) (x : Engine) : (s.setEngine cd k p x).fabs = s.fabs := rfl
@[simp] theorem State.setEngine_links (cd k p : Nat) (x : Engine) : (s.setEngine cd k p x).links = s.links := rfl
@[simp] theorem State.setEngine_ports (cd k p : Nat) (x : Engine) : (s.setEngine cd k p x).ports = s.ports := rfl
@[simp] theorem State.setEngine_linkKeys (cd k p : Nat) (x : Engine) : (s.setEngine cd k p x).linkKeys = s.linkKeys := rfl
@[simp] theorem State.setEngine_mds (cd k p : Nat) (x : Engine) : (s.setEngine cd k p x).mds = s.mds := rfl
@[simp] theorem State.setEngine_monitors (cd k p : Nat) (x : Engine) : (s.setEngine cd k p x).monitors = s.monitors := rfl
@[simp] theorem State.setEngine_rings (cd k p : Nat) (x : Engine) : (s.setEngine cd k p x).rings = s.rings := rfl
@[simp] theorem State.setEngine_srv (cd k p : Nat) (x : Engine) : (s.setEngine cd k p x).srv = s.srv := rfl
@[simp] theorem State.setEngine_host (cd k p : Nat) (x : Engine) : (s.setEngine cd k p x).host = s.host := rfl
@[simp] theorem State.setEngine_health (cd k p : Nat) (x : Engine) : (s.setEngine cd k p x).health = s.health := rfl
@[simp] theorem State.setEngine_loaders (cd k p : Nat) (x : Engine) : (s.setEngine cd k p x).loaders = s.loaders := rfl
@[simp] theorem State.setEngine_golds (cd k p : Nat) (x : Engine) : (s.setEngine cd k p x).golds = s.golds := rfl
@[simp] theorem State.setEngine_sealed_ (cd k p : Nat) (x : Engine) : (s.setEngine cd k p x).sealed_ = s.sealed_ := rfl
@[simp] theorem State.setEngine_switch (cd k p : Nat) (x : Engine) : (s.setEngine cd k p x).switch = s.switch := rfl
@[simp] theorem State.setEngine_sync (cd k p : Nat) (x : Engine) : (s.setEngine cd k p x).sync = s.sync := rfl
@[simp] theorem State.setEngine_plat (cd k p : Nat) (x : Engine) : (s.setEngine cd k p x).plat = s.plat := rfl
@[simp] theorem State.setEngine_sec (cd k p : Nat) (x : Engine) : (s.setEngine cd k p x).sec = s.sec := rfl
@[simp] theorem State.setEngine_collectors (cd k p : Nat) (x : Engine) : (s.setEngine cd k p x).collectors = s.collectors := rfl
@[simp] theorem State.setEngine_shadows (cd k p : Nat) (x : Engine) : (s.setEngine cd k p x).shadows = s.shadows := rfl
@[simp] theorem State.setEngine_resp (cd k p : Nat) (x : Engine) : (s.setEngine cd k p x).resp = s.resp := rfl
@[simp] theorem State.setEngine_warmDue (cd k p : Nat) (x : Engine) : (s.setEngine cd k p x).warmDue = s.warmDue := rfl

@[simp] theorem State.setRouter_pending (cd c : Nat) (x : Router) : (s.setRouter cd c x).pending = s.pending := rfl
@[simp] theorem State.setRouter_hc (cd c : Nat) (x : Router) : (s.setRouter cd c x).hc = s.hc := rfl
@[simp] theorem State.setRouter_draws (cd c : Nat) (x : Router) : (s.setRouter cd c x).draws = s.draws := rfl
@[simp] theorem State.setRouter_csr (cd c : Nat) (x : Router) : (s.setRouter cd c x).csr = s.csr := rfl
@[simp] theorem State.setRouter_mem (cd c : Nat) (x : Router) : (s.setRouter cd c x).mem = s.mem := rfl
@[simp] theorem State.setRouter_memErr (cd c : Nat) (x : Router) : (s.setRouter cd c x).memErr = s.memErr := rfl
@[simp] theorem State.setRouter_engines (cd c : Nat) (x : Router) : (s.setRouter cd c x).engines = s.engines := rfl
@[simp] theorem State.setRouter_cores (cd c : Nat) (x : Router) : (s.setRouter cd c x).cores = s.cores := rfl
@[simp] theorem State.setRouter_dies (cd c : Nat) (x : Router) : (s.setRouter cd c x).dies = s.dies := rfl
@[simp] theorem State.setRouter_fabs (cd c : Nat) (x : Router) : (s.setRouter cd c x).fabs = s.fabs := rfl
@[simp] theorem State.setRouter_links (cd c : Nat) (x : Router) : (s.setRouter cd c x).links = s.links := rfl
@[simp] theorem State.setRouter_ports (cd c : Nat) (x : Router) : (s.setRouter cd c x).ports = s.ports := rfl
@[simp] theorem State.setRouter_linkKeys (cd c : Nat) (x : Router) : (s.setRouter cd c x).linkKeys = s.linkKeys := rfl
@[simp] theorem State.setRouter_mds (cd c : Nat) (x : Router) : (s.setRouter cd c x).mds = s.mds := rfl
@[simp] theorem State.setRouter_monitors (cd c : Nat) (x : Router) : (s.setRouter cd c x).monitors = s.monitors := rfl
@[simp] theorem State.setRouter_rings (cd c : Nat) (x : Router) : (s.setRouter cd c x).rings = s.rings := rfl
@[simp] theorem State.setRouter_srv (cd c : Nat) (x : Router) : (s.setRouter cd c x).srv = s.srv := rfl
@[simp] theorem State.setRouter_host (cd c : Nat) (x : Router) : (s.setRouter cd c x).host = s.host := rfl
@[simp] theorem State.setRouter_health (cd c : Nat) (x : Router) : (s.setRouter cd c x).health = s.health := rfl
@[simp] theorem State.setRouter_loaders (cd c : Nat) (x : Router) : (s.setRouter cd c x).loaders = s.loaders := rfl
@[simp] theorem State.setRouter_golds (cd c : Nat) (x : Router) : (s.setRouter cd c x).golds = s.golds := rfl
@[simp] theorem State.setRouter_sealed_ (cd c : Nat) (x : Router) : (s.setRouter cd c x).sealed_ = s.sealed_ := rfl
@[simp] theorem State.setRouter_switch (cd c : Nat) (x : Router) : (s.setRouter cd c x).switch = s.switch := rfl
@[simp] theorem State.setRouter_sync (cd c : Nat) (x : Router) : (s.setRouter cd c x).sync = s.sync := rfl
@[simp] theorem State.setRouter_plat (cd c : Nat) (x : Router) : (s.setRouter cd c x).plat = s.plat := rfl
@[simp] theorem State.setRouter_sec (cd c : Nat) (x : Router) : (s.setRouter cd c x).sec = s.sec := rfl
@[simp] theorem State.setRouter_collectors (cd c : Nat) (x : Router) : (s.setRouter cd c x).collectors = s.collectors := rfl
@[simp] theorem State.setRouter_shadows (cd c : Nat) (x : Router) : (s.setRouter cd c x).shadows = s.shadows := rfl
@[simp] theorem State.setRouter_resp (cd c : Nat) (x : Router) : (s.setRouter cd c x).resp = s.resp := rfl
@[simp] theorem State.setRouter_warmDue (cd c : Nat) (x : Router) : (s.setRouter cd c x).warmDue = s.warmDue := rfl

@[simp] theorem State.setDie_pending (d : Nat) (x : DieSt) : (s.setDie d x).pending = s.pending := rfl
@[simp] theorem State.setDie_hc (d : Nat) (x : DieSt) : (s.setDie d x).hc = s.hc := rfl
@[simp] theorem State.setDie_draws (d : Nat) (x : DieSt) : (s.setDie d x).draws = s.draws := rfl
@[simp] theorem State.setDie_csr (d : Nat) (x : DieSt) : (s.setDie d x).csr = s.csr := rfl
@[simp] theorem State.setDie_mem (d : Nat) (x : DieSt) : (s.setDie d x).mem = s.mem := rfl
@[simp] theorem State.setDie_memErr (d : Nat) (x : DieSt) : (s.setDie d x).memErr = s.memErr := rfl
@[simp] theorem State.setDie_engines (d : Nat) (x : DieSt) : (s.setDie d x).engines = s.engines := rfl
@[simp] theorem State.setDie_cores (d : Nat) (x : DieSt) : (s.setDie d x).cores = s.cores := rfl
@[simp] theorem State.setDie_routers (d : Nat) (x : DieSt) : (s.setDie d x).routers = s.routers := rfl
@[simp] theorem State.setDie_fabs (d : Nat) (x : DieSt) : (s.setDie d x).fabs = s.fabs := rfl
@[simp] theorem State.setDie_links (d : Nat) (x : DieSt) : (s.setDie d x).links = s.links := rfl
@[simp] theorem State.setDie_ports (d : Nat) (x : DieSt) : (s.setDie d x).ports = s.ports := rfl
@[simp] theorem State.setDie_linkKeys (d : Nat) (x : DieSt) : (s.setDie d x).linkKeys = s.linkKeys := rfl
@[simp] theorem State.setDie_mds (d : Nat) (x : DieSt) : (s.setDie d x).mds = s.mds := rfl
@[simp] theorem State.setDie_monitors (d : Nat) (x : DieSt) : (s.setDie d x).monitors = s.monitors := rfl
@[simp] theorem State.setDie_rings (d : Nat) (x : DieSt) : (s.setDie d x).rings = s.rings := rfl
@[simp] theorem State.setDie_srv (d : Nat) (x : DieSt) : (s.setDie d x).srv = s.srv := rfl
@[simp] theorem State.setDie_host (d : Nat) (x : DieSt) : (s.setDie d x).host = s.host := rfl
@[simp] theorem State.setDie_health (d : Nat) (x : DieSt) : (s.setDie d x).health = s.health := rfl
@[simp] theorem State.setDie_loaders (d : Nat) (x : DieSt) : (s.setDie d x).loaders = s.loaders := rfl
@[simp] theorem State.setDie_golds (d : Nat) (x : DieSt) : (s.setDie d x).golds = s.golds := rfl
@[simp] theorem State.setDie_sealed_ (d : Nat) (x : DieSt) : (s.setDie d x).sealed_ = s.sealed_ := rfl
@[simp] theorem State.setDie_switch (d : Nat) (x : DieSt) : (s.setDie d x).switch = s.switch := rfl
@[simp] theorem State.setDie_sync (d : Nat) (x : DieSt) : (s.setDie d x).sync = s.sync := rfl
@[simp] theorem State.setDie_plat (d : Nat) (x : DieSt) : (s.setDie d x).plat = s.plat := rfl
@[simp] theorem State.setDie_sec (d : Nat) (x : DieSt) : (s.setDie d x).sec = s.sec := rfl
@[simp] theorem State.setDie_collectors (d : Nat) (x : DieSt) : (s.setDie d x).collectors = s.collectors := rfl
@[simp] theorem State.setDie_shadows (d : Nat) (x : DieSt) : (s.setDie d x).shadows = s.shadows := rfl
@[simp] theorem State.setDie_resp (d : Nat) (x : DieSt) : (s.setDie d x).resp = s.resp := rfl
@[simp] theorem State.setDie_warmDue (d : Nat) (x : DieSt) : (s.setDie d x).warmDue = s.warmDue := rfl

@[simp] theorem State.setFab_pending (d : Nat) (x : FabDie) : (s.setFab d x).pending = s.pending := rfl
@[simp] theorem State.setFab_hc (d : Nat) (x : FabDie) : (s.setFab d x).hc = s.hc := rfl
@[simp] theorem State.setFab_draws (d : Nat) (x : FabDie) : (s.setFab d x).draws = s.draws := rfl
@[simp] theorem State.setFab_csr (d : Nat) (x : FabDie) : (s.setFab d x).csr = s.csr := rfl
@[simp] theorem State.setFab_mem (d : Nat) (x : FabDie) : (s.setFab d x).mem = s.mem := rfl
@[simp] theorem State.setFab_memErr (d : Nat) (x : FabDie) : (s.setFab d x).memErr = s.memErr := rfl
@[simp] theorem State.setFab_engines (d : Nat) (x : FabDie) : (s.setFab d x).engines = s.engines := rfl
@[simp] theorem State.setFab_cores (d : Nat) (x : FabDie) : (s.setFab d x).cores = s.cores := rfl
@[simp] theorem State.setFab_routers (d : Nat) (x : FabDie) : (s.setFab d x).routers = s.routers := rfl
@[simp] theorem State.setFab_dies (d : Nat) (x : FabDie) : (s.setFab d x).dies = s.dies := rfl
@[simp] theorem State.setFab_links (d : Nat) (x : FabDie) : (s.setFab d x).links = s.links := rfl
@[simp] theorem State.setFab_ports (d : Nat) (x : FabDie) : (s.setFab d x).ports = s.ports := rfl
@[simp] theorem State.setFab_linkKeys (d : Nat) (x : FabDie) : (s.setFab d x).linkKeys = s.linkKeys := rfl
@[simp] theorem State.setFab_mds (d : Nat) (x : FabDie) : (s.setFab d x).mds = s.mds := rfl
@[simp] theorem State.setFab_monitors (d : Nat) (x : FabDie) : (s.setFab d x).monitors = s.monitors := rfl
@[simp] theorem State.setFab_rings (d : Nat) (x : FabDie) : (s.setFab d x).rings = s.rings := rfl
@[simp] theorem State.setFab_srv (d : Nat) (x : FabDie) : (s.setFab d x).srv = s.srv := rfl
@[simp] theorem State.setFab_host (d : Nat) (x : FabDie) : (s.setFab d x).host = s.host := rfl
@[simp] theorem State.setFab_health (d : Nat) (x : FabDie) : (s.setFab d x).health = s.health := rfl
@[simp] theorem State.setFab_loaders (d : Nat) (x : FabDie) : (s.setFab d x).loaders = s.loaders := rfl
@[simp] theorem State.setFab_golds (d : Nat) (x : FabDie) : (s.setFab d x).golds = s.golds := rfl
@[simp] theorem State.setFab_sealed_ (d : Nat) (x : FabDie) : (s.setFab d x).sealed_ = s.sealed_ := rfl
@[simp] theorem State.setFab_switch (d : Nat) (x : FabDie) : (s.setFab d x).switch = s.switch := rfl
@[simp] theorem State.setFab_sync (d : Nat) (x : FabDie) : (s.setFab d x).sync = s.sync := rfl
@[simp] theorem State.setFab_plat (d : Nat) (x : FabDie) : (s.setFab d x).plat = s.plat := rfl
@[simp] theorem State.setFab_sec (d : Nat) (x : FabDie) : (s.setFab d x).sec = s.sec := rfl
@[simp] theorem State.setFab_collectors (d : Nat) (x : FabDie) : (s.setFab d x).collectors = s.collectors := rfl
@[simp] theorem State.setFab_shadows (d : Nat) (x : FabDie) : (s.setFab d x).shadows = s.shadows := rfl
@[simp] theorem State.setFab_resp (d : Nat) (x : FabDie) : (s.setFab d x).resp = s.resp := rfl
@[simp] theorem State.setFab_warmDue (d : Nat) (x : FabDie) : (s.setFab d x).warmDue = s.warmDue := rfl

@[simp] theorem State.setLink_pending (d l : Nat) (x : LinkEnd) : (s.setLink d l x).pending = s.pending := rfl
@[simp] theorem State.setLink_hc (d l : Nat) (x : LinkEnd) : (s.setLink d l x).hc = s.hc := rfl
@[simp] theorem State.setLink_draws (d l : Nat) (x : LinkEnd) : (s.setLink d l x).draws = s.draws := rfl
@[simp] theorem State.setLink_csr (d l : Nat) (x : LinkEnd) : (s.setLink d l x).csr = s.csr := rfl
@[simp] theorem State.setLink_mem (d l : Nat) (x : LinkEnd) : (s.setLink d l x).mem = s.mem := rfl
@[simp] theorem State.setLink_memErr (d l : Nat) (x : LinkEnd) : (s.setLink d l x).memErr = s.memErr := rfl
@[simp] theorem State.setLink_engines (d l : Nat) (x : LinkEnd) : (s.setLink d l x).engines = s.engines := rfl
@[simp] theorem State.setLink_cores (d l : Nat) (x : LinkEnd) : (s.setLink d l x).cores = s.cores := rfl
@[simp] theorem State.setLink_routers (d l : Nat) (x : LinkEnd) : (s.setLink d l x).routers = s.routers := rfl
@[simp] theorem State.setLink_dies (d l : Nat) (x : LinkEnd) : (s.setLink d l x).dies = s.dies := rfl
@[simp] theorem State.setLink_fabs (d l : Nat) (x : LinkEnd) : (s.setLink d l x).fabs = s.fabs := rfl
@[simp] theorem State.setLink_ports (d l : Nat) (x : LinkEnd) : (s.setLink d l x).ports = s.ports := rfl
@[simp] theorem State.setLink_linkKeys (d l : Nat) (x : LinkEnd) : (s.setLink d l x).linkKeys = s.linkKeys := rfl
@[simp] theorem State.setLink_mds (d l : Nat) (x : LinkEnd) : (s.setLink d l x).mds = s.mds := rfl
@[simp] theorem State.setLink_monitors (d l : Nat) (x : LinkEnd) : (s.setLink d l x).monitors = s.monitors := rfl
@[simp] theorem State.setLink_rings (d l : Nat) (x : LinkEnd) : (s.setLink d l x).rings = s.rings := rfl
@[simp] theorem State.setLink_srv (d l : Nat) (x : LinkEnd) : (s.setLink d l x).srv = s.srv := rfl
@[simp] theorem State.setLink_host (d l : Nat) (x : LinkEnd) : (s.setLink d l x).host = s.host := rfl
@[simp] theorem State.setLink_health (d l : Nat) (x : LinkEnd) : (s.setLink d l x).health = s.health := rfl
@[simp] theorem State.setLink_loaders (d l : Nat) (x : LinkEnd) : (s.setLink d l x).loaders = s.loaders := rfl
@[simp] theorem State.setLink_golds (d l : Nat) (x : LinkEnd) : (s.setLink d l x).golds = s.golds := rfl
@[simp] theorem State.setLink_sealed_ (d l : Nat) (x : LinkEnd) : (s.setLink d l x).sealed_ = s.sealed_ := rfl
@[simp] theorem State.setLink_switch (d l : Nat) (x : LinkEnd) : (s.setLink d l x).switch = s.switch := rfl
@[simp] theorem State.setLink_sync (d l : Nat) (x : LinkEnd) : (s.setLink d l x).sync = s.sync := rfl
@[simp] theorem State.setLink_plat (d l : Nat) (x : LinkEnd) : (s.setLink d l x).plat = s.plat := rfl
@[simp] theorem State.setLink_sec (d l : Nat) (x : LinkEnd) : (s.setLink d l x).sec = s.sec := rfl
@[simp] theorem State.setLink_collectors (d l : Nat) (x : LinkEnd) : (s.setLink d l x).collectors = s.collectors := rfl
@[simp] theorem State.setLink_shadows (d l : Nat) (x : LinkEnd) : (s.setLink d l x).shadows = s.shadows := rfl
@[simp] theorem State.setLink_resp (d l : Nat) (x : LinkEnd) : (s.setLink d l x).resp = s.resp := rfl
@[simp] theorem State.setLink_warmDue (d l : Nat) (x : LinkEnd) : (s.setLink d l x).warmDue = s.warmDue := rfl

@[simp] theorem State.setPort_pending (d p : Nat) (x : PortEnd) : (s.setPort d p x).pending = s.pending := rfl
@[simp] theorem State.setPort_hc (d p : Nat) (x : PortEnd) : (s.setPort d p x).hc = s.hc := rfl
@[simp] theorem State.setPort_draws (d p : Nat) (x : PortEnd) : (s.setPort d p x).draws = s.draws := rfl
@[simp] theorem State.setPort_csr (d p : Nat) (x : PortEnd) : (s.setPort d p x).csr = s.csr := rfl
@[simp] theorem State.setPort_mem (d p : Nat) (x : PortEnd) : (s.setPort d p x).mem = s.mem := rfl
@[simp] theorem State.setPort_memErr (d p : Nat) (x : PortEnd) : (s.setPort d p x).memErr = s.memErr := rfl
@[simp] theorem State.setPort_engines (d p : Nat) (x : PortEnd) : (s.setPort d p x).engines = s.engines := rfl
@[simp] theorem State.setPort_cores (d p : Nat) (x : PortEnd) : (s.setPort d p x).cores = s.cores := rfl
@[simp] theorem State.setPort_routers (d p : Nat) (x : PortEnd) : (s.setPort d p x).routers = s.routers := rfl
@[simp] theorem State.setPort_dies (d p : Nat) (x : PortEnd) : (s.setPort d p x).dies = s.dies := rfl
@[simp] theorem State.setPort_fabs (d p : Nat) (x : PortEnd) : (s.setPort d p x).fabs = s.fabs := rfl
@[simp] theorem State.setPort_links (d p : Nat) (x : PortEnd) : (s.setPort d p x).links = s.links := rfl
@[simp] theorem State.setPort_linkKeys (d p : Nat) (x : PortEnd) : (s.setPort d p x).linkKeys = s.linkKeys := rfl
@[simp] theorem State.setPort_mds (d p : Nat) (x : PortEnd) : (s.setPort d p x).mds = s.mds := rfl
@[simp] theorem State.setPort_monitors (d p : Nat) (x : PortEnd) : (s.setPort d p x).monitors = s.monitors := rfl
@[simp] theorem State.setPort_rings (d p : Nat) (x : PortEnd) : (s.setPort d p x).rings = s.rings := rfl
@[simp] theorem State.setPort_srv (d p : Nat) (x : PortEnd) : (s.setPort d p x).srv = s.srv := rfl
@[simp] theorem State.setPort_host (d p : Nat) (x : PortEnd) : (s.setPort d p x).host = s.host := rfl
@[simp] theorem State.setPort_health (d p : Nat) (x : PortEnd) : (s.setPort d p x).health = s.health := rfl
@[simp] theorem State.setPort_loaders (d p : Nat) (x : PortEnd) : (s.setPort d p x).loaders = s.loaders := rfl
@[simp] theorem State.setPort_golds (d p : Nat) (x : PortEnd) : (s.setPort d p x).golds = s.golds := rfl
@[simp] theorem State.setPort_sealed_ (d p : Nat) (x : PortEnd) : (s.setPort d p x).sealed_ = s.sealed_ := rfl
@[simp] theorem State.setPort_switch (d p : Nat) (x : PortEnd) : (s.setPort d p x).switch = s.switch := rfl
@[simp] theorem State.setPort_sync (d p : Nat) (x : PortEnd) : (s.setPort d p x).sync = s.sync := rfl
@[simp] theorem State.setPort_plat (d p : Nat) (x : PortEnd) : (s.setPort d p x).plat = s.plat := rfl
@[simp] theorem State.setPort_sec (d p : Nat) (x : PortEnd) : (s.setPort d p x).sec = s.sec := rfl
@[simp] theorem State.setPort_collectors (d p : Nat) (x : PortEnd) : (s.setPort d p x).collectors = s.collectors := rfl
@[simp] theorem State.setPort_shadows (d p : Nat) (x : PortEnd) : (s.setPort d p x).shadows = s.shadows := rfl
@[simp] theorem State.setPort_resp (d p : Nat) (x : PortEnd) : (s.setPort d p x).resp = s.resp := rfl
@[simp] theorem State.setPort_warmDue (d p : Nat) (x : PortEnd) : (s.setPort d p x).warmDue = s.warmDue := rfl

@[simp] theorem State.setMd_pending (d : Nat) (x : MdSt) : (s.setMd d x).pending = s.pending := rfl
@[simp] theorem State.setMd_hc (d : Nat) (x : MdSt) : (s.setMd d x).hc = s.hc := rfl
@[simp] theorem State.setMd_draws (d : Nat) (x : MdSt) : (s.setMd d x).draws = s.draws := rfl
@[simp] theorem State.setMd_csr (d : Nat) (x : MdSt) : (s.setMd d x).csr = s.csr := rfl
@[simp] theorem State.setMd_mem (d : Nat) (x : MdSt) : (s.setMd d x).mem = s.mem := rfl
@[simp] theorem State.setMd_memErr (d : Nat) (x : MdSt) : (s.setMd d x).memErr = s.memErr := rfl
@[simp] theorem State.setMd_engines (d : Nat) (x : MdSt) : (s.setMd d x).engines = s.engines := rfl
@[simp] theorem State.setMd_cores (d : Nat) (x : MdSt) : (s.setMd d x).cores = s.cores := rfl
@[simp] theorem State.setMd_routers (d : Nat) (x : MdSt) : (s.setMd d x).routers = s.routers := rfl
@[simp] theorem State.setMd_dies (d : Nat) (x : MdSt) : (s.setMd d x).dies = s.dies := rfl
@[simp] theorem State.setMd_fabs (d : Nat) (x : MdSt) : (s.setMd d x).fabs = s.fabs := rfl
@[simp] theorem State.setMd_links (d : Nat) (x : MdSt) : (s.setMd d x).links = s.links := rfl
@[simp] theorem State.setMd_ports (d : Nat) (x : MdSt) : (s.setMd d x).ports = s.ports := rfl
@[simp] theorem State.setMd_linkKeys (d : Nat) (x : MdSt) : (s.setMd d x).linkKeys = s.linkKeys := rfl
@[simp] theorem State.setMd_monitors (d : Nat) (x : MdSt) : (s.setMd d x).monitors = s.monitors := rfl
@[simp] theorem State.setMd_rings (d : Nat) (x : MdSt) : (s.setMd d x).rings = s.rings := rfl
@[simp] theorem State.setMd_srv (d : Nat) (x : MdSt) : (s.setMd d x).srv = s.srv := rfl
@[simp] theorem State.setMd_host (d : Nat) (x : MdSt) : (s.setMd d x).host = s.host := rfl
@[simp] theorem State.setMd_health (d : Nat) (x : MdSt) : (s.setMd d x).health = s.health := rfl
@[simp] theorem State.setMd_loaders (d : Nat) (x : MdSt) : (s.setMd d x).loaders = s.loaders := rfl
@[simp] theorem State.setMd_golds (d : Nat) (x : MdSt) : (s.setMd d x).golds = s.golds := rfl
@[simp] theorem State.setMd_sealed_ (d : Nat) (x : MdSt) : (s.setMd d x).sealed_ = s.sealed_ := rfl
@[simp] theorem State.setMd_switch (d : Nat) (x : MdSt) : (s.setMd d x).switch = s.switch := rfl
@[simp] theorem State.setMd_sync (d : Nat) (x : MdSt) : (s.setMd d x).sync = s.sync := rfl
@[simp] theorem State.setMd_plat (d : Nat) (x : MdSt) : (s.setMd d x).plat = s.plat := rfl
@[simp] theorem State.setMd_sec (d : Nat) (x : MdSt) : (s.setMd d x).sec = s.sec := rfl
@[simp] theorem State.setMd_collectors (d : Nat) (x : MdSt) : (s.setMd d x).collectors = s.collectors := rfl
@[simp] theorem State.setMd_shadows (d : Nat) (x : MdSt) : (s.setMd d x).shadows = s.shadows := rfl
@[simp] theorem State.setMd_resp (d : Nat) (x : MdSt) : (s.setMd d x).resp = s.resp := rfl
@[simp] theorem State.setMd_warmDue (d : Nat) (x : MdSt) : (s.setMd d x).warmDue = s.warmDue := rfl

@[simp] theorem State.toCc_pending (d n : Nat) : (s.toCc d n).pending = s.pending := rfl
@[simp] theorem State.toCc_hc (d n : Nat) : (s.toCc d n).hc = s.hc := rfl
@[simp] theorem State.toCc_draws (d n : Nat) : (s.toCc d n).draws = s.draws := rfl
@[simp] theorem State.toCc_csr (d n : Nat) : (s.toCc d n).csr = s.csr := rfl
@[simp] theorem State.toCc_mem (d n : Nat) : (s.toCc d n).mem = s.mem := rfl
@[simp] theorem State.toCc_memErr (d n : Nat) : (s.toCc d n).memErr = s.memErr := rfl
@[simp] theorem State.toCc_engines (d n : Nat) : (s.toCc d n).engines = s.engines := rfl
@[simp] theorem State.toCc_cores (d n : Nat) : (s.toCc d n).cores = s.cores := rfl
@[simp] theorem State.toCc_routers (d n : Nat) : (s.toCc d n).routers = s.routers := rfl
@[simp] theorem State.toCc_fabs (d n : Nat) : (s.toCc d n).fabs = s.fabs := rfl
@[simp] theorem State.toCc_links (d n : Nat) : (s.toCc d n).links = s.links := rfl
@[simp] theorem State.toCc_ports (d n : Nat) : (s.toCc d n).ports = s.ports := rfl
@[simp] theorem State.toCc_linkKeys (d n : Nat) : (s.toCc d n).linkKeys = s.linkKeys := rfl
@[simp] theorem State.toCc_mds (d n : Nat) : (s.toCc d n).mds = s.mds := rfl
@[simp] theorem State.toCc_monitors (d n : Nat) : (s.toCc d n).monitors = s.monitors := rfl
@[simp] theorem State.toCc_rings (d n : Nat) : (s.toCc d n).rings = s.rings := rfl
@[simp] theorem State.toCc_srv (d n : Nat) : (s.toCc d n).srv = s.srv := rfl
@[simp] theorem State.toCc_host (d n : Nat) : (s.toCc d n).host = s.host := rfl
@[simp] theorem State.toCc_health (d n : Nat) : (s.toCc d n).health = s.health := rfl
@[simp] theorem State.toCc_loaders (d n : Nat) : (s.toCc d n).loaders = s.loaders := rfl
@[simp] theorem State.toCc_golds (d n : Nat) : (s.toCc d n).golds = s.golds := rfl
@[simp] theorem State.toCc_sealed_ (d n : Nat) : (s.toCc d n).sealed_ = s.sealed_ := rfl
@[simp] theorem State.toCc_switch (d n : Nat) : (s.toCc d n).switch = s.switch := rfl
@[simp] theorem State.toCc_sync (d n : Nat) : (s.toCc d n).sync = s.sync := rfl
@[simp] theorem State.toCc_plat (d n : Nat) : (s.toCc d n).plat = s.plat := rfl
@[simp] theorem State.toCc_sec (d n : Nat) : (s.toCc d n).sec = s.sec := rfl
@[simp] theorem State.toCc_collectors (d n : Nat) : (s.toCc d n).collectors = s.collectors := rfl
@[simp] theorem State.toCc_shadows (d n : Nat) : (s.toCc d n).shadows = s.shadows := rfl
@[simp] theorem State.toCc_resp (d n : Nat) : (s.toCc d n).resp = s.resp := rfl
@[simp] theorem State.toCc_warmDue (d n : Nat) : (s.toCc d n).warmDue = s.warmDue := rfl

@[simp] theorem State.toHc_pending (h : Nat) : (s.toHc h).pending = s.pending := rfl
@[simp] theorem State.toHc_draws (h : Nat) : (s.toHc h).draws = s.draws := rfl
@[simp] theorem State.toHc_csr (h : Nat) : (s.toHc h).csr = s.csr := rfl
@[simp] theorem State.toHc_mem (h : Nat) : (s.toHc h).mem = s.mem := rfl
@[simp] theorem State.toHc_memErr (h : Nat) : (s.toHc h).memErr = s.memErr := rfl
@[simp] theorem State.toHc_engines (h : Nat) : (s.toHc h).engines = s.engines := rfl
@[simp] theorem State.toHc_cores (h : Nat) : (s.toHc h).cores = s.cores := rfl
@[simp] theorem State.toHc_routers (h : Nat) : (s.toHc h).routers = s.routers := rfl
@[simp] theorem State.toHc_dies (h : Nat) : (s.toHc h).dies = s.dies := rfl
@[simp] theorem State.toHc_fabs (h : Nat) : (s.toHc h).fabs = s.fabs := rfl
@[simp] theorem State.toHc_links (h : Nat) : (s.toHc h).links = s.links := rfl
@[simp] theorem State.toHc_ports (h : Nat) : (s.toHc h).ports = s.ports := rfl
@[simp] theorem State.toHc_linkKeys (h : Nat) : (s.toHc h).linkKeys = s.linkKeys := rfl
@[simp] theorem State.toHc_mds (h : Nat) : (s.toHc h).mds = s.mds := rfl
@[simp] theorem State.toHc_monitors (h : Nat) : (s.toHc h).monitors = s.monitors := rfl
@[simp] theorem State.toHc_rings (h : Nat) : (s.toHc h).rings = s.rings := rfl
@[simp] theorem State.toHc_srv (h : Nat) : (s.toHc h).srv = s.srv := rfl
@[simp] theorem State.toHc_host (h : Nat) : (s.toHc h).host = s.host := rfl
@[simp] theorem State.toHc_health (h : Nat) : (s.toHc h).health = s.health := rfl
@[simp] theorem State.toHc_loaders (h : Nat) : (s.toHc h).loaders = s.loaders := rfl
@[simp] theorem State.toHc_golds (h : Nat) : (s.toHc h).golds = s.golds := rfl
@[simp] theorem State.toHc_sealed_ (h : Nat) : (s.toHc h).sealed_ = s.sealed_ := rfl
@[simp] theorem State.toHc_switch (h : Nat) : (s.toHc h).switch = s.switch := rfl
@[simp] theorem State.toHc_sync (h : Nat) : (s.toHc h).sync = s.sync := rfl
@[simp] theorem State.toHc_plat (h : Nat) : (s.toHc h).plat = s.plat := rfl
@[simp] theorem State.toHc_sec (h : Nat) : (s.toHc h).sec = s.sec := rfl
@[simp] theorem State.toHc_collectors (h : Nat) : (s.toHc h).collectors = s.collectors := rfl
@[simp] theorem State.toHc_shadows (h : Nat) : (s.toHc h).shadows = s.shadows := rfl
@[simp] theorem State.toHc_resp (h : Nat) : (s.toHc h).resp = s.resp := rfl
@[simp] theorem State.toHc_warmDue (h : Nat) : (s.toHc h).warmDue = s.warmDue := rfl

@[simp] theorem State.respond_pending (c : Nat) (b : List Byte) : (s.respond c b).pending = s.pending := rfl
@[simp] theorem State.respond_hc (c : Nat) (b : List Byte) : (s.respond c b).hc = s.hc := rfl
@[simp] theorem State.respond_draws (c : Nat) (b : List Byte) : (s.respond c b).draws = s.draws := rfl
@[simp] theorem State.respond_csr (c : Nat) (b : List Byte) : (s.respond c b).csr = s.csr := rfl
@[simp] theorem State.respond_mem (c : Nat) (b : List Byte) : (s.respond c b).mem = s.mem := rfl
@[simp] theorem State.respond_memErr (c : Nat) (b : List Byte) : (s.respond c b).memErr = s.memErr := rfl
@[simp] theorem State.respond_engines (c : Nat) (b : List Byte) : (s.respond c b).engines = s.engines := rfl
@[simp] theorem State.respond_cores (c : Nat) (b : List Byte) : (s.respond c b).cores = s.cores := rfl
@[simp] theorem State.respond_routers (c : Nat) (b : List Byte) : (s.respond c b).routers = s.routers := rfl
@[simp] theorem State.respond_dies (c : Nat) (b : List Byte) : (s.respond c b).dies = s.dies := rfl
@[simp] theorem State.respond_fabs (c : Nat) (b : List Byte) : (s.respond c b).fabs = s.fabs := rfl
@[simp] theorem State.respond_links (c : Nat) (b : List Byte) : (s.respond c b).links = s.links := rfl
@[simp] theorem State.respond_ports (c : Nat) (b : List Byte) : (s.respond c b).ports = s.ports := rfl
@[simp] theorem State.respond_linkKeys (c : Nat) (b : List Byte) : (s.respond c b).linkKeys = s.linkKeys := rfl
@[simp] theorem State.respond_mds (c : Nat) (b : List Byte) : (s.respond c b).mds = s.mds := rfl
@[simp] theorem State.respond_monitors (c : Nat) (b : List Byte) : (s.respond c b).monitors = s.monitors := rfl
@[simp] theorem State.respond_rings (c : Nat) (b : List Byte) : (s.respond c b).rings = s.rings := rfl
@[simp] theorem State.respond_srv (c : Nat) (b : List Byte) : (s.respond c b).srv = s.srv := rfl
@[simp] theorem State.respond_host (c : Nat) (b : List Byte) : (s.respond c b).host = s.host := rfl
@[simp] theorem State.respond_health (c : Nat) (b : List Byte) : (s.respond c b).health = s.health := rfl
@[simp] theorem State.respond_loaders (c : Nat) (b : List Byte) : (s.respond c b).loaders = s.loaders := rfl
@[simp] theorem State.respond_golds (c : Nat) (b : List Byte) : (s.respond c b).golds = s.golds := rfl
@[simp] theorem State.respond_sealed_ (c : Nat) (b : List Byte) : (s.respond c b).sealed_ = s.sealed_ := rfl
@[simp] theorem State.respond_switch (c : Nat) (b : List Byte) : (s.respond c b).switch = s.switch := rfl
@[simp] theorem State.respond_sync (c : Nat) (b : List Byte) : (s.respond c b).sync = s.sync := rfl
@[simp] theorem State.respond_plat (c : Nat) (b : List Byte) : (s.respond c b).plat = s.plat := rfl
@[simp] theorem State.respond_sec (c : Nat) (b : List Byte) : (s.respond c b).sec = s.sec := rfl
@[simp] theorem State.respond_collectors (c : Nat) (b : List Byte) : (s.respond c b).collectors = s.collectors := rfl
@[simp] theorem State.respond_shadows (c : Nat) (b : List Byte) : (s.respond c b).shadows = s.shadows := rfl
@[simp] theorem State.respond_warmDue (c : Nat) (b : List Byte) : (s.respond c b).warmDue = s.warmDue := rfl

@[simp] theorem State.faultA_pending (d c : Nat) : (s.faultA d c).pending = s.pending := rfl
@[simp] theorem State.faultA_hc (d c : Nat) : (s.faultA d c).hc = s.hc := rfl
@[simp] theorem State.faultA_draws (d c : Nat) : (s.faultA d c).draws = s.draws := rfl
@[simp] theorem State.faultA_csr (d c : Nat) : (s.faultA d c).csr = s.csr := rfl
@[simp] theorem State.faultA_mem (d c : Nat) : (s.faultA d c).mem = s.mem := rfl
@[simp] theorem State.faultA_memErr (d c : Nat) : (s.faultA d c).memErr = s.memErr := rfl
@[simp] theorem State.faultA_engines (d c : Nat) : (s.faultA d c).engines = s.engines := rfl
@[simp] theorem State.faultA_cores (d c : Nat) : (s.faultA d c).cores = s.cores := rfl
@[simp] theorem State.faultA_routers (d c : Nat) : (s.faultA d c).routers = s.routers := rfl
@[simp] theorem State.faultA_fabs (d c : Nat) : (s.faultA d c).fabs = s.fabs := rfl
@[simp] theorem State.faultA_links (d c : Nat) : (s.faultA d c).links = s.links := rfl
@[simp] theorem State.faultA_ports (d c : Nat) : (s.faultA d c).ports = s.ports := rfl
@[simp] theorem State.faultA_linkKeys (d c : Nat) : (s.faultA d c).linkKeys = s.linkKeys := rfl
@[simp] theorem State.faultA_mds (d c : Nat) : (s.faultA d c).mds = s.mds := rfl
@[simp] theorem State.faultA_monitors (d c : Nat) : (s.faultA d c).monitors = s.monitors := rfl
@[simp] theorem State.faultA_rings (d c : Nat) : (s.faultA d c).rings = s.rings := rfl
@[simp] theorem State.faultA_srv (d c : Nat) : (s.faultA d c).srv = s.srv := rfl
@[simp] theorem State.faultA_host (d c : Nat) : (s.faultA d c).host = s.host := rfl
@[simp] theorem State.faultA_health (d c : Nat) : (s.faultA d c).health = s.health := rfl
@[simp] theorem State.faultA_loaders (d c : Nat) : (s.faultA d c).loaders = s.loaders := rfl
@[simp] theorem State.faultA_golds (d c : Nat) : (s.faultA d c).golds = s.golds := rfl
@[simp] theorem State.faultA_sealed_ (d c : Nat) : (s.faultA d c).sealed_ = s.sealed_ := rfl
@[simp] theorem State.faultA_switch (d c : Nat) : (s.faultA d c).switch = s.switch := rfl
@[simp] theorem State.faultA_sync (d c : Nat) : (s.faultA d c).sync = s.sync := rfl
@[simp] theorem State.faultA_plat (d c : Nat) : (s.faultA d c).plat = s.plat := rfl
@[simp] theorem State.faultA_sec (d c : Nat) : (s.faultA d c).sec = s.sec := rfl
@[simp] theorem State.faultA_collectors (d c : Nat) : (s.faultA d c).collectors = s.collectors := rfl
@[simp] theorem State.faultA_shadows (d c : Nat) : (s.faultA d c).shadows = s.shadows := rfl
@[simp] theorem State.faultA_resp (d c : Nat) : (s.faultA d c).resp = s.resp := rfl
@[simp] theorem State.faultA_warmDue (d c : Nat) : (s.faultA d c).warmDue = s.warmDue := rfl

@[simp] theorem State.raiseAlert_pending (f : RegFam) (m : Nat) : (s.raiseAlert f m).pending = s.pending := rfl
@[simp] theorem State.raiseAlert_hc (f : RegFam) (m : Nat) : (s.raiseAlert f m).hc = s.hc := rfl
@[simp] theorem State.raiseAlert_draws (f : RegFam) (m : Nat) : (s.raiseAlert f m).draws = s.draws := rfl
@[simp] theorem State.raiseAlert_mem (f : RegFam) (m : Nat) : (s.raiseAlert f m).mem = s.mem := rfl
@[simp] theorem State.raiseAlert_memErr (f : RegFam) (m : Nat) : (s.raiseAlert f m).memErr = s.memErr := rfl
@[simp] theorem State.raiseAlert_engines (f : RegFam) (m : Nat) : (s.raiseAlert f m).engines = s.engines := rfl
@[simp] theorem State.raiseAlert_cores (f : RegFam) (m : Nat) : (s.raiseAlert f m).cores = s.cores := rfl
@[simp] theorem State.raiseAlert_routers (f : RegFam) (m : Nat) : (s.raiseAlert f m).routers = s.routers := rfl
@[simp] theorem State.raiseAlert_dies (f : RegFam) (m : Nat) : (s.raiseAlert f m).dies = s.dies := rfl
@[simp] theorem State.raiseAlert_fabs (f : RegFam) (m : Nat) : (s.raiseAlert f m).fabs = s.fabs := rfl
@[simp] theorem State.raiseAlert_links (f : RegFam) (m : Nat) : (s.raiseAlert f m).links = s.links := rfl
@[simp] theorem State.raiseAlert_ports (f : RegFam) (m : Nat) : (s.raiseAlert f m).ports = s.ports := rfl
@[simp] theorem State.raiseAlert_linkKeys (f : RegFam) (m : Nat) : (s.raiseAlert f m).linkKeys = s.linkKeys := rfl
@[simp] theorem State.raiseAlert_mds (f : RegFam) (m : Nat) : (s.raiseAlert f m).mds = s.mds := rfl
@[simp] theorem State.raiseAlert_monitors (f : RegFam) (m : Nat) : (s.raiseAlert f m).monitors = s.monitors := rfl
@[simp] theorem State.raiseAlert_rings (f : RegFam) (m : Nat) : (s.raiseAlert f m).rings = s.rings := rfl
@[simp] theorem State.raiseAlert_srv (f : RegFam) (m : Nat) : (s.raiseAlert f m).srv = s.srv := rfl
@[simp] theorem State.raiseAlert_host (f : RegFam) (m : Nat) : (s.raiseAlert f m).host = s.host := rfl
@[simp] theorem State.raiseAlert_health (f : RegFam) (m : Nat) : (s.raiseAlert f m).health = s.health := rfl
@[simp] theorem State.raiseAlert_loaders (f : RegFam) (m : Nat) : (s.raiseAlert f m).loaders = s.loaders := rfl
@[simp] theorem State.raiseAlert_golds (f : RegFam) (m : Nat) : (s.raiseAlert f m).golds = s.golds := rfl
@[simp] theorem State.raiseAlert_sealed_ (f : RegFam) (m : Nat) : (s.raiseAlert f m).sealed_ = s.sealed_ := rfl
@[simp] theorem State.raiseAlert_switch (f : RegFam) (m : Nat) : (s.raiseAlert f m).switch = s.switch := rfl
@[simp] theorem State.raiseAlert_sync (f : RegFam) (m : Nat) : (s.raiseAlert f m).sync = s.sync := rfl
@[simp] theorem State.raiseAlert_sec (f : RegFam) (m : Nat) : (s.raiseAlert f m).sec = s.sec := rfl
@[simp] theorem State.raiseAlert_collectors (f : RegFam) (m : Nat) : (s.raiseAlert f m).collectors = s.collectors := rfl
@[simp] theorem State.raiseAlert_shadows (f : RegFam) (m : Nat) : (s.raiseAlert f m).shadows = s.shadows := rfl
@[simp] theorem State.raiseAlert_resp (f : RegFam) (m : Nat) : (s.raiseAlert f m).resp = s.resp := rfl
@[simp] theorem State.raiseAlert_warmDue (f : RegFam) (m : Nat) : (s.raiseAlert f m).warmDue = s.warmDue := rfl

@[simp] theorem State.alert_pending (b : Nat) : (s.alert b).pending = s.pending := rfl
@[simp] theorem State.alert_hc (b : Nat) : (s.alert b).hc = s.hc := rfl
@[simp] theorem State.alert_draws (b : Nat) : (s.alert b).draws = s.draws := rfl
@[simp] theorem State.alert_mem (b : Nat) : (s.alert b).mem = s.mem := rfl
@[simp] theorem State.alert_memErr (b : Nat) : (s.alert b).memErr = s.memErr := rfl
@[simp] theorem State.alert_engines (b : Nat) : (s.alert b).engines = s.engines := rfl
@[simp] theorem State.alert_cores (b : Nat) : (s.alert b).cores = s.cores := rfl
@[simp] theorem State.alert_routers (b : Nat) : (s.alert b).routers = s.routers := rfl
@[simp] theorem State.alert_dies (b : Nat) : (s.alert b).dies = s.dies := rfl
@[simp] theorem State.alert_fabs (b : Nat) : (s.alert b).fabs = s.fabs := rfl
@[simp] theorem State.alert_links (b : Nat) : (s.alert b).links = s.links := rfl
@[simp] theorem State.alert_ports (b : Nat) : (s.alert b).ports = s.ports := rfl
@[simp] theorem State.alert_linkKeys (b : Nat) : (s.alert b).linkKeys = s.linkKeys := rfl
@[simp] theorem State.alert_mds (b : Nat) : (s.alert b).mds = s.mds := rfl
@[simp] theorem State.alert_monitors (b : Nat) : (s.alert b).monitors = s.monitors := rfl
@[simp] theorem State.alert_rings (b : Nat) : (s.alert b).rings = s.rings := rfl
@[simp] theorem State.alert_srv (b : Nat) : (s.alert b).srv = s.srv := rfl
@[simp] theorem State.alert_host (b : Nat) : (s.alert b).host = s.host := rfl
@[simp] theorem State.alert_health (b : Nat) : (s.alert b).health = s.health := rfl
@[simp] theorem State.alert_loaders (b : Nat) : (s.alert b).loaders = s.loaders := rfl
@[simp] theorem State.alert_golds (b : Nat) : (s.alert b).golds = s.golds := rfl
@[simp] theorem State.alert_sealed_ (b : Nat) : (s.alert b).sealed_ = s.sealed_ := rfl
@[simp] theorem State.alert_switch (b : Nat) : (s.alert b).switch = s.switch := rfl
@[simp] theorem State.alert_sync (b : Nat) : (s.alert b).sync = s.sync := rfl
@[simp] theorem State.alert_sec (b : Nat) : (s.alert b).sec = s.sec := rfl
@[simp] theorem State.alert_collectors (b : Nat) : (s.alert b).collectors = s.collectors := rfl
@[simp] theorem State.alert_shadows (b : Nat) : (s.alert b).shadows = s.shadows := rfl
@[simp] theorem State.alert_resp (b : Nat) : (s.alert b).resp = s.resp := rfl
@[simp] theorem State.alert_warmDue (b : Nat) : (s.alert b).warmDue = s.warmDue := rfl

@[simp] theorem State.setRing_pending (d : Nat) (r : Ring) (x : RingSt) : (s.setRing d r x).pending = s.pending := rfl
@[simp] theorem State.setRing_hc (d : Nat) (r : Ring) (x : RingSt) : (s.setRing d r x).hc = s.hc := rfl
@[simp] theorem State.setRing_draws (d : Nat) (r : Ring) (x : RingSt) : (s.setRing d r x).draws = s.draws := rfl
@[simp] theorem State.setRing_csr (d : Nat) (r : Ring) (x : RingSt) : (s.setRing d r x).csr = s.csr := rfl
@[simp] theorem State.setRing_mem (d : Nat) (r : Ring) (x : RingSt) : (s.setRing d r x).mem = s.mem := rfl
@[simp] theorem State.setRing_memErr (d : Nat) (r : Ring) (x : RingSt) : (s.setRing d r x).memErr = s.memErr := rfl
@[simp] theorem State.setRing_engines (d : Nat) (r : Ring) (x : RingSt) : (s.setRing d r x).engines = s.engines := rfl
@[simp] theorem State.setRing_cores (d : Nat) (r : Ring) (x : RingSt) : (s.setRing d r x).cores = s.cores := rfl
@[simp] theorem State.setRing_routers (d : Nat) (r : Ring) (x : RingSt) : (s.setRing d r x).routers = s.routers := rfl
@[simp] theorem State.setRing_dies (d : Nat) (r : Ring) (x : RingSt) : (s.setRing d r x).dies = s.dies := rfl
@[simp] theorem State.setRing_fabs (d : Nat) (r : Ring) (x : RingSt) : (s.setRing d r x).fabs = s.fabs := rfl
@[simp] theorem State.setRing_links (d : Nat) (r : Ring) (x : RingSt) : (s.setRing d r x).links = s.links := rfl
@[simp] theorem State.setRing_ports (d : Nat) (r : Ring) (x : RingSt) : (s.setRing d r x).ports = s.ports := rfl
@[simp] theorem State.setRing_linkKeys (d : Nat) (r : Ring) (x : RingSt) : (s.setRing d r x).linkKeys = s.linkKeys := rfl
@[simp] theorem State.setRing_mds (d : Nat) (r : Ring) (x : RingSt) : (s.setRing d r x).mds = s.mds := rfl
@[simp] theorem State.setRing_monitors (d : Nat) (r : Ring) (x : RingSt) : (s.setRing d r x).monitors = s.monitors := rfl
@[simp] theorem State.setRing_srv (d : Nat) (r : Ring) (x : RingSt) : (s.setRing d r x).srv = s.srv := rfl
@[simp] theorem State.setRing_host (d : Nat) (r : Ring) (x : RingSt) : (s.setRing d r x).host = s.host := rfl
@[simp] theorem State.setRing_health (d : Nat) (r : Ring) (x : RingSt) : (s.setRing d r x).health = s.health := rfl
@[simp] theorem State.setRing_loaders (d : Nat) (r : Ring) (x : RingSt) : (s.setRing d r x).loaders = s.loaders := rfl
@[simp] theorem State.setRing_golds (d : Nat) (r : Ring) (x : RingSt) : (s.setRing d r x).golds = s.golds := rfl
@[simp] theorem State.setRing_sealed_ (d : Nat) (r : Ring) (x : RingSt) : (s.setRing d r x).sealed_ = s.sealed_ := rfl
@[simp] theorem State.setRing_switch (d : Nat) (r : Ring) (x : RingSt) : (s.setRing d r x).switch = s.switch := rfl
@[simp] theorem State.setRing_sync (d : Nat) (r : Ring) (x : RingSt) : (s.setRing d r x).sync = s.sync := rfl
@[simp] theorem State.setRing_plat (d : Nat) (r : Ring) (x : RingSt) : (s.setRing d r x).plat = s.plat := rfl
@[simp] theorem State.setRing_sec (d : Nat) (r : Ring) (x : RingSt) : (s.setRing d r x).sec = s.sec := rfl
@[simp] theorem State.setRing_collectors (d : Nat) (r : Ring) (x : RingSt) : (s.setRing d r x).collectors = s.collectors := rfl
@[simp] theorem State.setRing_shadows (d : Nat) (r : Ring) (x : RingSt) : (s.setRing d r x).shadows = s.shadows := rfl
@[simp] theorem State.setRing_resp (d : Nat) (r : Ring) (x : RingSt) : (s.setRing d r x).resp = s.resp := rfl
@[simp] theorem State.setRing_warmDue (d : Nat) (r : Ring) (x : RingSt) : (s.setRing d r x).warmDue = s.warmDue := rfl

end Sys2Proof.Machine
end

