-- ==== Sys2Proof/Laws/Tab.lean ====
section
/-!
SUPPORT. Laws of sparse tables: read after write, and that every operation keeps the canonical form.
-/

namespace Sys2Proof.Machine

variable {α : Type}

theorem Tab.get_insert (d v : α) (t : Tab α) (k j : Nat) :
    Tab.get d (Tab.insert t k v) j = if j = k then v else Tab.get d t j := by
  induction t with
  | nil => simp [Tab.insert, Tab.get, eq_comm]
  | cons e t ih =>
    obtain ⟨i, w⟩ := e
    simp only [Tab.insert]
    split
    · simp [Tab.get, eq_comm]
    · split
      · next h => subst h; by_cases hj : j = k <;> simp [Tab.get, hj, Ne.symm]
      · next h =>
        simp only [Tab.get, ih]
        by_cases hi : i = j
        · subst hi; simp [Ne.symm h]
        · simp [hi]

theorem Tab.get_erase (d : α) (t : Tab α) (k j : Nat) :
    Tab.get d (Tab.erase t k) j = if j = k then d else Tab.get d t j := by
  induction t with
  | nil => simp [Tab.erase, Tab.get]
  | cons e t ih =>
    obtain ⟨i, w⟩ := e
    simp only [Tab.erase]
    split
    · next h => subst h; rw [ih]; by_cases hj : j = i <;> simp [Tab.get, hj, eq_comm]
    · next h =>
      simp only [Tab.get, ih]
      by_cases hi : i = j
      · subst hi; simp [h]
      · simp [hi]

/-- A read after a write gives the value written; a write leaves every other key alone. -/
theorem Tab.get_set [DecidableEq α] (d v : α) (t : Tab α) (k j : Nat) :
    Tab.get d (Tab.set d t k v) j = if j = k then v else Tab.get d t j := by
  unfold Tab.set
  split
  · next h => subst h; exact Tab.get_erase ..
  · exact Tab.get_insert ..

@[simp] theorem Tab.get_set_same [DecidableEq α] (d v : α) (t : Tab α) (k : Nat) :
    Tab.get d (Tab.set d t k v) k = v := by simp [Tab.get_set]

theorem Tab.get_set_other [DecidableEq α] (d v : α) (t : Tab α) {k j : Nat} (h : j ≠ k) :
    Tab.get d (Tab.set d t k v) j = Tab.get d t j := by simp [Tab.get_set, h]

theorem Tab.get_upd [DecidableEq α] (d : α) (t : Tab α) (k : Nat) (f : α → α) (j : Nat) :
    Tab.get d (Tab.upd d t k f) j = if j = k then f (Tab.get d t k) else Tab.get d t j := by
  simp [Tab.upd, Tab.get_set]

@[simp] theorem Tab.get_nil (d : α) (k : Nat) : Tab.get d [] k = d := rfl

/-! ## The canonical form -/

theorem Tab.rising_mono {t : Tab α} {lo hi : Nat} (h : lo ≤ hi) (r : Tab.rising hi t = true) :
    Tab.rising lo t = true := by
  cases t with
  | nil => rfl
  | cons e t => obtain ⟨k, v⟩ := e; simp [Tab.rising] at r ⊢; exact ⟨by omega, r.2⟩

theorem Tab.rising_insert {t : Tab α} {lo k : Nat} {v : α} (h : lo ≤ k) (r : Tab.rising lo t = true) :
    Tab.rising lo (Tab.insert t k v) = true := by
  induction t generalizing lo with
  | nil => simp [Tab.insert, Tab.rising, h]
  | cons e t ih =>
    obtain ⟨j, w⟩ := e
    simp [Tab.rising] at r
    simp only [Tab.insert]
    split
    · next hk => simp [Tab.rising, h, r.2]; omega
    · split
      · next hk => subst hk; simp [Tab.rising, h, r.2]
      · next h1 h2 => simp [Tab.rising, r.1, ih (show j + 1 ≤ k by omega) r.2]

theorem Tab.rising_erase {t : Tab α} {lo k : Nat} (r : Tab.rising lo t = true) :
    Tab.rising lo (Tab.erase t k) = true := by
  induction t generalizing lo with
  | nil => rfl
  | cons e t ih =>
    obtain ⟨j, w⟩ := e
    simp [Tab.rising] at r
    simp only [Tab.erase]
    split
    · exact Tab.rising_mono (by omega) (ih r.2)
    · simp [Tab.rising, r.1, ih r.2]

theorem Tab.rising_filter {t : Tab α} {lo : Nat} (p : Nat × α → Bool) (r : Tab.rising lo t = true) :
    Tab.rising lo (t.filter p) = true := by
  induction t generalizing lo with
  | nil => rfl
  | cons e t ih =>
    obtain ⟨j, w⟩ := e
    simp [Tab.rising] at r
    simp only [List.filter]
    split
    · simp [Tab.rising, r.1, ih r.2]
    · exact Tab.rising_mono (by omega) (ih r.2)

theorem Tab.mem_insert {t : Tab α} {k : Nat} {v : α} {e : Nat × α} (h : e ∈ Tab.insert t k v) :
    e = (k, v) ∨ e ∈ t := by
  induction t with
  | nil => simpa [Tab.insert] using h
  | cons f t ih =>
    obtain ⟨j, w⟩ := f
    simp only [Tab.insert] at h
    split at h
    · simpa using h
    · split at h
      · rcases List.mem_cons.1 h with h | h
        · exact .inl h
        · exact .inr (List.mem_cons_of_mem _ h)
      · rcases List.mem_cons.1 h with h | h
        · exact .inr (h ▸ List.mem_cons_self ..)
        · exact (ih h).imp id (List.mem_cons_of_mem _)

theorem Tab.mem_erase {t : Tab α} {k : Nat} {e : Nat × α} (h : e ∈ Tab.erase t k) : e ∈ t := by
  induction t with
  | nil => simp [Tab.erase] at h
  | cons f t ih =>
    obtain ⟨j, w⟩ := f
    simp only [Tab.erase] at h
    split at h
    · exact List.mem_cons_of_mem _ (ih h)
    · rcases List.mem_cons.1 h with h | h
      · exact h ▸ List.mem_cons_self ..
      · exact List.mem_cons_of_mem _ (ih h)

/-- A write keeps the canonical form of a table whose unlisted keys all read `d`. -/
theorem Tab.wf_set [DecidableEq α] {d v : α} {t : Tab α} {k : Nat} (h : Tab.wf (fun _ => d) t = true) :
    Tab.wf (fun _ => d) (Tab.set d t k v) = true := by
  simp only [Tab.wf, Bool.and_eq_true, List.all_eq_true, decide_eq_true_eq] at h ⊢
  unfold Tab.set
  split
  · exact ⟨Tab.rising_erase h.1, fun e he => h.2 e (Tab.mem_erase he)⟩
  · next hv =>
    refine ⟨Tab.rising_insert (Nat.zero_le _) h.1, fun e he => ?_⟩
    rcases Tab.mem_insert he with rfl | he
    · exact hv
    · exact h.2 e he

theorem Tab.wf_upd [DecidableEq α] {d : α} {t : Tab α} {k : Nat} {f : α → α} (h : Tab.wf (fun _ => d) t = true) :
    Tab.wf (fun _ => d) (Tab.upd d t k f) = true := Tab.wf_set h

theorem Tab.wf_filter [DecidableEq α] {d : α} {t : Tab α} (p : Nat × α → Bool) (h : Tab.wf (fun _ => d) t = true) :
    Tab.wf (fun _ => d) (t.filter p) = true := by
  simp only [Tab.wf, Bool.and_eq_true, List.all_eq_true, decide_eq_true_eq] at h ⊢
  exact ⟨Tab.rising_filter p h.1, fun e he => h.2 e ((List.mem_filter.1 he).1)⟩

theorem Tab.wf_keep [DecidableEq α] {d : α} {t : Tab α} (p : Nat → Bool) (h : Tab.wf (fun _ => d) t = true) :
    Tab.wf (fun _ => d) (Tab.keep p t) = true := Tab.wf_filter _ h

theorem Tab.get_keep (d : α) (t : Tab α) (p : Nat → Bool) (k : Nat) :
    Tab.get d (Tab.keep p t) k = if p k then Tab.get d t k else d := by
  induction t with
  | nil => simp [Tab.keep, Tab.get]
  | cons e t ih =>
    obtain ⟨j, v⟩ := e
    simp only [Tab.keep, List.filter] at ih ⊢
    by_cases hj : j = k
    · subst hj; cases h : p j <;> simp_all [Tab.get]
    · cases h : p j <;> simp_all [Tab.get]

end Sys2Proof.Machine
end

