-- ==== Sys2Proof/Laws/Ops.lean ====
section
/-!
SUPPORT. What the shared operations can do, said once each: registers and memory read what was written, rings change
registers only, monitors change monitors only, trace records change trace queues only.
-/

namespace Sys2Proof.Machine

/-! ## Registers -/

theorem State.reg_setReg (s : State) (d : Nat) (f : RegFam) (v i j : Nat) :
    (s.setReg d f v i j).reg d f i j = v % 2 ^ 64 := by
  simp only [State.reg, State.setReg, Tab.get_set_same]
  rw [BitVec.xor_assoc, BitVec.xor_self, BitVec.xor_zero, BitVec.toNat_ofNat]

/-- A register elsewhere in the package keeps its value. -/
theorem State.reg_setReg_other (s : State) {d e : Nat} {f g : RegFam} {v i j k l : Nat}
    (h : pkgAddr e (Reg.off ⟨g, k, l⟩) ≠ pkgAddr d (Reg.off ⟨f, i, j⟩)) :
    (s.setReg d f v i j).reg e g k l = s.reg e g k l := by
  simp only [State.reg, State.setReg, Tab.get_set_other _ _ _ h]

/-! ## Memory -/

theorem Memory.get_write (m : Tab Byte) (a : Nat) (bs : List Byte) (x : Nat) :
    Tab.get 0#8 (Memory.write m a bs) x =
      if a ≤ x ∧ x < a + bs.length then bs.getD (x - a) 0#8 else Tab.get 0#8 m x := by
  induction bs generalizing m a with
  | nil => rw [if_neg (by simp only [List.length_nil]; omega)]; rfl
  | cons b t ih =>
    simp only [Memory.write, ih, Tab.get_set, List.length_cons]
    by_cases h : x = a
    · subst h; rw [if_neg (by omega), if_pos rfl, if_pos (by omega)]; simp
    · by_cases h2 : a ≤ x
      · obtain ⟨n, rfl⟩ : ∃ n, x = a + 1 + n := ⟨x - a - 1, by omega⟩
        have e : a + 1 + n - a = n + 1 := by omega
        have e2 : a + 1 + n - (a + 1) = n := by omega
        simp only [e, e2, List.getD_cons_succ, h, if_false]
        split <;> split <;> first | rfl | omega
      · rw [if_neg (by omega), if_neg h, if_neg (by omega)]

theorem Memory.wf_write {m : Tab Byte} (a : Nat) (bs : List Byte) (h : Memory.wf m = true) :
    Memory.wf (Memory.write m a bs) = true := by
  induction bs generalizing m a with
  | nil => exact h
  | cons b t ih => exact ih (a + 1) (Tab.wf_set h)

theorem Memory.wf_keep {m : Tab Byte} (p : Nat → Bool) (h : Memory.wf m = true) :
    Memory.wf (Tab.keep p m) = true := Tab.wf_keep p h

theorem State.reset_mem_wf : Memory.wf State.reset.mem = true := rfl

theorem State.readByte_writeAt (s : State) (a : Nat) (bs : List Byte) (x : Nat) :
    (s.writeAt a bs).readByte x =
      if a ≤ x ∧ x < a + bs.length then bs.getD (x - a) 0#8 else s.readByte x := Memory.get_write ..

theorem State.wf_writeAt {s : State} (a : Nat) (bs : List Byte) (h : Memory.wf s.mem = true) :
    Memory.wf (s.writeAt a bs).mem = true := Memory.wf_write a bs h

/-! ## Units -/

@[simp] theorem State.core_setCore (s : State) (cd k : Nat) (c : Core) : (s.setCore cd k c).core cd k = c :=
  Tab.get_set_same ..

theorem State.core_setCore_other (s : State) {cd k cd' k' : Nat} (c : Core) (h : 512 * cd' + k' ≠ 512 * cd + k) :
    (s.setCore cd k c).core cd' k' = s.core cd' k' := Tab.get_set_other _ _ _ h

@[simp] theorem State.engine_setEngine (s : State) (cd k p : Nat) (e : Engine) :
    (s.setEngine cd k p e).engine cd k p = e := Tab.get_set_same ..

@[simp] theorem State.router_setRouter (s : State) (cd c : Nat) (r : Router) :
    (s.setRouter cd c r).router cd c = r := Tab.get_set_same ..

@[simp] theorem State.die_setDie (s : State) (d : Nat) (x : DieSt) : (s.setDie d x).die d = x := Tab.get_set_same ..

@[simp] theorem State.fab_setFab (s : State) (d : Nat) (x : FabDie) : (s.setFab d x).fab d = x := Tab.get_set_same ..

@[simp] theorem State.link_setLink (s : State) (d l : Nat) (x : LinkEnd) : (s.setLink d l x).link d l = x :=
  Tab.get_set_same ..

@[simp] theorem State.port_setPort (s : State) (d p : Nat) (x : PortEnd) : (s.setPort d p x).port d p = x :=
  Tab.get_set_same ..

@[simp] theorem State.md_setMd (s : State) (d : Nat) (x : MdSt) : (s.setMd d x).md d = x := Tab.get_set_same ..

/-- What is read from a field that an update leaves alone. -/
theorem State.core_eq {s t : State} (h : t.cores = s.cores) (cd k : Nat) : t.core cd k = s.core cd k := by
  simp only [State.core, h]

theorem State.engine_eq {s t : State} (h : t.engines = s.engines) (cd k p : Nat) : t.engine cd k p = s.engine cd k p := by
  simp only [State.engine, h]

theorem State.die_eq {s t : State} (h : t.dies = s.dies) (d : Nat) : t.die d = s.die d := by simp only [State.die, h]

theorem State.readByte_eq {s t : State} (h : t.mem = s.mem) (a : Nat) : t.readByte a = s.readByte a := by
  simp only [State.readByte, h]

theorem State.reg_eq {s t : State} (h : t.csr = s.csr) (d : Nat) (f : RegFam) (i j : Nat) :
    t.reg d f i j = s.reg d f i j := by simp only [State.reg, h]

/-! ## Rings, monitors, trace records -/

/-- A fold of steps related by a preorder is related as a whole. -/
theorem State.foldl_rel {α : Type} {R : State → State → Prop} (hr : ∀ s, R s s) (ht : ∀ {a b c}, R a b → R b c → R a c)
    {f : State → α → State} (h : ∀ s a, R s (f s a)) (l : List α) (s : State) : R s (l.foldl f s) := by
  induction l generalizing s with
  | nil => exact hr s
  | cons a t ih => exact ht (h s a) (ih (f s a))

/-- Registers are all that differs. -/
def State.CsrOnly (s t : State) : Prop := t = { s with csr := t.csr }

theorem State.CsrOnly.refl (s : State) : s.CsrOnly s := rfl
theorem State.CsrOnly.trans {s t u : State} (h : s.CsrOnly t) (k : t.CsrOnly u) : s.CsrOnly u := by
  unfold State.CsrOnly at *; rw [k, h]
theorem State.CsrOnly.cores {s t : State} (h : s.CsrOnly t) : t.cores = s.cores := by rw [h]
theorem State.CsrOnly.engines {s t : State} (h : s.CsrOnly t) : t.engines = s.engines := by rw [h]
theorem State.CsrOnly.routers {s t : State} (h : s.CsrOnly t) : t.routers = s.routers := by rw [h]
theorem State.CsrOnly.dies {s t : State} (h : s.CsrOnly t) : t.dies = s.dies := by rw [h]
theorem State.CsrOnly.mem {s t : State} (h : s.CsrOnly t) : t.mem = s.mem := by rw [h]
theorem State.CsrOnly.pending {s t : State} (h : s.CsrOnly t) : t.pending = s.pending := by rw [h]
theorem State.CsrOnly.sec {s t : State} (h : s.CsrOnly t) : t.sec = s.sec := by rw [h]

theorem State.setReg_csrOnly (s : State) (d : Nat) (f : RegFam) (v i j : Nat) : s.CsrOnly (s.setReg d f v i j) := rfl
theorem State.setFld_csrOnly (s : State) (d : Nat) (f : RegFam) (hi lo v i j : Nat) :
    s.CsrOnly (s.setFld d f hi lo v i j) := State.setReg_csrOnly ..
theorem State.addFld_csrOnly (s : State) (d : Nat) (f : RegFam) (hi lo n i j : Nat) :
    s.CsrOnly (s.addFld d f hi lo n i j) := State.setReg_csrOnly ..
theorem State.orReg_csrOnly (s : State) (d : Nat) (f : RegFam) (m i j : Nat) :
    s.CsrOnly (s.orReg d f m i j) := State.setReg_csrOnly ..

/-- Registers and what the event rings hold staged are all that differs. -/
def State.RingOnly (s t : State) : Prop := t = { s with csr := t.csr, rings := t.rings }

theorem State.RingOnly.refl (s : State) : s.RingOnly s := rfl
theorem State.RingOnly.trans {s t u : State} (h : s.RingOnly t) (k : t.RingOnly u) : s.RingOnly u := by
  unfold State.RingOnly at *; rw [k, h]
theorem State.CsrOnly.ring {s t : State} (h : s.CsrOnly t) : s.RingOnly t := by unfold State.RingOnly; rw [h]
theorem State.RingOnly.cores {s t : State} (h : s.RingOnly t) : t.cores = s.cores := by rw [h]
theorem State.RingOnly.engines {s t : State} (h : s.RingOnly t) : t.engines = s.engines := by rw [h]
theorem State.RingOnly.routers {s t : State} (h : s.RingOnly t) : t.routers = s.routers := by rw [h]
theorem State.RingOnly.mem {s t : State} (h : s.RingOnly t) : t.mem = s.mem := by rw [h]

/-- What one ring of a die may change: its entries, its status, what it holds staged. -/
structure State.RingLog (die : Nat) (r : Ring) (s t : State) : Prop where
  only : s.RingOnly t
  stages : ∀ j, j ≠ r.key die → Tab.get {} t.rings j = Tab.get {} s.rings j
  regs : ∀ a, (∀ j, j < 128 → a ≠ pkgAddr die (Reg.off ⟨r.fam, r.stat.2, j⟩)) →
    a ≠ pkgAddr die (Reg.off ⟨r.stat.1, r.stat.2, 0⟩) → Tab.get 0#64 t.csr a = Tab.get 0#64 s.csr a

namespace State.RingLog
variable {d : Nat} {r : Ring} {s t u : State}

theorem refl (s : State) : State.RingLog d r s s := ⟨.refl s, fun _ _ => rfl, fun _ _ _ => rfl⟩

theorem trans (h : State.RingLog d r s t) (h' : State.RingLog d r t u) : State.RingLog d r s u :=
  ⟨h.only.trans h'.only, fun j hj => (h'.stages j hj).trans (h.stages j hj),
   fun a h1 h2 => (h'.regs a h1 h2).trans (h.regs a h1 h2)⟩

theorem entry (s : State) (v : Nat) {j : Nat} (h : j < 128) :
    State.RingLog d r s (s.setReg d r.fam v r.stat.2 j) :=
  ⟨rfl, fun _ _ => rfl, fun _ h1 _ => Tab.get_set_other _ _ _ (h1 j h)⟩

theorem stat (s : State) (v : Nat) : State.RingLog d r s (s.setReg d r.stat.1 v r.stat.2) :=
  ⟨rfl, fun _ _ => rfl, fun _ _ h2 => Tab.get_set_other _ _ _ h2⟩

theorem setRing (s : State) (x : RingSt) : State.RingLog d r s (s.setRing d r x) :=
  ⟨rfl, fun _ hj => Tab.get_set_other _ _ _ hj, fun _ _ _ => rfl⟩

theorem write (s : State) (stamp c x : Nat) : State.RingLog d r s (s.ringWrite d r stamp c x) := by
  unfold State.ringWrite
  exact ((entry _ _ (by omega)).trans (entry _ _ (by omega))).trans (stat _ _)

theorem put (s : State) (e : Staged) : State.RingLog d r s (s.ringPut d r e) := by
  unfold State.ringPut
  refine State.RingLog.trans ?_ (write ..)
  split
  · exact refl s
  · exact write ..

theorem flush (s : State) : State.RingLog d r s (s.ringFlush d r) := by
  unfold State.ringFlush
  exact (State.foldl_rel (R := State.RingLog d r) refl trans (fun s e => put s e) _ s).trans (setRing ..)

theorem freeze (s : State) (n : Nat) : State.RingLog d r s (s.ringFreeze d r n) := by
  unfold State.ringFreeze
  split
  · exact refl s
  · exact ((flush _).trans (write ..)).trans (stat _ _)

theorem pass (n : Nat) (s : State) : State.RingLog d r s (s.ringPass d r n) := by
  induction n generalizing s with
  | zero => exact refl s
  | succ n ih =>
    unfold State.ringPass
    dsimp only
    split
    · exact refl s
    · split
      · exact ((write ..).trans (setRing ..)).trans (ih _)
      · split
        · exact ((write ..).trans (setRing ..)).trans (freeze ..)
        · exact ((write ..).trans (setRing ..)).trans (ih _)

/-- An event changes its own ring only (R618, R620). -/
theorem ring (s : State) (c x : Nat) (join : Bool) : State.RingLog d r s (s.ring d r c x join) := by
  unfold State.ring
  dsimp only
  split
  · exact setRing ..
  · have h : State.RingLog d r s (if s.frozen d r then s else
        s.ringPass d r (min 9 (max 1 (s.unitCycle d - (s.ringSt d r).cyc)))) := by
      split
      · exact refl s
      · exact pass ..
    generalize (if s.frozen d r then s else
        s.ringPass d r (min 9 (max 1 (s.unitCycle d - (s.ringSt d r).cyc)))) = u at h ⊢
    split
    · exact h.trans (stat _ _)
    · exact h.trans (setRing ..)

end State.RingLog

theorem State.ring_only (s : State) (d : Nat) (r : Ring) (c x : Nat) (j : Bool) : s.RingOnly (s.ring d r c x j) :=
  (State.RingLog.ring s c x j).only

/-- What a sample may change: monitors, and the counts of missed samples of its die. -/
structure State.Sampled (d : Nat) (s t : State) : Prop where
  only : t = { s with monitors := t.monitors, csr := t.csr }
  regs : ∀ a, (∀ m, m < 16 → a ≠ pkgAddr d (Reg.off ⟨.monMissed, m, 0⟩)) → Tab.get 0#64 t.csr a = Tab.get 0#64 s.csr a

theorem State.Sampled.refl {d : Nat} (s : State) : State.Sampled d s s := ⟨rfl, fun _ _ => rfl⟩

theorem State.Sampled.trans {d : Nat} {s t u : State} (h : State.Sampled d s t) (h' : State.Sampled d t u) :
    State.Sampled d s u := ⟨by rw [h'.only, h.only], fun a ha => (h'.regs a ha).trans (h.regs a ha)⟩

theorem State.sample_only (s : State) (d src : Nat) (x : Int) (l c : Option Nat) (u : Nat) :
    State.Sampled d s (s.sample d src x l c u) := by
  unfold State.sample
  have key : ∀ (ms : List Nat), (∀ m ∈ ms, m < 16) → ∀ (f : State → Nat → State),
      (∀ s m, m < 16 → State.Sampled d s (f s m)) → ∀ s, State.Sampled d s (ms.foldl f s) := by
    intro ms
    induction ms with
    | nil => exact fun _ _ _ s => .refl s
    | cons m t ih =>
      exact fun h f hf s => (hf s m (h m (by simp))).trans (ih (fun m hm => h m (by simp [hm])) f hf _)
  refine key _ (fun m hm => List.mem_range.mp hm) _ (fun t m hm => ?_) s
  dsimp only
  split
  · split
    · exact ⟨rfl, fun _ ha => Tab.get_set_other _ _ _ (ha m hm)⟩
    · exact ⟨rfl, fun _ _ => rfl⟩
  · exact .refl t

theorem State.sampleCtx_only (s : State) (c kind : Nat) (x : Int) :
    s.sampleCtx c kind x = { s with monitors := (s.sampleCtx c kind x).monitors } := by
  unfold State.sampleCtx
  dsimp only
  split <;> rfl

/-- A trace record changes the core's trace queue and its drop counter only. -/
theorem State.traceAs_core (s : State) (cd k kind sub pc aux pay l o : Nat) :
    (s.traceAs cd k kind sub pc aux pay l o) = s ∨
    ∃ q b, (s.setCore cd k { s.core cd k with trace := q, afterLoss := b }).CsrOnly
      (s.traceAs cd k kind sub pc aux pay l o) := by
  unfold State.traceAs
  dsimp only
  split
  · split
    · exact .inr ⟨(s.core cd k).trace, true, rfl⟩
    · exact .inr ⟨_, false, rfl⟩
  · exact .inl rfl

end Sys2Proof.Machine
end

