-- ==== Sys2Proof/Laws/Issue.lean ====
section
/-!
SUPPORT. What the issue of one instruction does, said once: the core's PC and issue count move on, its event ring and
trace queue may record it, and the instruction's own effect follows.
-/

namespace Sys2Proof.Machine

/-! ## OnlyCore -/

namespace State.OnlyCore
variable {s t u : State} {cd k : Nat} {P : Nat → Prop}

theorem refl (s : State) : s.OnlyCore s cd k P := ⟨rfl, fun _ _ => rfl, fun _ _ => rfl, fun _ _ _ => rfl⟩

theorem trans (h : s.OnlyCore t cd k P) (h' : t.OnlyCore u cd k P) : s.OnlyCore u cd k P :=
  ⟨by rw [h'.rest, h.rest], fun j hj => (h'.stages j hj).trans (h.stages j hj),
   fun j hj => (h'.others j hj).trans (h.others j hj), fun a ha hp => (h'.regs a ha hp).trans (h.regs a ha hp)⟩

/-- An event in the core's own ring. -/
theorem of_ring (h : State.RingLog cd (.core k) s t) : s.OnlyCore t cd k P :=
  ⟨by rw [h.only], h.stages, fun j _ => by rw [h.only],
   fun a ha _ => h.regs a (fun j hj e => ha (.inl ⟨j, hj, e⟩)) (fun e => ha (.inr (.inl e)))⟩

theorem of_sample (h : State.Sampled cd s t) : s.OnlyCore t cd k P :=
  ⟨by rw [h.only], fun j _ => by rw [h.only], fun j _ => by rw [h.only],
   fun a ha _ => h.regs a (fun m hm e => ha (.inr (.inr (.inr ⟨m, hm, e⟩))))⟩

theorem setCore (s : State) (c : Core) : s.OnlyCore (s.setCore cd k c) cd k P :=
  ⟨rfl, fun _ _ => rfl, fun _ hj => Tab.get_set_other _ _ _ hj, fun _ _ _ => rfl⟩

theorem setReg (s : State) {f : RegFam} {i j : Nat} (v : Nat)
    (h : coreLog cd k (pkgAddr cd (Reg.off ⟨f, i, j⟩)) ∨ P (pkgAddr cd (Reg.off ⟨f, i, j⟩))) :
    s.OnlyCore (s.setReg cd f v i j) cd k P :=
  ⟨rfl, fun _ _ => rfl, fun _ _ => rfl,
   fun _ ha hp => Tab.get_set_other _ _ _ (fun e => h.elim (fun h => ha (e ▸ h)) (fun h => hp (e ▸ h)))⟩

theorem mono {Q : Nat → Prop} (h : s.OnlyCore t cd k P) (hq : ∀ a, P a → Q a) : s.OnlyCore t cd k Q :=
  ⟨h.rest, h.stages, h.others, fun a ha hn => h.regs a ha (fun hp => hn (hq a hp))⟩

end State.OnlyCore

theorem State.traceAs_only {P : Nat → Prop} (s : State) (cd k kind sub pc aux pay l o : Nat) :
    s.OnlyCore (s.traceAs cd k kind sub pc aux pay l o) cd k P := by
  unfold State.traceAs
  dsimp only
  split
  · split
    · exact (State.OnlyCore.setCore ..).trans (.setReg _ _ (.inl (.inr (.inr (.inl rfl)))))
    · exact State.OnlyCore.setCore ..
  · exact .refl s

/-- A trace record changes no register of the core. -/
theorem State.traceAs_sameCore (s : State) (cd k kind sub pc aux pay l o : Nat) :
    ∃ q b, (s.traceAs cd k kind sub pc aux pay l o).core cd k = { s.core cd k with trace := q, afterLoss := b } := by
  unfold State.traceAs
  dsimp only
  split
  · split
    · refine ⟨(s.core cd k).trace, true, ?_⟩
      rw [State.core_eq (State.addFld_csrOnly ..).cores, State.core_setCore]
    · exact ⟨_, false, State.core_setCore ..⟩
  · exact ⟨(s.core cd k).trace, (s.core cd k).afterLoss, rfl⟩

/-- The end of a wait records itself: it changes the core's trace queue, its ring and the monitors. -/
theorem State.endWait_only {P : Nat → Prop} (s : State) (cd k pc : Nat) (f : Option Nat) (x : Wait) :
    s.OnlyCore (s.endWait cd k pc f x) cd k P := by
  unfold State.endWait
  split
  · exact .refl s
  · dsimp only [State.traceCur]
    refine State.OnlyCore.trans ?_ (.of_sample (State.sample_only ..))
    refine State.OnlyCore.trans ?_ (State.traceAs_only ..)
    split
    · exact .of_ring (.ring ..)
    · exact .refl s

theorem State.endWait_sameCore (s : State) (cd k pc : Nat) (f : Option Nat) (x : Wait) :
    ∃ q b, (s.endWait cd k pc f x).core cd k = { s.core cd k with trace := q, afterLoss := b } := by
  have key (u : State) (hc : u.cores = s.cores) (aux pay : Nat) (y : Int) (l : Option Nat) :
      ∃ q b, ((u.traceCur cd k 2 x.sub pc aux pay).sample cd 1 y l none (k + 1)).core cd k =
        { s.core cd k with trace := q, afterLoss := b } := by
    obtain ⟨q, b, h⟩ := State.traceAs_sameCore u cd k 2 x.sub pc aux pay (u.core cd k).curLayer (u.core cd k).curOp
    refine ⟨q, b, ?_⟩
    rw [State.core_eq (by rw [(State.sample_only ..).only]), ← State.core_eq hc]
    exact h
  unfold State.endWait
  split
  · exact ⟨_, _, rfl⟩
  · dsimp only
    split
    · exact key _ (State.ring_only ..).cores ..
    · exact key _ rfl ..

/-! ## The issue itself -/

/-- What a record of the core's state changes: the ring, and in the core its count of time without issue. -/
structure State.Noted (cd k : Nat) (s t : State) : Prop where
  only : s.OnlyCore t cd k
  core : ∃ h a, t.core cd k = { s.core cd k with waitHc := h, waitAcc := a }

theorem State.noteWait_noted (s : State) (cd k : Nat) : State.Noted cd k s (s.noteWait cd k) := by
  unfold State.noteWait
  dsimp only
  split
  · split
    · exact ⟨.refl s, _, _, rfl⟩
    · exact ⟨.setCore .., some s.hc, (s.core cd k).waitAcc, State.core_setCore ..⟩
  · split
    · exact ⟨.setCore .., none, (s.core cd k).waited s.hc, State.core_setCore ..⟩
    · exact ⟨.refl s, _, _, rfl⟩

/-- Watching a core records its change of state, beyond what `f` does. -/
theorem State.watch_noted (s : State) (cd k : Nat) (f : State → State) : State.Noted cd k (f s) (s.watch cd [k] f) := by
  unfold State.watch
  simp only [List.foldl_cons, List.foldl_nil]
  have h := State.noteWait_noted (f s) cd k
  generalize (f s).noteWait cd k = u at h
  split
  · exact h
  · exact ⟨h.only.trans (.of_ring (.ring ..)), by rw [State.core_eq (State.ring_only ..).cores]; exact h.core⟩

/-- What an instruction finds when its effect starts, against the state before the step: its core with the PC and the
issue count moved on. -/
structure State.Started (s s1 : State) (cd k : Nat) : Prop where
  only : s.OnlyCore s1 cd k
  core : ∃ q b, s1.core cd k = { (s.core cd k).issued (s.core cd k).pc.toNat with trace := q, afterLoss := b }

/-- Issue: the instruction's effect `go` on a state that has moved on, the branch or fall-through, and a record in the
core's event ring. -/
theorem instrRow_issues {s : State} {cd k : Nat} {w : IWord} (h : s.Issues cd k w)
    (go : IWord → State → State × Option Nat) :
    ∃ s1 t, instrRow cd k w.op s go = .next t ∧ s.Started s1 cd k ∧
      State.Noted cd k ((go w s1).1.advance cd k (s.core cd k).pc.toNat (go w s1).2) t := by
  obtain ⟨hc, ha, hs, hw, hl, hg, he, hm, hp⟩ := h
  have hw' : s.fetch cd k (s.core cd k).pc.toNat = w := hw
  unfold instrRow onCoreCmd
  rw [if_pos hc]
  have hlog := State.watch_noted s cd k (fun s => s.issue cd k w.op go)
  -- in both cases the effect starts on a state whose core is this one, its parity good
  have fin (s1 : State) (h1 : s.Started s1 cd k)
      (hi : s.issue cd k w.op go =
        (go w (s1.readVectors cd k w)).1.advance cd k (s.core cd k).pc.toNat (go w (s1.readVectors cd k w)).2) :
      ∃ s1 t, (Host.Outcome.next (s.watch cd [k] (fun s => s.issue cd k w.op go)) : Out) = .next t ∧ s.Started s1 cd k ∧
        State.Noted cd k ((go w s1).1.advance cd k (s.core cd k).pc.toNat (go w s1).2) t := by
    have hv : s1.readVectors cd k w = s1 := by
      obtain ⟨q, b, hq⟩ := h1.core
      have e : (s1.core cd k).vBad = (s.core cd k).vBad := by rw [hq]; rfl
      unfold State.readVectors
      rw [e, hp]
      rfl
    rw [hv] at hi
    exact ⟨s1, _, rfl, h1, by rw [← hi]; exact hlog⟩
  cases hx : s.waitOf cd k w with
  | none =>
    refine fin (s.onCore cd k (fun c => c.issued (s.core cd k).pc.toNat)) ⟨.setCore .., ?_⟩ ?_
    · exact ⟨(s.core cd k).trace, (s.core cd k).afterLoss, State.core_setCore ..⟩
    · simp [State.issue, ha, hs, hw', hl, hg, he, hx]
  | some x =>
    have hmet := hm x hx
    refine fin ((s.endWait cd k (s.core cd k).pc.toNat (s.core cd k).waitFrom x).onCore cd k
      (fun c => c.issued (s.core cd k).pc.toNat)) ⟨(State.endWait_only ..).trans (.setCore ..), ?_⟩ ?_
    · obtain ⟨q, b, hq⟩ := State.endWait_sameCore s cd k (s.core cd k).pc.toNat (s.core cd k).waitFrom x
      exact ⟨q, b, by unfold State.onCore; rw [State.core_setCore, hq]; rfl⟩
    · simp [State.issue, ha, hs, hw', hl, hg, he, hx, hmet]

end Sys2Proof.Machine
end

