-- ==== Sys2Proof/Laws/Exception.lean ====
section
/-!
SUPPORT. What raising a core exception does and leaves alone (R161, R162).
-/

namespace Sys2Proof.Machine

namespace State.CoreSafe
variable {s t u : State} {cd k : Nat}

theorem refl (s : State) : s.CoreSafe s cd k := ⟨rfl, rfl, rfl, rfl, rfl, fun _ _ => rfl, rfl⟩

theorem trans (h : s.CoreSafe t cd k) (h' : t.CoreSafe u cd k) : s.CoreSafe u cd k :=
  ⟨h'.mem.trans h.mem, h'.memErr.trans h.memErr, h'.engines.trans h.engines, h'.routers.trans h.routers,
   h'.kept.trans h.kept, fun j hj => (h'.others j hj).trans (h.others j hj), h'.regs.trans h.regs⟩

theorem of_ring (h : s.RingOnly t) : s.CoreSafe t cd k := by
  refine ⟨h.mem, by rw [h], h.engines, h.routers, by rw [h]; rfl, fun j _ => by rw [h], by rw [State.core_eq h.cores]⟩

theorem of_csr (h : s.CsrOnly t) : s.CoreSafe t cd k := of_ring h.ring

theorem setReg (s : State) (d : Nat) (f : RegFam) (v i j : Nat) : s.CoreSafe (s.setReg d f v i j) cd k :=
  of_csr (State.setReg_csrOnly ..)

theorem setFld (s : State) (d : Nat) (f : RegFam) (hi lo v i j : Nat) : s.CoreSafe (s.setFld d f hi lo v i j) cd k :=
  of_csr (State.setFld_csrOnly ..)

theorem orReg (s : State) (d : Nat) (f : RegFam) (m i j : Nat) : s.CoreSafe (s.orReg d f m i j) cd k :=
  of_csr (State.orReg_csrOnly ..)

theorem setCore (s : State) (c : Core) (h : c.regs = (s.core cd k).regs) : s.CoreSafe (s.setCore cd k c) cd k :=
  ⟨rfl, rfl, rfl, rfl, rfl, fun _ hj => Tab.get_set_other _ _ _ hj, by rw [State.core_setCore]; exact h⟩

theorem faultA (s : State) (d c : Nat) : s.CoreSafe (s.faultA d c) cd k :=
  ⟨rfl, rfl, rfl, rfl, rfl, fun _ _ => rfl, rfl⟩

theorem restartNow (s : State) : s.CoreSafe s.restartNow cd k := ⟨rfl, rfl, rfl, rfl, rfl, fun _ _ => rfl, rfl⟩

theorem raiseAlert (s : State) (f : RegFam) (m : Nat) : s.CoreSafe (s.raiseAlert f m) cd k :=
  ⟨rfl, rfl, rfl, rfl, rfl, fun _ _ => rfl, rfl⟩

theorem classE (s : State) (d c : Nat) : s.CoreSafe (s.classE d c) cd k := by
  unfold State.classE
  refine State.CoreSafe.trans ?_ (restartNow _)
  exact (setFld ..).trans ((setFld ..).trans ((raiseAlert ..).trans (raiseAlert ..)))

theorem ring (s : State) (d : Nat) (r : Ring) (c x : Nat) (j : Bool) : s.CoreSafe (s.ring d r c x j) cd k :=
  of_ring (State.ring_only ..)

theorem traceAs (s : State) (kind sub pc aux pay l o : Nat) :
    s.CoreSafe (s.traceAs cd k kind sub pc aux pay l o) cd k := by
  unfold State.traceAs
  dsimp only
  split
  · split
    · exact State.CoreSafe.trans (t := s.setCore cd k { s.core cd k with afterLoss := true }) (setCore _ _ rfl)
        (of_csr (State.addFld_csrOnly ..))
    · exact setCore _ _ rfl
  · exact refl s

theorem foldl {α : Type} {f : State → α → State} (h : ∀ (s : State) a, s.CoreSafe (f s a) cd k) (l : List α) (s : State) :
    s.CoreSafe (l.foldl f s) cd k :=
  State.foldl_rel (R := fun a b => a.CoreSafe b cd k) refl trans h l s

end State.CoreSafe

theorem State.loadExc_csr (s : State) (cd k : Nat) (codes : List Nat) : s.CsrOnly (s.loadExc cd k codes) := by
  unfold State.loadExc
  dsimp only
  split
  · exact (State.setReg_csrOnly ..).trans ((State.setFld_csrOnly ..).trans (State.setFld_csrOnly ..))
  · exact State.setReg_csrOnly ..

/-- An exception leaves memory, engines, routers, the other cores and the core's registers alone. -/
theorem State.raiseCore_safe (s : State) (cd k : Nat) (codes : List Nat) (pc : Nat) :
    s.CoreSafe (s.raiseCore cd k codes pc) cd k := by
  unfold State.raiseCore
  split
  · exact .refl s
  · refine State.CoreSafe.trans ?_ (State.CoreSafe.foldl (fun s a => ?_) _ _)
    · refine State.CoreSafe.trans ?_ (State.CoreSafe.foldl (fun s a => State.CoreSafe.ring ..) _ _)
      refine State.CoreSafe.trans (.of_csr (State.loadExc_csr s cd k codes)) ?_
      unfold State.enterExc
      dsimp only
      split
      · exact State.CoreSafe.setCore _ _ rfl
      · exact .refl _
    · unfold State.reportExc
      refine State.CoreSafe.trans (t := s.traceCur cd k 6 a pc 0 0) (State.CoreSafe.traceAs ..) ?_
      dsimp only
      generalize s.traceCur cd k 6 a pc 0 0 = u
      split
      · exact State.CoreSafe.faultA ..
      · split
        · exact State.CoreSafe.faultA ..
        · exact State.CoreSafe.classE ..

theorem State.classE_cores (s : State) (d c : Nat) : (s.classE d c).cores = s.cores := by
  have h : ∀ u : State, u.restartNow.cores = u.cores := fun _ => rfl
  unfold State.classE
  rw [h, State.alert_cores, State.raiseAlert_cores, State.setFld_cores, State.setFld_cores]

/-- What reports and records leave of a core: all but its trace queue. -/
theorem State.reportExc_run (s : State) (cd k pc code : Nat) :
    ((s.reportExc cd k pc code).core cd k).run = (s.core cd k).run := by
  obtain ⟨q, b, h⟩ := State.traceAs_sameCore s cd k 6 code pc 0 0 (s.core cd k).curLayer (s.core cd k).curOp
  have h' : ((s.traceCur cd k 6 code pc 0 0).core cd k).run = (s.core cd k).run := by
    unfold State.traceCur; rw [h]
  unfold State.reportExc
  dsimp only
  generalize s.traceCur cd k 6 code pc 0 0 = u at h' ⊢
  split
  · rw [State.core_eq (State.faultA_cores ..)]; exact h'
  · split
    · rw [State.core_eq (State.faultA_cores ..)]; exact h'
    · rw [State.core_eq (State.classE_cores ..)]; exact h'

/-- A core that runs stands in EXCEPTION after one is raised. -/
theorem State.raiseCore_run (s : State) (cd k : Nat) (codes : List Nat) (pc : Nat) (hc : codes ≠ [])
    (h : (s.core cd k).run = .active) : ((s.raiseCore cd k codes pc).core cd k).run = .exception := by
  have f1 (l : List Nat) (u : State) : ((l.foldl (fun s code => s.reportExc cd k pc code) u).core cd k).run =
      (u.core cd k).run := by
    induction l generalizing u with
    | nil => rfl
    | cons a t ih => rw [List.foldl_cons, ih, State.reportExc_run]
  have f2 (l : List (Nat × Nat)) (u : State) :
      (l.foldl (fun s x => s.ring cd (.core k) 0x07 (pc % 4096 + x.1 <<< 16) (decide (x.2 ≠ 0))) u).cores = u.cores :=
    (State.foldl_rel State.RingOnly.refl State.RingOnly.trans (fun s a => State.ring_only ..) l u).cores
  unfold State.raiseCore
  rw [if_neg hc]
  dsimp only
  rw [f1, State.core_eq (f2 _ _)]
  unfold State.enterExc
  dsimp only
  rw [if_pos (by rw [State.core_eq (State.loadExc_csr ..).cores]; exact h), State.core_setCore]

end Sys2Proof.Machine
end

