-- ==== Sys2Proof/Laws/Complete.lean ====
section
/-!
SUPPORT. How an instruction completes, said once: from what its effect does to the core, the state that the step answers.
-/

namespace Sys2Proof.Machine

namespace State.OnlyCore
variable {s t u : State} {cd k : Nat} {P : Nat → Prop}

/-- A write of memory on both sides. -/
theorem writeMem (h : s.OnlyCore t cd k P) (d off : Nat) (bs : List Byte) :
    (s.writeMem d off bs).OnlyCore (t.writeMem d off bs) cd k P := by
  refine ⟨?_, h.stages, h.others, h.regs⟩
  rw [h.rest]
  rfl

theorem mem (h : s.OnlyCore t cd k P) : t.mem = s.mem := by rw [h.rest]
theorem memErr (h : s.OnlyCore t cd k P) : t.memErr = s.memErr := by rw [h.rest]
theorem engines (h : s.OnlyCore t cd k P) : t.engines = s.engines := by rw [h.rest]
theorem routers (h : s.OnlyCore t cd k P) : t.routers = s.routers := by rw [h.rest]
theorem dies (h : s.OnlyCore t cd k P) : t.dies = s.dies := by rw [h.rest]
theorem kept (h : s.OnlyCore t cd k P) : t.kept = s.kept := by rw [h.rest]; rfl

end State.OnlyCore

/-- An effect that leaves the core running at the index after its own. -/
structure Core.Ran (c : Core) (pc : Nat) : Prop where
  active : c.run = .active
  noStop : c.stopping = false
  pc : c.pc = BitVec.ofNat 12 (pc + 1)

theorem completes_of {base u t : State} {cd k pc : Nat} {tgt : Option Nat} {P : Nat → Prop} (hpc : pc < 4096)
    (hu : base.OnlyCore u cd k P) (hr : (u.core cd k).Ran pc)
    (ht : State.Noted cd k (u.advance cd k pc tgt) t) :
    base.Completes t cd k (u.core cd k).regs (nextIndex pc tgt) P := by
  obtain ⟨hto, n1, n2, htc⟩ := ht
  have hto' : (u.advance cd k pc tgt).OnlyCore t cd k P := hto.mono (fun _ h => h.elim)
  cases tgt with
  | some x =>
    have ha : u.advance cd k pc (some x) = u.setCore cd k { u.core cd k with pc := BitVec.ofNat 12 x } := by
      simp [State.advance, hr.active]
    rw [ha] at hto' htc
    have ho : base.OnlyCore t cd k P := (hu.trans (.setCore ..)).trans hto'
    rw [State.core_setCore] at htc
    exact ⟨by rw [htc]; rfl, ho.mem, ho.engines, ho.routers, ho.others,
      fun _ => ⟨ho, by rw [htc]; simp [nextIndex], by rw [htc]; exact hr.active, by rw [htc]; exact hr.noStop⟩,
      by simp only [nextIndex]; omega⟩
  | none =>
    by_cases h4 : pc = 4095
    · subst h4
      have ha : u.advance cd k 4095 none = u.raiseCore cd k [0x03] 4095 := by
        simp [State.advance, hr.active, hr.noStop]
      rw [ha] at hto' htc
      have hs := State.raiseCore_safe u cd k [0x03] 4095
      refine ⟨?_, ?_, ?_, ?_, fun j hj => ?_, by simp only [nextIndex]; omega, fun _ => ?_⟩
      · rw [htc]; exact hs.regs
      · rw [hto'.mem, hs.mem, hu.mem]
      · rw [hto'.engines, hs.engines, hu.engines]
      · rw [hto'.routers, hs.routers, hu.routers]
      · rw [hto'.others j hj, hs.others j hj, hu.others j hj]
      · rw [htc]; exact State.raiseCore_run _ _ _ _ _ (by simp) hr.active
    · have ha : u.advance cd k pc none = u := by simp [State.advance, h4]
      rw [ha] at hto' htc
      have ho : base.OnlyCore t cd k P := hu.trans hto'
      refine ⟨by rw [htc]; rfl, ho.mem, ho.engines, ho.routers, ho.others,
        fun _ => ⟨ho, ?_, by rw [htc]; exact hr.active, by rw [htc]; exact hr.noStop⟩, by simp only [nextIndex]; omega⟩
      rw [htc]
      show (u.core cd k).pc.toNat = _
      rw [hr.pc, BitVec.toNat_ofNat]; simp only [nextIndex]; omega

/-- A core's PC is below 4,096. -/
theorem Core.pc_lt (c : Core) : c.pc.toNat < 4096 := c.pc.isLt

/-- An update of a core that moves neither its PC nor its state, and whose registers depend on its registers only. -/
structure RegUpdate (f : Core → Core) : Prop where
  run : ∀ c, (f c).run = c.run
  stopping : ∀ c, (f c).stopping = c.stopping
  pc : ∀ c, (f c).pc = c.pc
  regs : ∀ c c' : Core, c.regs = c'.regs → (f c).regs = (f c').regs

theorem RegUpdate.id : RegUpdate (fun c => c) := ⟨fun _ => rfl, fun _ => rfl, fun _ => rfl, fun _ _ h => h⟩

theorem Core.regs_ext {c c' : Core} (h : c.regs = c'.regs) :
    c.s = c'.s ∧ c.v = c'.v ∧ c.p = c'.p ∧ c.a = c'.a ∧ c.h = c'.h ∧ c.c = c'.c ∧ c.pq = c'.pq := by
  simpa only [Core.regs, CoreRegs.mk.injEq] using h

theorem Core.sreg_regs {c c' : Core} (h : c.regs = c'.regs) (i : Nat) : c.sreg i = c'.sreg i := by
  simp only [Core.sreg, (Core.regs_ext h).1]

theorem Core.preg_regs {c c' : Core} (h : c.regs = c'.regs) (i : Nat) : c.preg i = c'.preg i := by
  simp only [Core.preg, (Core.regs_ext h).2.2.1]

theorem Core.vreg_regs {c c' : Core} (h : c.regs = c'.regs) (i : Nat) : c.vreg i = c'.vreg i := by
  simp only [Core.vreg, (Core.regs_ext h).2.1]

theorem RegUpdate.setS (i : Nat) {v : Core → Nat} (hv : ∀ c c' : Core, c.regs = c'.regs → v c = v c') :
    RegUpdate (fun c => c.setS i (v c)) := by
  by_cases h : i = 0
  · have e : (fun c : Core => c.setS i (v c)) = (fun c => c) := by funext c; simp [Core.setS, h]
    rw [e]; exact .id
  · refine ⟨fun c => by simp [Core.setS, h], fun c => by simp [Core.setS, h], fun c => by simp [Core.setS, h], ?_⟩
    intro c c' hc
    obtain ⟨h1, h2, h3, h4, h5, h6, h7⟩ := Core.regs_ext hc
    simp only [Core.setS, h, if_false, Core.regs, hv c c' hc, h1, h2, h3, h4, h5, h6, h7]

theorem RegUpdate.setP (i : Nat) {v : Core → Nat} (hv : ∀ c c' : Core, c.regs = c'.regs → v c = v c') :
    RegUpdate (fun c => c.setP i (v c)) := by
  by_cases h : i = 0
  · have e : (fun c : Core => c.setP i (v c)) = (fun c => c) := by funext c; simp [Core.setP, h]
    rw [e]; exact .id
  · refine ⟨fun c => by simp [Core.setP, h], fun c => by simp [Core.setP, h], fun c => by simp [Core.setP, h], ?_⟩
    intro c c' hc
    obtain ⟨h1, h2, h3, h4, h5, h6, h7⟩ := Core.regs_ext hc
    simp only [Core.setP, h, if_false, Core.regs, hv c c' hc, h1, h2, h3, h4, h5, h6, h7]

theorem RegUpdate.setV (i : Nat) {v : Core → Nat} (hv : ∀ c c' : Core, c.regs = c'.regs → v c = v c') :
    RegUpdate (fun c => c.setV i (v c)) := by
  refine ⟨fun _ => rfl, fun _ => rfl, fun _ => rfl, ?_⟩
  intro c c' hc
  obtain ⟨h1, h2, h3, h4, h5, h6, h7⟩ := Core.regs_ext hc
  simp only [Core.setV, Core.regs, hv c c' hc, h1, h2, h3, h4, h5, h6, h7]

/-- What an instruction finds of its core when its effect starts. -/
theorem State.Started.regs {s s1 : State} {cd k : Nat} (h : s.Started s1 cd k) :
    (s1.core cd k).regs = (s.core cd k).regs := by
  obtain ⟨q, b, hc⟩ := h.core
  rw [hc]; rfl

theorem State.Started.ran {s s1 : State} {cd k : Nat} {w : IWord} (h : s.Started s1 cd k) (hi : s.Issues cd k w) :
    (s1.core cd k).Ran (s.core cd k).pc.toNat := by
  obtain ⟨q, b, hc⟩ := h.core
  rw [hc]
  exact ⟨hi.active, hi.noStop, rfl⟩

/-- How an instruction completes, from what its effect does on a state in which the issue has been counted. -/
theorem completes_gen {s base : State} {cd k : Nat} {w : IWord} (h : s.Issues cd k w) {P : Nat → Prop} {r : CoreRegs}
    {tgt : Option Nat} (go : IWord → State → State × Option Nat)
    (hgo : ∀ s1, s.Started s1 cd k → base.OnlyCore (go w s1).1 cd k P ∧ (go w s1).2 = tgt ∧
      ((go w s1).1.core cd k).Ran (s.core cd k).pc.toNat ∧ ((go w s1).1.core cd k).regs = r) :
    ∃ t, instrRow cd k w.op s go = .next t ∧
      base.Completes t cd k r (nextIndex (s.core cd k).pc.toNat tgt) P := by
  obtain ⟨s1, t, hrow, hst, hlog⟩ := instrRow_issues h go
  obtain ⟨h1, h2, h3, h4⟩ := hgo s1 hst
  rw [h2] at hlog
  have := completes_of (Core.pc_lt _) h1 h3 hlog
  rw [h4] at this
  exact ⟨t, hrow, this⟩

/-- The common case: an effect on the core's registers, and perhaps on what lies outside it. -/
theorem completes_core {s base : State} {cd k : Nat} {w : IWord} (h : s.Issues cd k w) {P : Nat → Prop}
    (go : IWord → State → State × Option Nat) {f : Core → Core} (hf : RegUpdate f) (g : State → State)
    (hg : ∀ s1, s.OnlyCore s1 cd k P → base.OnlyCore (g s1) cd k P ∧ (g s1).cores = s1.cores)
    (hgo : ∀ s1, s.Started s1 cd k → go w s1 = ((g s1).onCore cd k f, none)) :
    ∃ t, instrRow cd k w.op s go = .next t ∧
      base.Completes t cd k (f (s.core cd k)).regs ((s.core cd k).pc.toNat + 1) P := by
  refine completes_gen h (tgt := none) go (fun s1 hst => ?_)
  obtain ⟨h1, h2⟩ := hg s1 (hst.only.mono (fun _ h => h.elim))
  have hc : ((g s1).onCore cd k f).core cd k = f (s1.core cd k) := by
    unfold State.onCore; rw [State.core_setCore, State.core_eq h2]
  obtain ⟨r1, r2, r3⟩ := hst.ran h
  rw [hgo s1 hst]
  refine ⟨h1.trans (.setCore ..), rfl, ?_, ?_⟩
  · show (((g s1).onCore cd k f).core cd k).Ran _
    rw [hc]; exact ⟨(hf.run _).trans r1, (hf.stopping _).trans r2, (hf.pc _).trans r3⟩
  · show (((g s1).onCore cd k f).core cd k).regs = _
    rw [hc]; exact hf.regs _ _ hst.regs

/-- An effect on registers only. -/
theorem completes_regs {s : State} {cd k : Nat} {w : IWord} (h : s.Issues cd k w)
    (go : IWord → State → State × Option Nat) {f : Core → Core} (hf : RegUpdate f)
    (hgo : ∀ s1, s.Started s1 cd k → go w s1 = (s1.onCore cd k f, none)) :
    ∃ t, instrRow cd k w.op s go = .next t ∧
      s.Completes t cd k (f (s.core cd k)).regs ((s.core cd k).pc.toNat + 1) :=
  completes_core h go hf (fun s => s) (fun _ h => ⟨h, rfl⟩) hgo

/-- An effect outside the core only, and a branch target. -/
theorem completes_rest {s base : State} {cd k : Nat} {w : IWord} (h : s.Issues cd k w) {P : Nat → Prop}
    {tgt : Option Nat} (go : IWord → State → State × Option Nat)
    (hgo : ∀ s1, s.Started s1 cd k → base.OnlyCore (go w s1).1 cd k P ∧ (go w s1).1.cores = s1.cores ∧
      (go w s1).2 = tgt) :
    ∃ t, instrRow cd k w.op s go = .next t ∧
      base.Completes t cd k (s.core cd k).regs (nextIndex (s.core cd k).pc.toNat tgt) P := by
  refine completes_gen h go (fun s1 hst => ?_)
  obtain ⟨h1, h2, h3⟩ := hgo s1 hst
  exact ⟨h1, h3, by rw [State.core_eq h2]; exact hst.ran h, by rw [State.core_eq h2]; exact hst.regs⟩

end Sys2Proof.Machine
end

