-- ==== Sys2Proof/Laws/Lanes.lean ====
section
/-!
SUPPORT. Elements of a wide register: what replacing one does to each, and what a lane-by-lane instruction writes.
-/

namespace Sys2Proof.Machine

/-- Replacing element `i` splits the number into what lies above, the element, and what lies below. -/
theorem setElem_split (v w i x : Nat) :
    setElem v w i x = v / 2 ^ (w * i) / 2 ^ w * 2 ^ w * 2 ^ (w * i) + x % 2 ^ w * 2 ^ (w * i) + v % 2 ^ (w * i) := by
  unfold setElem elem
  simp only [Nat.shiftRight_eq_div_pow, Nat.shiftLeft_eq]
  have h1 := Nat.div_add_mod v (2 ^ (w * i))
  have h2 := Nat.div_add_mod (v / 2 ^ (w * i)) (2 ^ w)
  generalize 2 ^ (w * i) = P at *
  generalize 2 ^ w = W at *
  generalize v / P = q at *
  generalize q / W = d at *
  generalize q % W = m at *
  generalize v % P = r at *
  subst h2
  subst h1
  have : P * (W * d + m) + r - m * P = d * W * P + r := by
    rw [Nat.mul_add, Nat.mul_comm P m, Nat.add_right_comm, Nat.add_sub_cancel]
    rw [Nat.mul_comm P, Nat.mul_comm W d]
  rw [this]
  omega

theorem elem_setElem_same (v w i x : Nat) : elem (setElem v w i x) w i = x % 2 ^ w := by
  rw [setElem_split]
  unfold elem
  rw [Nat.shiftRight_eq_div_pow]
  have hP : 0 < 2 ^ (w * i) := Nat.two_pow_pos _
  have hr := Nat.mod_lt v hP
  generalize 2 ^ (w * i) = P at *
  rw [← Nat.add_mul, Nat.add_comm, Nat.add_mul_div_right _ _ hP, Nat.div_eq_of_lt hr, Nat.zero_add,
    Nat.add_comm, Nat.add_mul_mod_self_right, Nat.mod_mod]

theorem elem_setElem_other (v w i x : Nat) {j : Nat} (h : j ≠ i) : elem (setElem v w i x) w j = elem v w j := by
  rw [setElem_split]
  unfold elem
  simp only [Nat.shiftRight_eq_div_pow]
  rcases Nat.lt_or_gt_of_ne h with h | h
  · -- below: the number agrees modulo 2^(w i)
    obtain ⟨n, rfl⟩ : ∃ n, i = j + 1 + n := ⟨i - j - 1, by omega⟩
    have e : w * (j + 1 + n) = w * j + (w + w * n) := by simp only [Nat.mul_add, Nat.mul_one]; omega
    have key (y : Nat) : y / 2 ^ (w * j) % 2 ^ w = y % 2 ^ (w * (j + 1 + n)) / 2 ^ (w * j) % 2 ^ w := by
      rw [e, Nat.pow_add, Nat.mod_mul_right_div_self, Nat.pow_add, Nat.mod_mul_right_mod]
    rw [key (_ + _), key v]
    congr 2
    rw [← Nat.add_mul, Nat.add_comm, Nat.add_mul_mod_self_right, Nat.mod_mod]
  · -- above: the number agrees above 2^(w i + w)
    obtain ⟨n, rfl⟩ : ∃ n, j = i + 1 + n := ⟨j - i - 1, by omega⟩
    have e : w * (i + 1 + n) = w * i + w + w * n := by simp only [Nat.mul_add, Nat.mul_one]
    rw [e, Nat.pow_add, ← Nat.div_div_eq_div_mul, ← Nat.div_div_eq_div_mul, Nat.pow_add, ← Nat.div_div_eq_div_mul,
      ← Nat.div_div_eq_div_mul]
    congr 2
    have hP : 0 < 2 ^ (w * i) := Nat.two_pow_pos _
    have hW : 0 < 2 ^ w := Nat.two_pow_pos _
    have hr := Nat.mod_lt v hP
    have hx := Nat.mod_lt x hW
    generalize 2 ^ (w * i) = P at *
    rw [← Nat.add_mul, Nat.add_comm, Nat.add_mul_div_right _ _ hP, Nat.div_eq_of_lt hr, Nat.zero_add, Nat.add_comm,
      Nat.add_mul_div_right _ _ hW, Nat.div_eq_of_lt hx, Nat.zero_add]

/-- What lane-by-lane instructions write: each element whose guard bit is 1 takes its result, every other keeps its
value. -/
theorem laneMap_lanes (n wd : Nat) (pos : Nat → Nat) (guard old : Nat) (f : Nat → Nat × FFlags)
    (inj : ∀ i j, i < n → j < n → pos i = pos j → i = j) :
    Lanes n (8 * wd) pos (fun p => bit guard (wd * p)) old (laneMap n wd pos guard old f).1 (fun i => (f i).1) := by
  induction n with
  | zero => exact ⟨fun i h => absurd h (Nat.not_lt_zero i), fun _ _ => rfl⟩
  | succ n ih =>
    obtain ⟨ih1, ih2⟩ := ih (fun i j hi hj => inj i j (by omega) (by omega))
    have hs : laneMap (n + 1) wd pos guard old f =
        if bit guard (wd * pos n) then
          (setElem (laneMap n wd pos guard old f).1 (8 * wd) (pos n) (f n).1, (laneMap n wd pos guard old f).2.or (f n).2)
        else laneMap n wd pos guard old f := by
      unfold laneMap
      rw [List.range_succ, List.foldl_append]
      rfl
    rw [hs]
    by_cases hb : bit guard (wd * pos n) = true
    · rw [if_pos hb]
      refine ⟨fun i hi hg => ?_, fun p hp => ?_⟩
      · by_cases hin : i = n
        · subst hin; exact elem_setElem_same ..
        · dsimp only
          rw [elem_setElem_other _ _ _ _ (fun e => hin (inj i n hi (by omega) e))]
          exact ih1 i (by omega) hg
      · dsimp only
        have hne : p ≠ pos n := fun e => by
          have := hp n (by omega) e.symm
          rw [e] at this; exact absurd (hb.symm.trans this) (by decide)
        rw [elem_setElem_other _ _ _ _ hne]
        exact ih2 p (fun i hi => hp i (by omega))
    · rw [if_neg hb]
      refine ⟨fun i hi hg => ?_, fun p hp => ih2 p (fun i hi => hp i (by omega))⟩
      by_cases hin : i = n
      · subst hin; exact absurd hg hb
      · exact ih1 i (by omega) hg

end Sys2Proof.Machine
end

