-- ==== Sys2Proof/Laws/PerInstr.lean ====
section
/-!
SUPPORT. A law of every command as syntax: `Instr.wellFormed` shuts out no row of the table, each has a well-formed form.
-/

namespace Sys2Proof.Laws.Occurs

/-- The command's row has a well-formed form. -/
def Statement (i : Instr) : Prop := ∃ j : Instr, j.ctorIdx = i.ctorIdx ∧ j.wellFormed = true

theorem registerWrite (who : Who) (die : Nat) (off : Nat) (width : Nat) (v : Word64) : Statement (.registerWrite who die off width v) :=
  ⟨.registerWrite .bmc 0 0 0 0, rfl, by decide⟩

theorem readClear (who : Who) (die : Nat) (off : Nat) (width : Nat) : Statement (.readClear who die off width) :=
  ⟨.readClear .bmc 0 0 0, rfl, by decide⟩

theorem loadStart (cd : Nat) (k : Nat) (t : Nat) : Statement (.loadStart cd k t) :=
  ⟨.loadStart 0 0 0, rfl, by decide⟩

theorem coreGate (cd : Nat) (k : Nat) : Statement (.coreGate cd k) :=
  ⟨.coreGate 0 0, rfl, by decide⟩

theorem limRamp (cd : Nat) (k : Nat) : Statement (.limRamp cd k) :=
  ⟨.limRamp 0 0, rfl, by decide⟩

theorem enginePass (cd : Nat) (k : Nat) (p : Nat) : Statement (.enginePass cd k p) :=
  ⟨.enginePass 0 0 0, rfl, by decide⟩

theorem rowWrite (cd : Nat) (k : Nat) (p : Nat) (index : Nat) : Statement (.rowWrite cd k p index) :=
  ⟨.rowWrite 0 0 0 0, rfl, by decide⟩

theorem scaleWrite (cd : Nat) (k : Nat) (p : Nat) (index : Nat) : Statement (.scaleWrite cd k p index) :=
  ⟨.scaleWrite 0 0 0 0, rfl, by decide⟩

theorem engWriteDone (cd : Nat) (k : Nat) (p : Nat) (mismatches : Nat) : Statement (.engWriteDone cd k p mismatches) :=
  ⟨.engWriteDone 0 0 0 0, rfl, by decide⟩

theorem acceptanceTest (cd : Nat) (k : Nat) (p : Nat) (t : Nat) (h : Nat) : Statement (.acceptanceTest cd k p t h) :=
  ⟨.acceptanceTest 0 0 0 0 0, rfl, by decide⟩

theorem periodicTest (cd : Nat) (k : Nat) (p : Nat) (t : Nat) (h : Nat) : Statement (.periodicTest cd k p t h) :=
  ⟨.periodicTest 0 0 0 0 0, rfl, by decide⟩

theorem testForce (cd : Nat) (k : Nat) (t : Nat) : Statement (.testForce cd k t) :=
  ⟨.testForce 0 0 0, rfl, by decide⟩

theorem testOverdue (cd : Nat) (k : Nat) (p : Nat) (t : Nat) (h : Nat) : Statement (.testOverdue cd k p t h) :=
  ⟨.testOverdue 0 0 0 0 0, rfl, by decide⟩

theorem testSlot1Check (cd : Nat) (k : Nat) (p : Nat) : Statement (.testSlot1Check cd k p) :=
  ⟨.testSlot1Check 0 0 0, rfl, by decide⟩

theorem testSlot2Check (cd : Nat) (k : Nat) (p : Nat) : Statement (.testSlot2Check cd k p) :=
  ⟨.testSlot2Check 0 0 0, rfl, by decide⟩

theorem scrubRowRead (cd : Nat) (k : Nat) (p : Nat) : Statement (.scrubRowRead cd k p) :=
  ⟨.scrubRowRead 0 0 0, rfl, by decide⟩

theorem engMaplWrite (cd : Nat) (k : Nat) (l : Nat) (en : Bool) (phys : Nat) : Statement (.engMaplWrite cd k l en phys) :=
  ⟨.engMaplWrite 0 0 0 false 0, rfl, by decide⟩

theorem engRetire (cd : Nat) (k : Nat) (p : Nat) : Statement (.engRetire cd k p) :=
  ⟨.engRetire 0 0 0, rfl, by decide⟩

theorem engCodeWrite (cd : Nat) (k : Nat) (p : Nat) (code : Nat) : Statement (.engCodeWrite cd k p code) :=
  ⟨.engCodeWrite 0 0 0 0, rfl, by decide⟩

theorem coreRun (cd : Nat) (k : Nat) : Statement (.coreRun cd k) :=
  ⟨.coreRun 0 0, rfl, by decide⟩

theorem coreStop (cd : Nat) (k : Nat) : Statement (.coreStop cd k) :=
  ⟨.coreStop 0 0, rfl, by decide⟩

theorem coreStopped (cd : Nat) (k : Nat) : Statement (.coreStopped cd k) :=
  ⟨.coreStopped 0 0, rfl, by decide⟩

theorem waitTimeout (cd : Nat) (k : Nat) (h : Nat) : Statement (.waitTimeout cd k h) :=
  ⟨.waitTimeout 0 0 0, rfl, by decide⟩

theorem add (cd : Nat) (k : Nat) : Statement (.add cd k) :=
  ⟨.add 0 0, rfl, by decide⟩

theorem sub (cd : Nat) (k : Nat) : Statement (.sub cd k) :=
  ⟨.sub 0 0, rfl, by decide⟩

theorem and (cd : Nat) (k : Nat) : Statement (.and cd k) :=
  ⟨.and 0 0, rfl, by decide⟩

theorem or (cd : Nat) (k : Nat) : Statement (.or cd k) :=
  ⟨.or 0 0, rfl, by decide⟩

theorem xor (cd : Nat) (k : Nat) : Statement (.xor cd k) :=
  ⟨.xor 0 0, rfl, by decide⟩

theorem shl (cd : Nat) (k : Nat) : Statement (.shl cd k) :=
  ⟨.shl 0 0, rfl, by decide⟩

theorem shr (cd : Nat) (k : Nat) : Statement (.shr cd k) :=
  ⟨.shr 0 0, rfl, by decide⟩

theorem sra (cd : Nat) (k : Nat) : Statement (.sra cd k) :=
  ⟨.sra 0 0, rfl, by decide⟩

theorem mul (cd : Nat) (k : Nat) : Statement (.mul cd k) :=
  ⟨.mul 0 0, rfl, by decide⟩

theorem min (cd : Nat) (k : Nat) : Statement (.min cd k) :=
  ⟨.min 0 0, rfl, by decide⟩

theorem max (cd : Nat) (k : Nat) : Statement (.max cd k) :=
  ⟨.max 0 0, rfl, by decide⟩

theorem addi (cd : Nat) (k : Nat) : Statement (.addi cd k) :=
  ⟨.addi 0 0, rfl, by decide⟩

theorem li (cd : Nat) (k : Nat) : Statement (.li cd k) :=
  ⟨.li 0 0, rfl, by decide⟩

theorem cmp (cd : Nat) (k : Nat) : Statement (.cmp cd k) :=
  ⟨.cmp 0 0, rfl, by decide⟩

theorem cmpi (cd : Nat) (k : Nat) : Statement (.cmpi cd k) :=
  ⟨.cmpi 0 0, rfl, by decide⟩

theorem plog (cd : Nat) (k : Nat) : Statement (.plog cd k) :=
  ⟨.plog 0 0, rfl, by decide⟩

theorem sld (cd : Nat) (k : Nat) : Statement (.sld cd k) :=
  ⟨.sld 0 0, rfl, by decide⟩

theorem sst (cd : Nat) (k : Nat) : Statement (.sst cd k) :=
  ⟨.sst 0 0, rfl, by decide⟩

theorem rdw (cd : Nat) (k : Nat) : Statement (.rdw cd k) :=
  ⟨.rdw 0 0, rfl, by decide⟩

theorem br (cd : Nat) (k : Nat) : Statement (.br cd k) :=
  ⟨.br 0 0, rfl, by decide⟩

theorem jal (cd : Nat) (k : Nat) : Statement (.jal cd k) :=
  ⟨.jal 0 0, rfl, by decide⟩

theorem jr (cd : Nat) (k : Nat) : Statement (.jr cd k) :=
  ⟨.jr 0 0, rfl, by decide⟩

theorem loop (cd : Nat) (k : Nat) : Statement (.loop cd k) :=
  ⟨.loop 0 0, rfl, by decide⟩

theorem halt (cd : Nat) (k : Nat) : Statement (.halt cd k) :=
  ⟨.halt 0 0, rfl, by decide⟩

theorem eld (cd : Nat) (k : Nat) : Statement (.eld cd k) :=
  ⟨.eld 0 0, rfl, by decide⟩

theorem emax (cd : Nat) (k : Nat) : Statement (.emax cd k) :=
  ⟨.emax 0 0, rfl, by decide⟩

theorem pqclr (cd : Nat) (k : Nat) : Statement (.pqclr cd k) :=
  ⟨.pqclr 0 0, rfl, by decide⟩

theorem vfma (cd : Nat) (k : Nat) : Statement (.vfma cd k) :=
  ⟨.vfma 0 0, rfl, by decide⟩

theorem vadd (cd : Nat) (k : Nat) : Statement (.vadd cd k) :=
  ⟨.vadd 0 0, rfl, by decide⟩

theorem vsub (cd : Nat) (k : Nat) : Statement (.vsub cd k) :=
  ⟨.vsub 0 0, rfl, by decide⟩

theorem vmul (cd : Nat) (k : Nat) : Statement (.vmul cd k) :=
  ⟨.vmul 0 0, rfl, by decide⟩

theorem vmin (cd : Nat) (k : Nat) : Statement (.vmin cd k) :=
  ⟨.vmin 0 0, rfl, by decide⟩

theorem vmax (cd : Nat) (k : Nat) : Statement (.vmax cd k) :=
  ⟨.vmax 0 0, rfl, by decide⟩

theorem viadd (cd : Nat) (k : Nat) : Statement (.viadd cd k) :=
  ⟨.viadd 0 0, rfl, by decide⟩

theorem visub (cd : Nat) (k : Nat) : Statement (.visub cd k) :=
  ⟨.visub 0 0, rfl, by decide⟩

theorem vand (cd : Nat) (k : Nat) : Statement (.vand cd k) :=
  ⟨.vand 0 0, rfl, by decide⟩

theorem vor (cd : Nat) (k : Nat) : Statement (.vor cd k) :=
  ⟨.vor 0 0, rfl, by decide⟩

theorem vxor (cd : Nat) (k : Nat) : Statement (.vxor cd k) :=
  ⟨.vxor 0 0, rfl, by decide⟩

theorem vshl (cd : Nat) (k : Nat) : Statement (.vshl cd k) :=
  ⟨.vshl 0 0, rfl, by decide⟩

theorem vshr (cd : Nat) (k : Nat) : Statement (.vshr cd k) :=
  ⟨.vshr 0 0, rfl, by decide⟩

theorem vsra (cd : Nat) (k : Nat) : Statement (.vsra cd k) :=
  ⟨.vsra 0 0, rfl, by decide⟩

theorem vcmp (cd : Nat) (k : Nat) : Statement (.vcmp cd k) :=
  ⟨.vcmp 0 0, rfl, by decide⟩

theorem vsel (cd : Nat) (k : Nat) : Statement (.vsel cd k) :=
  ⟨.vsel 0 0, rfl, by decide⟩

theorem vdot4 (cd : Nat) (k : Nat) : Statement (.vdot4 cd k) :=
  ⟨.vdot4 0 0, rfl, by decide⟩

theorem vcvt (cd : Nat) (k : Nat) : Statement (.vcvt cd k) :=
  ⟨.vcvt 0 0, rfl, by decide⟩

theorem vswc (cd : Nat) (k : Nat) : Statement (.vswc cd k) :=
  ⟨.vswc 0 0, rfl, by decide⟩

theorem vpart (cd : Nat) (k : Nat) : Statement (.vpart cd k) :=
  ⟨.vpart 0 0, rfl, by decide⟩

theorem vquant (cd : Nat) (k : Nat) : Statement (.vquant cd k) :=
  ⟨.vquant 0 0, rfl, by decide⟩

theorem vred (cd : Nat) (k : Nat) : Statement (.vred cd k) :=
  ⟨.vred 0 0, rfl, by decide⟩

theorem vtran (cd : Nat) (k : Nat) : Statement (.vtran cd k) :=
  ⟨.vtran 0 0, rfl, by decide⟩

theorem vdiv (cd : Nat) (k : Nat) : Statement (.vdiv cd k) :=
  ⟨.vdiv 0 0, rfl, by decide⟩

theorem vsqrt (cd : Nat) (k : Nat) : Statement (.vsqrt cd k) :=
  ⟨.vsqrt 0 0, rfl, by decide⟩

theorem vtopk (cd : Nat) (k : Nat) : Statement (.vtopk cd k) :=
  ⟨.vtopk 0 0, rfl, by decide⟩

theorem gate (cd : Nat) (k : Nat) : Statement (.gate cd k) :=
  ⟨.gate 0 0, rfl, by decide⟩

theorem vld (cd : Nat) (k : Nat) : Statement (.vld cd k) :=
  ⟨.vld 0 0, rfl, by decide⟩

theorem vst (cd : Nat) (k : Nat) : Statement (.vst cd k) :=
  ⟨.vst 0 0, rfl, by decide⟩

theorem dmov (cd : Nat) (k : Nat) : Statement (.dmov cd k) :=
  ⟨.dmov 0 0, rfl, by decide⟩

theorem send (cd : Nat) (k : Nat) : Statement (.send cd k) :=
  ⟨.send 0 0, rfl, by decide⟩

theorem sendDone (cd : Nat) (k : Nat) : Statement (.sendDone cd k) :=
  ⟨.sendDone 0 0, rfl, by decide⟩

theorem mcast (cd : Nat) (k : Nat) : Statement (.mcast cd k) :=
  ⟨.mcast 0 0, rfl, by decide⟩

theorem mcastx (cd : Nat) (k : Nat) : Statement (.mcastx cd k) :=
  ⟨.mcastx 0 0, rfl, by decide⟩

theorem grant (cd : Nat) (k : Nat) : Statement (.grant cd k) :=
  ⟨.grant 0 0, rfl, by decide⟩

theorem waita (cd : Nat) (k : Nat) : Statement (.waita cd k) :=
  ⟨.waita 0 0, rfl, by decide⟩

theorem waitc (cd : Nat) (k : Nat) : Statement (.waitc cd k) :=
  ⟨.waitc 0 0, rfl, by decide⟩

theorem waitw (cd : Nat) (k : Nat) : Statement (.waitw cd k) :=
  ⟨.waitw 0 0, rfl, by decide⟩

theorem cset (cd : Nat) (k : Nat) : Statement (.cset cd k) :=
  ⟨.cset 0 0, rfl, by decide⟩

theorem waitl (cd : Nat) (k : Nat) : Statement (.waitl cd k) :=
  ⟨.waitl 0 0, rfl, by decide⟩

theorem tmark (cd : Nat) (k : Nat) : Statement (.tmark cd k) :=
  ⟨.tmark 0 0, rfl, by decide⟩

theorem multicastFlit (cd : Nat) (c : Nat) (port : Nat) (take : FlitTake) : Statement (.multicastFlit cd c port take) :=
  ⟨.multicastFlit 0 0 0 ⟨0, .ok⟩, rfl, by decide⟩

theorem creditFlit (cd : Nat) (c : Nat) (port : Nat) (take : FlitTake) : Statement (.creditFlit cd c port take) :=
  ⟨.creditFlit 0 0 0 ⟨0, .ok⟩, rfl, by decide⟩

theorem reductionFlit (cd : Nat) (c : Nat) (port : Nat) (err : LinkErr) : Statement (.reductionFlit cd c port err) :=
  ⟨.reductionFlit 0 0 0 .ok, rfl, by decide⟩

theorem nocRgtWrite (cd : Nat) (c : Nat) (tag : Nat) (w : Nat) (v : Word64) : Statement (.nocRgtWrite cd c tag w v) :=
  ⟨.nocRgtWrite 0 0 0 0 0, rfl, by decide⟩

theorem nocMgtWrite (cd : Nat) (c : Nat) (g : Nat) (v : Word64) : Statement (.nocMgtWrite cd c g v) :=
  ⟨.nocMgtWrite 0 0 0 0, rfl, by decide⟩

theorem nocCrtWrite (cd : Nat) (c : Nat) (r : Nat) (v : Word64) : Statement (.nocCrtWrite cd c r v) :=
  ⟨.nocCrtWrite 0 0 0 0, rfl, by decide⟩

theorem nocDiscard (cd : Nat) (c : Nat) (tag : Nat) : Statement (.nocDiscard cd c tag) :=
  ⟨.nocDiscard 0 0 0, rfl, by decide⟩

theorem nocLock (cd : Nat) (c : Nat) : Statement (.nocLock cd c) :=
  ⟨.nocLock 0 0, rfl, by decide⟩

theorem attend (md : Nat) (n : Nat) (units : List Nat) (cc : Nat) : Statement (.attend md n units cc) :=
  ⟨.attend 32 0 [] 0, rfl, by decide⟩

theorem commit (md : Nat) (n : Nat) : Statement (.commit md n) :=
  ⟨.commit 32 0, rfl, by decide⟩

theorem rqOpen (md : Nat) (n : Nat) : Statement (.rqOpen md n) :=
  ⟨.rqOpen 32 0, rfl, by decide⟩

theorem rqRelease (md : Nat) (n : Nat) : Statement (.rqRelease md n) :=
  ⟨.rqRelease 32 0, rfl, by decide⟩

theorem gather (md : Nat) (n : Nat) : Statement (.gather md n) :=
  ⟨.gather 32 0, rfl, by decide⟩

theorem hbmScrubBurst (md : Nat) (st : Nat) : Statement (.hbmScrubBurst md st) :=
  ⟨.hbmScrubBurst 32 0, rfl, by decide⟩

theorem mdaLock (md : Nat) : Statement (.mdaLock md) :=
  ⟨.mdaLock 32, rfl, by decide⟩

theorem ltabWrite (md : Nat) (L : Nat) (word : Nat) (ws : List Word64) : Statement (.ltabWrite md L word ws) :=
  ⟨.ltabWrite 32 0 0 [], rfl, by decide⟩

theorem submit (fn : Nat) (q : Nat) : Statement (.submit fn q) :=
  ⟨.submit 0 0, rfl, by decide⟩

theorem cp2Cancel (fn : Nat) (q : Nat) : Statement (.cp2Cancel fn q) :=
  ⟨.cp2Cancel 0 0, rfl, by decide⟩

theorem slotCancel (who : Who) (slot : Nat) : Statement (.slotCancel who slot) :=
  ⟨.slotCancel .bmc 0, rfl, by decide⟩

theorem draft (fn : Nat) (q : Nat) : Statement (.draft fn q) :=
  ⟨.draft 0 0, rfl, by decide⟩

theorem draftWindowWrite (who : Who) (slot : Nat) (off : Nat) (bs : List Byte) : Statement (.draftWindowWrite who slot off bs) :=
  ⟨.draftWindowWrite .bmc 0 0 [], rfl, by decide⟩

theorem cp2Ack (fn : Nat) (q : Nat) : Statement (.cp2Ack fn q) :=
  ⟨.cp2Ack 0 0, rfl, by decide⟩

theorem slotAck (who : Who) (slot : Nat) (n : Nat) : Statement (.slotAck who slot n) :=
  ⟨.slotAck .bmc 0 0, rfl, by decide⟩

theorem cmdAckdb (fn : Nat) (v : Word64) : Statement (.cmdAckdb fn v) :=
  ⟨.cmdAckdb 0 0, rfl, by decide⟩

theorem completionRecord : Statement (.completionRecord) :=
  ⟨.completionRecord, rfl, by decide⟩

theorem injection : Statement (.injection) :=
  ⟨.injection, rfl, by decide⟩

theorem slotRelease (slot : Nat) : Statement (.slotRelease slot) :=
  ⟨.slotRelease 0, rfl, by decide⟩

theorem foragerDraw : Statement (.foragerDraw) :=
  ⟨.foragerDraw, rfl, by decide⟩

theorem tokenCommit : Statement (.tokenCommit) :=
  ⟨.tokenCommit, rfl, by decide⟩

theorem ttftDeadline (slot : Nat) (h : Nat) : Statement (.ttftDeadline slot h) :=
  ⟨.ttftDeadline 0 0, rfl, by decide⟩

theorem costWrite (which : Nat) (v : Word64) : Statement (.costWrite which v) :=
  ⟨.costWrite 0 0, rfl, by decide⟩

theorem quotaWrite (ctx : Nat) (which : Nat) (v : Word64) : Statement (.quotaWrite ctx which v) :=
  ⟨.quotaWrite 0 0 0, rfl, by decide⟩

theorem housekeepingRound (h : Nat) (stale : Nat) (rails : List Nat) (hbm : List Int) : Statement (.housekeepingRound h stale rails hbm) :=
  ⟨.housekeepingRound 0 0 (List.replicate 120 0) (List.replicate 8 0), rfl, by decide⟩

theorem qhWindowEnd : Statement (.qhWindowEnd) :=
  ⟨.qhWindowEnd, rfl, by decide⟩

theorem qhClr : Statement (.qhClr) :=
  ⟨.qhClr, rfl, by decide⟩

theorem rd (die : Nat) (n : Nat) : Statement (.rd die n) :=
  ⟨.rd 0 0, rfl, by decide⟩

theorem wr (die : Nat) (n : Nat) : Statement (.wr die n) :=
  ⟨.wr 0 0, rfl, by decide⟩

theorem cpl (die : Nat) (n : Nat) : Statement (.cpl die n) :=
  ⟨.cpl 0 0, rfl, by decide⟩

theorem ack (die : Nat) (n : Nat) : Statement (.ack die n) :=
  ⟨.ack 0 0, rfl, by decide⟩

theorem mcv (die : Nat) (n : Nat) : Statement (.mcv die n) :=
  ⟨.mcv 0 0, rfl, by decide⟩

theorem mcc (die : Nat) (n : Nat) : Statement (.mcc die n) :=
  ⟨.mcc 0 0, rfl, by decide⟩

theorem dieLinkFlit (die : Nat) (l : Nat) (noise : BitVec 544) : Statement (.dieLinkFlit die l noise) :=
  ⟨.dieLinkFlit 0 0 0, rfl, by decide⟩

theorem flitAck (die : Nat) (l : Nat) : Statement (.flitAck die l) :=
  ⟨.flitAck 0 0, rfl, by decide⟩

theorem flitNak (die : Nat) (l : Nat) : Statement (.flitNak die l) :=
  ⟨.flitNak 0 0, rfl, by decide⟩

theorem creditReturn (die : Nat) (l : Nat) (vc : Nat) (h : Nat) : Statement (.creditReturn die l vc h) :=
  ⟨.creditReturn 0 0 0 0, rfl, by decide⟩

theorem abort (die : Nat) (l : Nat) : Statement (.abort die l) :=
  ⟨.abort 0 0, rfl, by decide⟩

theorem ackDue (die : Nat) (l : Nat) : Statement (.ackDue die l) :=
  ⟨.ackDue 0 0, rfl, by decide⟩

theorem linkTrainingDone (die : Nat) (l : Nat) (low : Bool) (high : Bool) : Statement (.linkTrainingDone die l low high) :=
  ⟨.linkTrainingDone 0 0 false false, rfl, by decide⟩

theorem ilpFlit (die : Nat) (p : Nat) (h : Nat) (first align last : List Nat) (flit : BitVec 2048) (ph : Nat) (steps : Nat)
    (ph3 : Nat) : Statement (.ilpFlit die p h first align last flit ph steps ph3) :=
  ⟨.ilpFlit 36 0 0 [] [] [] 0 0 0 0, rfl, by decide⟩

theorem syncReq (die : Nat) (p : Nat) (seq : Nat) (ph2 : Nat) (steps : Nat) (ph3 : Nat) : Statement (.syncReq die p seq ph2 steps ph3) :=
  ⟨.syncReq 36 0 0 0 0 0, rfl, by decide⟩

theorem syncRsp (die : Nat) (p : Nat) (seq : Nat) (locked : Bool) (master : Bool) (v2 : Nat) (ph2 : Nat) (v3 : Nat) (ph3 : Nat) (ph4 : Nat) : Statement (.syncRsp die p seq locked master v2 ph2 v3 ph3 ph4) :=
  ⟨.syncRsp 36 0 0 false false 0 0 0 0 0, rfl, by decide⟩

theorem mac (die : Nat) (p : Nat) (slot : Nat) (win : Nat) (tag : BitVec 128) : Statement (.mac die p slot win tag) :=
  ⟨.mac 36 0 0 0 0, rfl, by decide⟩

theorem macResend (die : Nat) (p : Nat) : Statement (.macResend die p) :=
  ⟨.macResend 36 0, rfl, by decide⟩

theorem portLaneLoss (die : Nat) (p : Nat) : Statement (.portLaneLoss die p) :=
  ⟨.portLaneLoss 36 0, rfl, by decide⟩

theorem portTrainingDone (die : Nat) (p : Nat) (peer : Nat) (peerPort : Nat) (nonce : BitVec 128) : Statement (.portTrainingDone die p peer peerPort nonce) :=
  ⟨.portTrainingDone 36 0 0 0 0, rfl, by decide⟩

theorem lnkPcfgEn (die : Nat) (p : Nat) (en : Bool) : Statement (.lnkPcfgEn die p en) :=
  ⟨.lnkPcfgEn 36 0 false, rfl, by decide⟩

theorem requestTimeout (die : Nat) (unit : Nat) (tag : Nat) (h : Nat) : Statement (.requestTimeout die unit tag h) :=
  ⟨.requestTimeout 0 0 0 0, rfl, by decide⟩

theorem quarantineExpiry (die : Nat) (unit : Nat) (tag : Nat) (h : Nat) : Statement (.quarantineExpiry die unit tag h) :=
  ⟨.quarantineExpiry 0 0 0 0, rfl, by decide⟩

theorem linkStall (die : Nat) (l : Nat) (h : Nat) : Statement (.linkStall die l h) :=
  ⟨.linkStall 0 0 0, rfl, by decide⟩

theorem pfabLock (die : Nat) : Statement (.pfabLock die) :=
  ⟨.pfabLock 0, rfl, by decide⟩

theorem goldRecordWrite (md : Nat) (set : Nat) (r : Nat) (b : Nat) (bs : List Byte) : Statement (.goldRecordWrite md set r b bs) :=
  ⟨.goldRecordWrite 32 0 0 0 [], rfl, by decide⟩

theorem loaderWrite (n : Nat) : Statement (.loaderWrite n) :=
  ⟨.loaderWrite 0, rfl, by decide⟩

theorem loaderReissue (n : Nat) : Statement (.loaderReissue n) :=
  ⟨.loaderReissue 0, rfl, by decide⟩

theorem goldCopy (md : Nat) (v : Word64) : Statement (.goldCopy md v) :=
  ⟨.goldCopy 32 0, rfl, by decide⟩

theorem goldClear (md : Request) (v : Word64) : Statement (.goldClear md v) :=
  ⟨.goldClear ⟨32, false⟩ 0, rfl, by decide⟩

theorem goldClearDone (md : Nat) : Statement (.goldClearDone md) :=
  ⟨.goldClearDone 32, rfl, by decide⟩

theorem sealSet (set : Request) : Statement (.sealSet set) :=
  ⟨.sealSet ⟨0, false⟩, rfl, by decide⟩

theorem sealDone : Statement (.sealDone) :=
  ⟨.sealDone, rfl, by decide⟩

theorem wgtHdrWrite (set : Nat) (i : Nat) (v : Word64) : Statement (.wgtHdrWrite set i v) :=
  ⟨.wgtHdrWrite 0 0 0, rfl, by decide⟩

theorem switchArm : Statement (.switchArm) :=
  ⟨.switchArm, rfl, by decide⟩

theorem switchDrained : Statement (.switchDrained) :=
  ⟨.switchDrained, rfl, by decide⟩

theorem switchGo : Statement (.switchGo) :=
  ⟨.switchGo, rfl, by decide⟩

theorem switchAbort : Statement (.switchAbort) :=
  ⟨.switchAbort, rfl, by decide⟩

theorem switchStart : Statement (.switchStart) :=
  ⟨.switchStart, rfl, by decide⟩

theorem switchCoresStopped : Statement (.switchCoresStopped) :=
  ⟨.switchCoresStopped, rfl, by decide⟩

theorem switchFillDone : Statement (.switchFillDone) :=
  ⟨.switchFillDone, rfl, by decide⟩

theorem goldRepair (md : Request) : Statement (.goldRepair md) :=
  ⟨.goldRepair ⟨32, false⟩, rfl, by decide⟩

theorem goldRehashDone (side : Nat) : Statement (.goldRehashDone side) :=
  ⟨.goldRehashDone 0, rfl, by decide⟩

theorem sqFetch (fn : Nat) (q : Nat) : Statement (.sqFetch fn q) :=
  ⟨.sqFetch 0 0, rfl, by decide⟩

theorem cmdSqtdb (fn : Nat) (q : Nat) (v : Word64) : Statement (.cmdSqtdb fn q v) :=
  ⟨.cmdSqtdb 0 0 0, rfl, by decide⟩

theorem cmdCqhdb (fn : Nat) (q : Nat) (v : Word64) : Statement (.cmdCqhdb fn q v) :=
  ⟨.cmdCqhdb 0 0 0, rfl, by decide⟩

theorem queueEnable (fn : Nat) (q : Nat) (v : Word64) : Statement (.queueEnable fn q v) :=
  ⟨.queueEnable 0 0 0, rfl, by decide⟩

theorem queueDisable (fn : Nat) (q : Nat) (v : Word64) : Statement (.queueDisable fn q v) :=
  ⟨.queueDisable 0 0 0, rfl, by decide⟩

theorem regRead (fn : Nat) (q : Nat) : Statement (.regRead fn q) :=
  ⟨.regRead 0 0, rfl, by decide⟩

theorem regWrite (fn : Nat) (q : Nat) : Statement (.regWrite fn q) :=
  ⟨.regWrite 0 0, rfl, by decide⟩

theorem memWrite (fn : Nat) (q : Nat) : Statement (.memWrite fn q) :=
  ⟨.memWrite 0 0, rfl, by decide⟩

theorem memRead (fn : Nat) (q : Nat) : Statement (.memRead fn q) :=
  ⟨.memRead 0 0, rfl, by decide⟩

theorem progStage (fn : Nat) (q : Nat) : Statement (.progStage fn q) :=
  ⟨.progStage 0 0, rfl, by decide⟩

theorem stageHashDone : Statement (.stageHashDone) :=
  ⟨.stageHashDone, rfl, by decide⟩

theorem progUnstage (fn : Nat) (q : Nat) : Statement (.progUnstage fn q) :=
  ⟨.progUnstage 0 0, rfl, by decide⟩

theorem eventWait (fn : Nat) (q : Nat) : Statement (.eventWait fn q) :=
  ⟨.eventWait 0 0, rfl, by decide⟩

theorem nop (fn : Nat) (q : Nat) : Statement (.nop fn q) :=
  ⟨.nop 0 0, rfl, by decide⟩

theorem gen (fn : Nat) (q : Nat) : Statement (.gen fn q) :=
  ⟨.gen 0 0, rfl, by decide⟩

theorem cp1Abort (fn : Nat) (q : Nat) : Statement (.cp1Abort fn q) :=
  ⟨.cp1Abort 0 0, rfl, by decide⟩

theorem rdreg (fn : Nat) (q : Nat) : Statement (.rdreg fn q) :=
  ⟨.rdreg 0 0, rfl, by decide⟩

theorem wrreg (fn : Nat) (q : Nat) : Statement (.wrreg fn q) :=
  ⟨.wrreg 0 0, rfl, by decide⟩

theorem cp1Nop (fn : Nat) (q : Nat) : Statement (.cp1Nop fn q) :=
  ⟨.cp1Nop 0 0, rfl, by decide⟩

theorem semTake (n : Nat) (whos : List Who) : Statement (.semTake n whos) :=
  ⟨.semTake 0 [], rfl, by decide⟩

theorem semGive (who : Who) (n : Nat) : Statement (.semGive who n) :=
  ⟨.semGive .bmc 0, rfl, by decide⟩

theorem semForce (who : Who) (n : Nat) : Statement (.semForce who n) :=
  ⟨.semForce .bmc 0, rfl, by decide⟩

theorem apertureAccess (port : Nat) (n : Nat) (a : Nat) (tag : Nat) (len : Nat) (w : Option (List Byte)) (ide : Option Nat) : Statement (.apertureAccess port n a tag len w ide) :=
  ⟨.apertureAccess 0 0 0 0 0 none none, rfl, by decide⟩

theorem hostReadCompletion (port : Nat) (tag : Nat) (ok : Bool) (bs : List Byte) : Statement (.hostReadCompletion port tag ok bs) :=
  ⟨.hostReadCompletion 0 0 false [], rfl, by decide⟩

theorem hostReadTimeout (port : Nat) (tag : Nat) (h : Nat) : Statement (.hostReadTimeout port tag h) :=
  ⟨.hostReadTimeout 0 0 0, rfl, by decide⟩

theorem hostTagRelease (port : Nat) (tag : Nat) (h : Nat) : Statement (.hostTagRelease port tag h) :=
  ⟨.hostTagRelease 0 0 0, rfl, by decide⟩

theorem functionLevelReset (fn : Nat) : Statement (.functionLevelReset fn) :=
  ⟨.functionLevelReset 0, rfl, by decide⟩

theorem perstAssert (port : Nat) : Statement (.perstAssert port) :=
  ⟨.perstAssert 0, rfl, by decide⟩

theorem perstRelease (port : Nat) : Statement (.perstRelease port) :=
  ⟨.perstRelease 0, rfl, by decide⟩

theorem getVersion (port : Nat) : Statement (.getVersion port) :=
  ⟨.getVersion 0, rfl, by decide⟩

theorem getCapabilities (port : Nat) : Statement (.getCapabilities port) :=
  ⟨.getCapabilities 0, rfl, by decide⟩

theorem negotiateAlgorithms (port : Nat) : Statement (.negotiateAlgorithms port) :=
  ⟨.negotiateAlgorithms 0, rfl, by decide⟩

theorem getDigests (port : Nat) : Statement (.getDigests port) :=
  ⟨.getDigests 0, rfl, by decide⟩

theorem getCertificate (port : Nat) (slot : Nat) (off : Nat) (n : Nat) : Statement (.getCertificate port slot off n) :=
  ⟨.getCertificate 0 0 0 0, rfl, by decide⟩

theorem challenge (port : Nat) (slot : Nat) : Statement (.challenge port slot) :=
  ⟨.challenge 0 0, rfl, by decide⟩

theorem getMeasurements (port : Nat) (index : Nat) : Statement (.getMeasurements port index) :=
  ⟨.getMeasurements 0 0, rfl, by decide⟩

theorem keyExchange (port : Nat) : Statement (.keyExchange port) :=
  ⟨.keyExchange 0, rfl, by decide⟩

theorem finish (port : Nat) (id : Nat) (verified : Bool) : Statement (.finish port id verified) :=
  ⟨.finish 0 0 false, rfl, by decide⟩

theorem heartbeat (port : Nat) (id : Nat) : Statement (.heartbeat port id) :=
  ⟨.heartbeat 0 0, rfl, by decide⟩

theorem keyUpdate (port : Nat) (id : Nat) : Statement (.keyUpdate port id) :=
  ⟨.keyUpdate 0 0, rfl, by decide⟩

theorem endSession (port : Nat) (id : Nat) : Statement (.endSession port id) :=
  ⟨.endSession 0 0, rfl, by decide⟩

theorem vendorDefinedRequest (port : Nat) (id : Nat) : Statement (.vendorDefinedRequest port id) :=
  ⟨.vendorDefinedRequest 0 0, rfl, by decide⟩

theorem setLinkKey (port : Nat) (id : Nat) (slot : Nat) (key : List Byte) : Statement (.setLinkKey port id slot key) :=
  ⟨.setLinkKey 0 0 0 [], rfl, by decide⟩

theorem keyChange (die : Nat) (p : Nat) : Statement (.keyChange die p) :=
  ⟨.keyChange 36 0, rfl, by decide⟩

theorem svnCommit : Statement (.svnCommit) :=
  ⟨.svnCommit, rfl, by decide⟩

theorem debugUnlock : Statement (.debugUnlock) :=
  ⟨.debugUnlock, rfl, by decide⟩

theorem unlockDone : Statement (.unlockDone) :=
  ⟨.unlockDone, rfl, by decide⟩

theorem pllLoss (die : Nat) : Statement (.pllLoss die) :=
  ⟨.pllLoss 0, rfl, by decide⟩

theorem refLoss : Statement (.refLoss) :=
  ⟨.refLoss, rfl, by decide⟩

theorem waggleStep (die : Nat) (cc : Nat) : Statement (.waggleStep die cc) :=
  ⟨.waggleStep 0 0, rfl, by decide⟩

theorem waggleStart (die : Nat) (lead : Nat) : Statement (.waggleStart die lead) :=
  ⟨.waggleStart 0 0, rfl, by decide⟩

theorem waggleAdjust (die : Nat) : Statement (.waggleAdjust die) :=
  ⟨.waggleAdjust 0, rfl, by decide⟩

theorem syncReqDue (alt : Bool) (ph : Nat) : Statement (.syncReqDue alt ph) :=
  ⟨.syncReqDue false 0, rfl, by decide⟩

theorem masterTimeout (h : Nat) : Statement (.masterTimeout h) :=
  ⟨.masterTimeout 0, rfl, by decide⟩

theorem syncHoldover : Statement (.syncHoldover) :=
  ⟨.syncHoldover, rfl, by decide⟩

theorem wagCapture (die : Nat) : Statement (.wagCapture die) :=
  ⟨.wagCapture 0, rfl, by decide⟩

theorem pkgSyncEdge (h : Nat) (high : Nat) : Statement (.pkgSyncEdge h high) :=
  ⟨.pkgSyncEdge 0 0, rfl, by decide⟩

theorem governorStep (die : Nat) (h : Nat) (w : Nat) (f : Nat) (pin : Nat) : Statement (.governorStep die h w f pin) :=
  ⟨.governorStep 0 0 0 0 0, rfl, by decide⟩

theorem thermalSample (die : Nat) (h : Nat) (ts : List (Option Int)) : Statement (.thermalSample die h ts) :=
  ⟨.thermalSample 0 0 (List.replicate 8 none), rfl, by decide⟩

theorem throttleInChange (on : Bool) (h : Nat) : Statement (.throttleInChange on h) :=
  ⟨.throttleInChange false 0, rfl, by decide⟩

theorem thermalTrip (dies : Nat) : Statement (.thermalTrip dies) :=
  ⟨.thermalTrip 0, rfl, by decide⟩

theorem inputUndervoltage : Statement (.inputUndervoltage) :=
  ⟨.inputUndervoltage, rfl, by decide⟩

theorem inputOvervoltage : Statement (.inputOvervoltage) :=
  ⟨.inputOvervoltage, rfl, by decide⟩

theorem adcSlot (kd : Nat) (conv : Nat) (h : Nat) (raw : Int) : Statement (.adcSlot kd conv h raw) :=
  ⟨.adcSlot 38 0 0 0, rfl, by decide⟩

theorem urgentConversion (kd : Nat) (v : Word64) : Statement (.urgentConversion kd v) :=
  ⟨.urgentConversion 38 0, rfl, by decide⟩

theorem calGo (all : Bool) (die : Nat) : Statement (.calGo all die) :=
  ⟨.calGo false 0, rfl, by decide⟩

theorem trimRampStep (die : Nat) (item : Nat) : Statement (.trimRampStep die item) :=
  ⟨.trimRampStep 0 1, rfl, by decide⟩

theorem calSave : Statement (.calSave) :=
  ⟨.calSave, rfl, by decide⟩

theorem calSaveDone (ok : Bool) : Statement (.calSaveDone ok) :=
  ⟨.calSaveDone false, rfl, by decide⟩

theorem calRestore : Statement (.calRestore) :=
  ⟨.calRestore, rfl, by decide⟩

theorem faultRecovery (die : Nat) : Statement (.faultRecovery die) :=
  ⟨.faultRecovery 0, rfl, by decide⟩

theorem refill (cd : Nat) (md : Nat) (v : Word64) : Statement (.refill cd md v) :=
  ⟨.refill 0 32 0, rfl, by decide⟩

theorem refillRun (md : Nat) : Statement (.refillRun md) :=
  ⟨.refillRun 32, rfl, by decide⟩

theorem stepRelease (die : Nat) (slot : Nat) (rpkg : Nat) (rdie : Nat) : Statement (.stepRelease die slot rpkg rdie) :=
  ⟨.stepRelease 0 0 0 0, rfl, by decide⟩

theorem resendRequest (die : Nat) (rpkg : Nat) (rdie : Nat) (group : Nat) (skip : Nat) : Statement (.resendRequest die rpkg rdie group skip) :=
  ⟨.resendRequest 0 0 0 0 0, rfl, by decide⟩

theorem dieReset (die : Nat) : Statement (.dieReset die) :=
  ⟨.dieReset 0, rfl, by decide⟩

theorem kdHeartbeat (kd : Nat) (sent : Bool) : Statement (.kdHeartbeat kd sent) :=
  ⟨.kdHeartbeat 38 false, rfl, by decide⟩

theorem controlDieTakeover (kd : Nat) : Statement (.controlDieTakeover kd) :=
  ⟨.controlDieTakeover 38, rfl, by decide⟩

theorem rasForce (die : Nat) : Statement (.rasForce die) :=
  ⟨.rasForce 0, rfl, by decide⟩

theorem vinRise (h : Nat) (owned : Bool) (encrypt : Bool) (pkg : Nat) (tables : List (Nat × Nat × Word64)) (stfail : Nat) : Statement (.vinRise h owned encrypt pkg tables stfail) :=
  ⟨.vinRise 0 false false 0 [] 0, rfl, by decide⟩

theorem vinLoss (h : Nat) : Statement (.vinLoss h) :=
  ⟨.vinLoss 0, rfl, by decide⟩

theorem pwrokAssert (h : Nat) (owned : Bool) (encrypt : Bool) (pkg : Nat) (tables : List (Nat × Nat × Word64)) (stfail : Nat) : Statement (.pwrokAssert h owned encrypt pkg tables stfail) :=
  ⟨.pwrokAssert 0 false false 0 [] 0, rfl, by decide⟩

theorem pwrokDeassert (h : Nat) : Statement (.pwrokDeassert h) :=
  ⟨.pwrokDeassert 0, rfl, by decide⟩

theorem rstNAssert (h : Nat) : Statement (.rstNAssert h) :=
  ⟨.rstNAssert 0, rfl, by decide⟩

theorem rstNRelease (h : Nat) (owned : Bool) (encrypt : Bool) (pkg : Nat) (tables : List (Nat × Nat × Word64)) (stfail : Nat) : Statement (.rstNRelease h owned encrypt pkg tables stfail) :=
  ⟨.rstNRelease 0 false false 0 [] 0, rfl, by decide⟩

theorem rstLong (h : Nat) : Statement (.rstLong h) :=
  ⟨.rstLong 0, rfl, by decide⟩

theorem pwrResetWarm (who : Who) : Statement (.pwrResetWarm who) :=
  ⟨.pwrResetWarm .bmc, rfl, by decide⟩

theorem warmRestart (h : Nat) (stfail : Nat) : Statement (.warmRestart h stfail) :=
  ⟨.warmRestart 0 0, rfl, by decide⟩

theorem retirementRecordWrite (ok : Bool) : Statement (.retirementRecordWrite ok) :=
  ⟨.retirementRecordWrite false, rfl, by decide⟩

theorem pinSbcfgWrite (kd : Nat) (i : Nat) (v : Word64) : Statement (.pinSbcfgWrite kd i v) :=
  ⟨.pinSbcfgWrite 38 0 0, rfl, by decide⟩

theorem sidebandInput (kd : Nat) (i : Nat) (h : Nat) (level : Bool) : Statement (.sidebandInput kd i h level) :=
  ⟨.sidebandInput 38 0 0 false, rfl, by decide⟩

theorem tachEdge (kd : Nat) (i : Nat) (h : Nat) : Statement (.tachEdge kd i h) :=
  ⟨.tachEdge 38 0 0, rfl, by decide⟩

theorem pwmToggle (kd : Nat) (i : Nat) (h : Nat) : Statement (.pwmToggle kd i h) :=
  ⟨.pwmToggle 38 0 0, rfl, by decide⟩

theorem ledToggle (kd : Nat) (i : Nat) (h : Nat) : Statement (.ledToggle kd i h) :=
  ⟨.ledToggle 38 0 0, rfl, by decide⟩

theorem bmcRead4 (addr : Word64) : Statement (.bmcRead4 addr) :=
  ⟨.bmcRead4 0, rfl, by decide⟩

theorem bmcRead8 (addr : Word64) : Statement (.bmcRead8 addr) :=
  ⟨.bmcRead8 0, rfl, by decide⟩

theorem bmcWrite4 (addr : Word64) (v : Word32) : Statement (.bmcWrite4 addr v) :=
  ⟨.bmcWrite4 0 0, rfl, by decide⟩

theorem bmcWrite8 (addr : Word64) (v : Word64) : Statement (.bmcWrite8 addr v) :=
  ⟨.bmcWrite8 0 0, rfl, by decide⟩

theorem bmcBlockRead : Statement (.bmcBlockRead) :=
  ⟨.bmcBlockRead, rfl, by decide⟩

theorem traceWindowStart (cd : Nat) : Statement (.traceWindowStart cd) :=
  ⟨.traceWindowStart 0, rfl, by decide⟩

theorem traceWindowStop (cd : Nat) : Statement (.traceWindowStop cd) :=
  ⟨.traceWindowStop 0, rfl, by decide⟩

theorem pcSample (cd : Nat) (k : Nat) (cc : Nat) (busy : Nat) : Statement (.pcSample cd k cc busy) :=
  ⟨.pcSample 0 0 0 0, rfl, by decide⟩

theorem traceWrite (cd : Nat) : Statement (.traceWrite cd) :=
  ⟨.traceWrite 0, rfl, by decide⟩

theorem traceFlush (cd : Nat) (h : Nat) : Statement (.traceFlush cd h) :=
  ⟨.traceFlush 0 0, rfl, by decide⟩

theorem freeze (die : Nat) (core : Bool) (u : Nat) : Statement (.freeze die core u) :=
  ⟨.freeze 0 false 0, rfl, by decide⟩

theorem thaw (die : Nat) (core : Bool) (u : Nat) : Statement (.thaw die core u) :=
  ⟨.thaw 0 false 0, rfl, by decide⟩

theorem ringFreezeStep (die : Nat) : Statement (.ringFreezeStep die) :=
  ⟨.ringFreezeStep 0, rfl, by decide⟩

theorem monSnap (ctx : Bool) (die : Nat) (m : Nat) : Statement (.monSnap ctx die m) :=
  ⟨.monSnap false 0 0, rfl, by decide⟩

theorem monClr (ctx : Bool) (die : Nat) (m : Nat) : Statement (.monClr ctx die m) :=
  ⟨.monClr false 0 0, rfl, by decide⟩

theorem illegalInstruction (cd : Nat) (k : Nat) : Statement (.illegalInstruction cd k) :=
  ⟨.illegalInstruction 0 0, rfl, by decide⟩

theorem injectionFinish (slot : Nat) : Statement (.injectionFinish slot) :=
  ⟨.injectionFinish 0, rfl, by decide⟩

theorem vrFault : Statement (.vrFault) :=
  ⟨.vrFault, rfl, by decide⟩

theorem forwardedClockLoss (die : Nat) (l : Nat) : Statement (.forwardedClockLoss die l) :=
  ⟨.forwardedClockLoss 0 0, rfl, by decide⟩

theorem configurationRequest (fn : Nat) (tag : Nat) (off : Nat) (w : Option Word32) : Statement (.configurationRequest fn tag off w) :=
  ⟨.configurationRequest 0 0 0 none, rfl, by decide⟩

end Sys2Proof.Laws.Occurs
end

