-- ==== Sys2Proof/Tests/Slice0.lean ====
section
/-!
SUPPORT. Small tests of single commands, and a witness for the hypotheses of every statement. The expected values come from
the spec's tables, rules and worked examples, or from them by hand.
-/

namespace Sys2Proof.Tests

open Sys2Proof Sys2Proof.Machine

set_option Elab.async false

/-! ## Helpers -/

/-- The state that a command leaves (a refused one leaves the empty state). -/
def after (i : Instr) (s : State) : State :=
  match exec i s with
  | .next t => t
  | _ => { pending := [.nop 0 0] }

/-- The states that a list of commands leaves. -/
def play (is : List Instr) (s : State) : State := is.foldl (fun s i => after i s) s

/-- `State.Issues` as a computation. -/
def issues (s : State) (cd k : Nat) (w : IWord) : Bool :=
  isCore cd k && decide ((s.core cd k).run = .active) && !(s.core cd k).stopping && decide (s.nextWord cd k = w) &&
  !w.illegal && !s.guardedOff cd k w && decide (s.issueErrors cd k w = []) &&
  (match s.waitOf cd k w with | some x => x.met | none => true) &&
  !(w.vectorsRead.any (fun i => (s.core cd k).vBad.contains i))

theorem issues_sound {s : State} {cd k : Nat} {w : IWord} (h : issues s cd k w = true) : s.Issues cd k w := by
  simp only [issues, Bool.and_eq_true, decide_eq_true_eq, Bool.not_eq_true'] at h
  obtain ⟨⟨⟨⟨⟨⟨⟨⟨h1, h2⟩, h3⟩, h4⟩, h5⟩, h6⟩, h7⟩, h8⟩, h9⟩ := h
  exact ⟨h1, h2, h3, h4, h5, h6, h7, fun x hx => by simpa [hx] using h8, h9⟩

/-- An instruction word with P = 0 and PN = 0 (R125). -/
def ins (op : Nat) (d a b c x : Nat := 0) : Nat := op <<< 56 + d <<< 51 + a <<< 46 + b <<< 41 + c <<< 36 + x

/-- Core `k` of CD `cd` runs, with `c`'s registers, and the word `w` stands at its PC. -/
def at_ (w : Nat) (c : Core := {}) (s : State := {}) (cd k : Nat := 0) : State :=
  { s with
    mem := Memory.write s.mem (pkgAddr cd (progStore k + 8 * c.pc.toNat)) (toBytes 8 w)
    cores := [(512 * cd + k, { c with run := .active })] }

/-- Core 0 of CD 0 issues the word `w`. -/
def ok (w : Nat) (c : Core := {}) (s : State := {}) : Bool := issues (at_ w c s) 0 0 (IWord.ofNat w)

theorem witness_of {w : Nat} {c : Core} {s : State} (h : ok w c s = true) : (at_ w c s).Issues 0 0 (IWord.ofNat w) :=
  issues_sound h

/-- Core 0 after the row `i` on the word `w`. -/
def coreAfter (i : Instr) (w : Nat) (c : Core := {}) (s : State := {}) : Core := (after i (at_ w c s)).core 0 0

/-- Scalar registers s1 = a, s2 = b, s3 = d. -/
def ab (a b : Nat) (d : Nat := 0) : Core :=
  (((({} : Core).setS 1 a).setS 2 b).setS 3 d)

/-- A 64-bit register value. -/
def w64 (v : Nat) : Word64 := BitVec.ofNat 64 v

/-- A register's stored form for a register whose reset value is zero. -/
def csr1 (d : Nat) (f : RegFam) (i j v : Nat) : Nat × Word64 := (pkgAddr d (Reg.off ⟨f, i, j⟩), w64 v)

/-- Registers set to values, from `s`. -/
def regs (s : State) (d : Nat) (l : List (RegFam × Nat × Nat × Nat)) : State :=
  l.foldl (fun s x => s.setReg d x.1 x.2.2.2 x.2.1 x.2.2.1) s

/-- `n` bytes, zero but for those listed. -/
def bytes (n : Nat) (l : List (Nat × Nat)) : List Byte :=
  (List.range n).map (fun i => BitVec.ofNat 8 ((l.find? (fun p => p.1 == i)).elim 0 (·.2)))

/-- `State.Takes` as a computation. -/
def takes (s : State) (fn q : Nat) (cp1 : Bool) (opc id : Nat) (b : List Byte) : Bool :=
  pairExists fn q && decide (s.nextCmd fn q = some (id, b)) &&
  decide ((s.pair fn q).cmds.find? (fun c => decide (c.id = id)) = some { id, bytes := some b }) &&
  decide (s.isCp1 fn q = cp1) && decide (byteAt b 0 = opc) && (decide (fnNo fn = 0) || cp1 || !pfOnly opc) &&
  (match (if cp1 then cp1Fields opc else (cp2Fields opc).map (fun l => cp2Common ++ l)) with
   | some l => unusedZero (if cp1 then 64 else 128) b l
   | none => true) &&
  (decide (fnNo fn = 0) || (cp1 && decide (opc ≠ 1)) || decide (numAt b 4 2 = 0)) &&
  (cp1 || !isFirmware opc || s.firmwareTurn fn q id)

theorem takes_sound {s : State} {fn q : Nat} {cp1 : Bool} {opc id : Nat} {b : List Byte}
    (h : takes s fn q cp1 opc id b = true) : s.Takes fn q cp1 opc id b := by
  simp only [takes, Bool.and_eq_true, decide_eq_true_eq, Bool.or_eq_true, Bool.not_eq_true'] at h
  obtain ⟨⟨⟨⟨⟨⟨⟨⟨h1, h2⟩, h3⟩, h4⟩, h5⟩, h6⟩, h7⟩, h8⟩, h9⟩ := h
  refine ⟨h1, h2, h3, h4, h5, fun a c => ?_, fun l hl => by simpa [hl] using h7, fun a c => ?_, fun a c => ?_⟩
  · rcases h6 with (h6 | h6) | h6
    · exact absurd h6 a
    · simp [h6] at c
    · exact h6
  · rcases h8 with (h8 | h8) | h8
    · exact absurd h8 a
    · rcases c with c | c
      · simp [h8] at c
      · exact absurd c h8.2
    · exact h8
  · simpa [a, c] using h9

/-- Pair `q` of function `fn`, ACTIVE with queues of 16, whose one fetched command has the entry `b`. -/
def cmdState (fn q : Nat) (cp1 : Bool) (b : List Byte) (s : State := {}) : State :=
  { regs s (38 + fnPort fn) [(.cmdQcfg, fnNo fn, q, 2 ^ 31 + b2n cp1 <<< 30 + 1 <<< 28 + 0x44)] with
    host := { s.host with pairs := [(64 * fn + q, { tail := 1, fetched := 1, cmds := [{ id := 0, bytes := some b }] })] } }

/-- The statuses and results of the completion entries written so far (R421). -/
def posted (s : State) : List (Nat × Nat) :=
  s.host.out.filterMap (fun o => match o with
    | .write _ _ b => if b.length = 16 then some (byteAt b 14, numAt b 0 8) else none
    | _ => none)

/-- KD0, CD 0 and MD 32 joined: routes loaded and the two links between them UP. -/
def wired (s : State) : State :=
  regs (regs (regs s 38 [(.pfabRt, 0, 0, 2 ^ 31), (.pfabRt, 32, 0, 2 ^ 31), (.pfabLnk, 0, 0, 2 <<< 29)])
    0 [(.pfabRt, 32, 0, 2 ^ 31 + 4), (.pfabRt, 38, 0, 2 ^ 31), (.pfabLnk, 0, 0, 2 <<< 29), (.pfabLnk, 4, 0, 2 <<< 29)])
    32 [(.pfabRt, 0, 0, 2 ^ 31), (.pfabRt, 38, 0, 2 ^ 31), (.pfabLnk, 0, 0, 2 <<< 29)]

theorem readFlash_programFlash (s : State) (a n : Nat) (bs : List Byte) (h : bs.length = n) :
    (s.programFlash a bs).readFlash a n = bs := by
  subst h
  refine List.ext_getElem (by simp [State.readFlash]) fun i h1 h2 => ?_
  simp only [State.readFlash, List.getElem_map, List.getElem_range, State.flashByte, State.programFlash, Memory.get_write,
    List.length_map]
  rw [if_pos ⟨by omega, by omega⟩, Nat.add_sub_cancel_left]
  simp [h2, BitVec.xor_assoc]
/-! ## Cores -/

/-- Every two-operand scalar row, ADDI, LI, CMP, CMPI and PLOG issue. -/
theorem witness_scalarUnit :
    (∀ op ∈ [1, 2, 3, 4, 5, 6, 7, 8, 9, 10, 11], ok (ins op 31 1 2) (ab 7 (2 ^ 32 - 1)) = true) ∧
    ok (ins 0x0C 4 1 0 0 (2 ^ 32 - 1)) (ab 5 0) = true ∧ ok (ins 0x0D 4 0 0 0 0xFFFFFFFF) = true ∧
    (∀ rel ∈ [0, 1, 2, 3, 4, 5], ok (ins 0x0E 7 1 2 0 rel) = true ∧ ok (ins 0x0F 7 1 0 0 rel) = true) ∧
    (∀ f ∈ [0, 1, 2, 3], ok (ins 0x10 7 7 1 0 f) = true) := by decide +kernel

theorem witness_scalar_issues : (at_ (ins 1 31 1 2) (ab 7 9)).Issues 0 0 (IWord.ofNat (ins 1 31 1 2)) :=
  witness_of (by decide +kernel)

/-- R134: results modulo 2^32, MUL the low 32 bits, SRA and MIN signed, a write to s0 discarded. -/
theorem test_scalar :
    (coreAfter (.add 0 0) (ins 1 4 1 2) (ab (2 ^ 32 - 1) 2)).sreg 4 = 1 ∧
    (coreAfter (.sub 0 0) (ins 2 4 1 2) (ab 1 2)).sreg 4 = 2 ^ 32 - 1 ∧
    (coreAfter (.shl 0 0) (ins 6 4 1 2) (ab 3 33)).sreg 4 = 6 ∧
    (coreAfter (.shr 0 0) (ins 7 4 1 2) (ab 0x80000000 31)).sreg 4 = 1 ∧
    (coreAfter (.sra 0 0) (ins 8 4 1 2) (ab 0x80000000 31)).sreg 4 = 2 ^ 32 - 1 ∧
    (coreAfter (.mul 0 0) (ins 9 4 1 2) (ab 0x10001 0x10001)).sreg 4 = 0x20001 ∧
    (coreAfter (.min 0 0) (ins 10 4 1 2) (ab 1 (2 ^ 32 - 1))).sreg 4 = 2 ^ 32 - 1 ∧
    (coreAfter (.max 0 0) (ins 11 4 1 2) (ab 1 (2 ^ 32 - 1))).sreg 4 = 1 ∧
    (coreAfter (.add 0 0) (ins 1 0 1 2) (ab 1 2)).sreg 0 = 0 ∧
    (coreAfter (.addi 0 0) (ins 12 1 1 0 0 (2 ^ 32 - 1)) (ab 0 0)).sreg 1 = 2 ^ 32 - 1 ∧
    (coreAfter (.cmpi 0 0) (ins 15 1 1 0 0 (8 * (2 ^ 29 - 1) + 2)) (ab (2 ^ 32 - 2) 0)).preg 1 = 2 ^ 256 - 1 := by
  decide +kernel

theorem witness_branches : ok (ins 0x20 0 0 0 0 4095) = true ∧ ok (ins 0x21 31 0 0 0 4095) = true ∧
    ok (ins 0x22 0 1) (ab 4095 0) = true ∧ ok (ins 0x23 0 1 0 0 7) (ab 1 0) = true ∧
    ok (ins 0x23 0 1 0 0 7) (ab 0 0) = true := by decide +kernel

/-- LOOP with s[A] = 1 falls through; JR past 4,095 is exception BAD_BRANCH (R136, R161). -/
theorem test_branches :
    (coreAfter (.loop 0 0) (ins 0x23 0 1 0 0 7) (ab 1 0)).pc = 1 ∧
    (coreAfter (.loop 0 0) (ins 0x23 0 1 0 0 7) (ab 0 0)).pc = 7 ∧
    (coreAfter (.jal 0 0) (ins 0x21 5 0 0 0 9) { pc := 3 }).sreg 5 = 4 ∧
    (coreAfter (.jr 0 0) (ins 0x22 0 1) (ab 4096 0)).run = .exception := by decide +kernel

/-- A core that reads v1, of wrong parity, and no other hypothesis of the statement open. -/
theorem witness_vectorParity :
    let s := at_ (ins 0x41 3 1 2) { vBad := [1] }
    let w := s.nextWord 0 0
    (0x41, Instr.vadd 0 0) ∈ instrRows 0 0 ∧ w.op = 0x41 ∧ w.illegal = false ∧ s.guardedOff 0 0 w = false ∧
    s.issueErrors 0 0 w = [] ∧ s.waitOf 0 0 w = none ∧ w.vectorsRead.any (fun i => (s.core 0 0).vBad.contains i) = true ∧
    (s.core 0 0).run = .active ∧ (s.core 0 0).stopping = false := by decide +kernel

theorem test_vectorParity :
    ((after (.vadd 0 0) (at_ (ins 0x41 3 1 2) { vBad := [1] })).core 0 0).run = .exception := by decide +kernel

theorem witness_bufferMoves :
    ok (ins 0x11 31 1 0 0 4) (ab 65528 0) = true ∧ ok (ins 0x12 0 1 2 0 0) (ab 65532 0) = true ∧
    ok (ins 0x60 31 1) (ab 65280 0) = true ∧ ok (ins 0x61 31 1) (ab 65280 0) = true ∧
    ok (ins 0x31 4 1 0 0 128) (ab 65408 0) = true ∧ ok (ins 0x62 0 1 2 3) (ab 64 128) = true ∧
    ok (ins 0x62 0 1 2 3 1) (ab 1048512 65472 64) = true ∧ ok (ins 0x62 0 1 2 3) (ab 65472 1048512 64) = true ∧
    (at_ 0).worstErr (pkgAddr 0 (clusterBuf 0 + 1048512)) 64 = (0, 0) ∧
    (at_ 0).worstErr (pkgAddr 0 (coreBuf 0 + 65280)) 256 = (0, 0) := by decide +kernel

/-- R134, R147: little-endian words; EMAX skips 0xFF and answers 0 for none. -/
theorem test_bufferMoves :
    (after (.sst 0 0) (at_ (ins 0x12 0 1 2 0 4) (ab 8 0x01020304))).readMem 0 (coreBuf 0 + 12) 4 = [4, 3, 2, 1] ∧
    (coreAfter (.sld 0 0) (ins 0x11 5 1) (ab 16 0)
      { mem := [(pkgAddr 0 (coreBuf 0 + 17), 0x12#8)] }).sreg 5 = 0x1200 ∧
    (coreAfter (.emax 0 0) (ins 0x31 4 1 0 0 3) (ab 0 0)
      { mem := [(pkgAddr 0 (coreBuf 0), 0xFF#8), (pkgAddr 0 (coreBuf 0 + 1), 130#8)] }).sreg 4 = 130 := by
  decide +kernel

/-- The word of a vector instruction: FMT, SF and the other bits of X (R127). -/
def vins (op d a b c fmt sf : Nat) (x : Nat := 0) : Nat := ins op d a b c (fmt <<< 28 + sf <<< 24 + x)

/-- Every lane-by-lane row issues, in every format of FMT and SF that R143 lets it have at the ends of the table. -/
theorem witness_vectorElements :
    (∀ op ∈ [0x41, 0x42, 0x43], ok (vins op 31 1 2 0 0 0) = true ∧ ok (vins op 31 1 2 0 2 4) = true ∧
      ok (vins op 31 1 2 0 0 1 (3 <<< 21)) = true) ∧
    ok (vins 0x40 1 2 3 4 0 15) = true ∧
    (∀ op ∈ [0x44, 0x45], ok (vins op 1 2 3 0 7 7) = true ∧ ok (vins op 1 2 3 0 0 15) = true) ∧
    (∀ op ∈ [0x46, 0x47, 0x48, 0x49, 0x4A, 0x4B, 0x4C, 0x4D], ok (vins op 1 2 3 0 5 15) = true ∧
      ok (vins op 1 2 3 0 7 15 (1 <<< 19)) = true) ∧
    ok (vins 0x51 1 2 0 0 3 0 (1 <<< 18 + 3 <<< 16)) = true ∧ ok (vins 0x51 1 2 0 0 0 7 (3 <<< 16)) = true ∧
    ok (vins 0x57 1 2 3 0 0 0) = true ∧ ok (vins 0x58 1 2 0 0 0 0) = true := by decide +kernel

theorem witness_vectorLanes :
    ok (vins 0x4F 1 2 3 0 7 15) = true ∧ ok (vins 0x50 1 2 3 4 5 7) = true ∧ ok (vins 0x56 1 2 0 0 0 0 3) = true ∧
    ok (vins 0x56 1 2 0 0 1 1 (1 <<< 16)) = true ∧ ok (vins 0x52 1 1 2 0 0 0) (ab 65152 65534) = true ∧
    (at_ 0).worstErr (pkgAddr 0 (coreBuf 0 + 65152)) 384 = (0, 0) := by decide +kernel

/-- A register whose elements of `w` bits are all `x`. -/
def splat (w x : Nat) : Nat := ((List.range (2048 / w)).foldl (fun a i => a + x <<< (w * i)) 0)

/-- v1 and v2 for a vector test. -/
def v12 (a b : Nat) : Core := (({} : Core).setV 1 a).setV 2 b

/-- R169 to R174, R179: 1.5 + 2.25; largest + largest rounds to infinity; infinity − infinity is the canonical NaN; 1 / 0
is infinity; INT8 127 + 1 wraps. -/
theorem test_vector :
    elem ((coreAfter (.vadd 0 0) (vins 0x41 3 1 2 0 0 0) (v12 (splat 32 0x3FC00000) (splat 32 0x40100000))).vreg 3) 32 63
      = 0x40700000 ∧
    elem ((coreAfter (.vadd 0 0) (vins 0x41 3 1 2 0 0 0) (v12 0x7F7FFFFF 0x7F7FFFFF)).vreg 3) 32 0 = 0x7F800000 ∧
    elem ((coreAfter (.vsub 0 0) (vins 0x42 3 1 2 0 0 0) (v12 0x7F800000 0x7F800000)).vreg 3) 32 0 = 0x7FC00000 ∧
    elem ((coreAfter (.vdiv 0 0) (vins 0x57 3 1 2 0 0 0) (v12 0x3F800000 0)).vreg 3) 32 0 = 0x7F800000 ∧
    elem ((coreAfter (.viadd 0 0) (vins 0x46 3 1 2 0 7 7) (v12 127 1)).vreg 3) 8 0 = 0x80 := by decide +kernel

/-- VSQRT of 2.25; VDOT4 of four products; VCMP LT on FP32; VRED sum of 64 ones. -/
theorem test_vector_more :
    elem ((coreAfter (.vsqrt 0 0) (vins 0x58 3 1 0 0 0 0) (v12 0x40100000 0)).vreg 3) 32 0 = 0x3FC00000 ∧
    elem ((coreAfter (.vdot4 0 0) (vins 0x50 3 1 2 4 5 7) (v12 0xFF020304 0x01020304)).vreg 3) 32 0 = 28 ∧
    (coreAfter (.vcmp 0 0) (vins 0x4E 1 1 2 0 0 0 2) (v12 0x3F800000 0x40000000)).preg 1 % 256 = 0x0F ∧
    (coreAfter (.vred 0 0) (vins 0x55 4 1 0 0 0 0) (v12 (splat 32 0x3F800000) 0)).sreg 4 = 0x42800000 := by
  decide +kernel

theorem witness_comparesAndReductions :
    ok (vins 0x4E 7 1 2 0 0 0 3) = true ∧ ok (vins 0x4E 0 1 2 0 7 7 5) = true ∧ ok (vins 0x55 4 1 0 0 0 0 2) = true ∧
    ok (vins 0x55 31 1 0 0 5 15) = true := by decide +kernel

theorem witness_vectorStores :
    (∀ m ∈ [0, 1, 2], ok (vins 0x54 4 2 1 2 0 0 m) (ab 0 65532) = true) ∧
    ok (vins 0x59 3 1 2 0 0 0 0x03FF) (ab 0 0 65504) = true ∧
    ok (vins 0x5A 3 28 28 1 0 0 0x07FF) (ab 0 0 0) = true ∧ ok (vins 0x5A 3 28 0 1 0 0 0x27FF) = true ∧
    ok (vins 0x53 15 1 2 0 0 0 7) = true ∧ (({} : Core).entry 15).accept 0 0 (List.replicate 64 0) 448 false false ≠ none ∧
    ok (ins 0x32 15) = true := by decide +kernel

/-- The worked example "quantizing two blocks" of chapter 02. -/
theorem test_quantizes :
    quantBlock 6 127 [0x40533333, 0xBF333333, 0x3D400000, 0x3C800000, 0xBDA00000] =
      { e := 0x7A, q := [106, -22, 2, 0, -2] } ∧ quantBlock 6 127 [0x40FF8000] = { e := 0x7C, q := [64] } := by
  decide +kernel

/-- PQCLR clears; VTOPK of four elements: the two largest, in order, with their positions (R134, R142). -/
theorem test_vectorStores :
    ((coreAfter (.pqclr 0 0) (ins 0x32 3) { pq := [(3, { used := true, count := 4 })] }).entry 3).used = false ∧
    (after (.vtopk 0 0) (at_ (vins 0x59 3 1 2 0 0 0 0x0103) (v12 (0x40000000 <<< 32 + 0x3F800000) 0))).readMem 0 (coreBuf 0) 16 =
      [1, 0, 0, 0, 0, 0, 0, 0x40, 0, 0, 0, 0, 0, 0, 0x80, 0x3F] := by decide +kernel

theorem witness_engineLoads : ok (ins 0x30 0 1 2 3 (2 ^ 30 + 0xFFFF + 8 <<< 26)) (ab 0 0 0) = true ∧
    ok (ins 0x30 15 1 2 3 (2 ^ 31 + 0x8000)) (ab 65408 0 65535) = true ∧ ok (ins 0x30 0 1 2 3 0) (ab 0 0 0) = true := by
  decide +kernel

/-- R138: rank 1 loads from 128 × stride beyond, into entry D + 1. -/
theorem test_eld :
    ((coreAfter (.eld 0 0) (ins 0x30 2 1 2 3 (2 ^ 30 + 5 + 1 <<< 26)) (ab 256 0 7)).loads.map
      (fun l => (l.l, l.el, l.ex, l.pq))) = [(0, 256, 7, 2), (2, 384, 8, 3)] := by decide +kernel

/-- Core 0 whose partial-queue entry 3 holds one contribution. -/
def held3 : Core := { c := [(5, 1#8)], pq := [(3, { used := true, ev := 512, count := 1, words := 9 })] }

theorem witness_sends :
    ok (ins 0x70 3 5 0 0 (7 + 9 <<< 16)) held3 = true ∧ ok (ins 0x70 3 0 0 0 0x100) held3 = true ∧
    held3.jobs.head? = none ∧
    ((after (.send 0 0) (at_ (ins 0x70 3 5) held3)).core 0 0).jobs = [.pq 1 3 0 64 0] ∧
    (after (.send 0 0) (at_ (ins 0x70 3 5) held3)).writesTo 0 0 3 1 = false ∧
    ok (ins 0x71 3 1 2 5 0x100) (ab 0 65536) = true ∧ ok (ins 0x71 3 1 2 5 1) { ab 0 1 with c := [(5, 1#8)] } = true ∧
    ok (ins 0x72 3 1 2 4 0) (ab 0 32) = true ∧ ok (ins 0x73 0 0 0 0 0xFF00) = true := by decide +kernel

/-- The gate record at 128 names expert 0, and its table entry at 0 is valid. -/
def gated : State := { mem := [(pkgAddr 0 (coreBuf 0 + 7), 0x80#8), (pkgAddr 0 (coreBuf 0 + 4096), 1#8)] }

theorem witness_mcastx :
    ok (ins 0x72 3 1 2 4 0x20) ((ab 0 32).setS 4 4096) gated = true ∧
    (at_ (ins 0x72 3 1 2 4 0x20) ((ab 0 32).setS 4 4096) gated).gateCount 0 0 4096 = 1 ∧
    bit (ofBytes (gated.readAt (pkgAddr 0 (coreBuf 0)) 8)) 63 = true ∧
    ok (ins 0x73 0 0 0 0 0x100) {} { csr := [(pkgAddr 0 (Reg.off ⟨.nocCrt, 0, 0⟩), BitVec.ofNat 64 (2 ^ 63))] } = true := by
  decide +kernel

/-- SEND takes a credit; SEND_DONE sends three flits (R198) and clears the entry. -/
theorem test_send :
    let s := after (.send 0 0) (at_ (ins 0x70 3 5) held3)
    let t := after (.sendDone 0 0) s
    (s.core 0 0).cred 5 = 0 ∧ ((t.router 0 0).queue 5 0).length = 3 ∧ ((t.core 0 0).entry 3).used = false := by
  decide +kernel

/-! ## Engines -/

/-- Worked example of chapter 03: block 3, T1 output 5 with weights +1, −1, +1, −1 and BS8 0x83. -/
def hand : Engine :=
  { comb := [(0, BitVec.ofNat 512 (2 ^ 10)), (1, BitVec.ofNat 512 (2 ^ 11)), (2, BitVec.ofNat 512 (2 ^ 10)),
      (3, BitVec.ofNat 512 (2 ^ 11))]
    scale := BitVec.ofNat 4096 (0x83 * 2 ^ 40) }

def handPass : Pass := ⟨0, BitVec.ofNat 1024 0x9C0CD15D, 0x7B, 486, 6, 3, 0, 1⟩

/-- The example's integers: c = 252, bit-serially too, and p = 2,906,652,672 without CLAMP. -/
theorem test_worked_output :
    hand.outputC 0 (elemAt handPass.elems) 5 = 252 ∧ hand.planeAcc 0 handPass.elems 5 = 252 ∧
    hand.partialOf handPass 5 252 = (2906652672, false) := by decide +kernel

/-- Worked example of chapter 02: four partials at EV 482 with G = 2; the third block's tie goes to the even neighbour. -/
theorem test_worked_sum :
    alignPartial 10000 (-6 + 30) 2 = (167772160000, false) ∧ alignPartial (-2709) (-6 + 30) 2 = (-45449478144, false) ∧
    alignPartial 616 (-7 + 30) 2 = (5167382528, false) ∧ alignPartial 10 (-32 + 30) 2 = (2, false) := by decide +kernel

/-- An engine state: `e` is engine 0 of core 0 of CD 0, `c` the core. -/
def eng (e : Engine) (c : Core := {}) : State := { engines := [(0, e)], cores := [(0, c)] }

theorem elem_zero (w i : Nat) : elem 0 w i = 0 := by simp [elem]

theorem elemAt_zero (i : Nat) : elemAt 0#1024 i = 0 := by
  simp only [elemAt, BitVec.toNat_ofNat, Nat.zero_mod, elem_zero]; rfl

theorem sumInt_zero : ∀ n : Nat, sumInt ((List.range n).map (fun _ => (0 : Int))) = 0 := by
  intro n
  induction n with
  | zero => rfl
  | succ n ih => rw [List.range_succ, List.map_append]; simp_all [sumInt]

theorem outputC_zero (e : Engine) (j : Nat) : e.outputC 0 (elemAt 0#1024) j = 0 := by
  have h (c : Nat) : e.colSum (elemAt 0#1024) c = 0 := by
    simp only [Engine.colSum, elemAt_zero, ite_self]; exact sumInt_zero 128
  show e.colSum (elemAt 0#1024) (2 * j) - e.colSum (elemAt 0#1024) (2 * j + 1) = 0
  rw [h, h]; rfl

/-- A pass of zeros, whose outputs are within every bound, into an empty entry, which takes any partials. -/
theorem witness_enginePasses :
    let e : Engine := { hand with passes := [{ handPass with elems := 0 }] }
    (∀ j, j < outputs 0 → (e.outputC 0 (elemAt 0#1024) j).natAbs ≤ largestC 0) ∧
    ∀ parts, ((({} : Core).entry 15).accept 486 6 parts 0 false false).isSome = true :=
  ⟨fun j _ => by rw [outputC_zero]; decide, fun _ => rfl⟩

/-- A running core whose oldest load is for logical engine 0, its permit open; engine 0 ACTIVE in the map. -/
def loading (en : Bool) : State :=
  { eng { state := .active, loaded := true, tested := true }
      { run := .active, lim := 2, gated := false, loads := [⟨1, 0, 65408, 65535, 486, 6, 3, 9, 0⟩] } with
    csr := if en then [(pkgAddr 0 (Reg.off ⟨.engMapl, 0, 0⟩), BitVec.ofNat 64 (2 ^ 31))] else [] }

def loadOf (s : State) : Load := (s.core 0 0).loads.headD ⟨0, 0, 0, 0, 0, 0, 0, 0, 0⟩

theorem witness_loadStarts :
    (loading true).mapl 0 0 0 = (true, 0) ∧ (loading false).mapl 0 0 0 = (false, 0) ∧
    (∀ en, let s := loading en; let s1 := (s.toCc 0 0).setCore 0 0 ((s.core 0 0).wake 0)
      s1.holdCause 0 0 0 (loadOf s) = none ∧ ((s1.core 0 0).started.filter (· = 0)).length < 2) ∧
    (loading true).worstErr (pkgAddr 0 (coreBuf 0 + 65408)) 128 = (0, 0) := by decide +kernel

theorem test_loadStart :
    ((after (.loadStart 0 0 0) (loading true)).engine 0 0 0).passes.length = 1 ∧
    ((after (.loadStart 0 0 0) (loading false)).core 0 0).pc = 9 := by decide +kernel

/-- R100: gated with a load, ungated with SOFT set, below and above CAP. -/
theorem witness_loadPermit :
    (let c := (eng {} { gated := true, loads := [loadOf (loading true)] }).core 0 0; c.gated = true ∧ c.loads ≠ []) ∧
    ({ eng {} { gated := false, lim := 14 } with
      csr := [(pkgAddr 0 (Reg.off ⟨.coreSoft, 0, 0⟩), 1#64)] } : State).fld 0 .coreSoft 15 0 0 ≠ 0 ∧
    ((eng {} { gated := true, gateT := some 0 }).core 0 0).gateT = some ((eng {}).die 0).cc ∧
    ((eng {} { gated := false, lim := 14 }).core 0 0).lim < ((eng {} { gated := false, lim := 14 }).core 0 0).cap ∧
    ((eng {} { gated := false, lim := 2, cap := 0 }).core 0 0).cap < 2 := by decide +kernel

/-- A pass of W4 cells of magnitude 15 on inputs of −128, beyond the bound of R35, in an engine that has not faulted. -/
def beyond : State :=
  { eng { comb := (List.range 128).map (fun r => (r, BitVec.ofNat 512 15))
          passes := [{ handPass with elems := BitVec.ofNat 1024 ((2 ^ 1024 - 1) / 255 * 128) }] } with
    csr := [csr1 0 .engCfg 0 0 3] }

theorem witness_overBound :
    beyond.fld 0 .engCfg 2 0 0 0 = 3 ∧ (beyond.engine 0 0 0).state ≠ .retired ∧ (beyond.engine 0 0 0).fault = none ∧
    largestC 3 < (((beyond.engine 0 0 0).outputC 3 (elemAt (BitVec.ofNat 1024 ((2 ^ 1024 - 1) / 255 * 128))) 0).natAbs) := by
  decide +kernel

/-- R63: CBOUND, the engine FAULTED. -/
theorem test_overBound : ((after (.enginePass 0 0 0) beyond).engine 0 0 0).state = .faulted ∧
    bit ((after (.enginePass 0 0 0) beyond).reg 0 .engFault 0 0) 4 = true := by decide +kernel

theorem test_limRamp :
    ((after (.limRamp 0 0) (eng {} { gated := false, lim := 15 })).core 0 0).lim = 16 ∧
    ((after (.limRamp 0 0) (eng {} { gated := false, lim := 12, cap := 4 })).core 0 0).lim = 4 := by decide +kernel

/-- Writes permitted (no sensor is valid yet, so R525 allows them), refused, and BUSY. -/
theorem witness_writeCommandsStart :
    (eng {}).fld 0 .engWcmd 31 31 0 0 = 0 ∧ (eng {}).writeRefusal 0 0 0 true 8 0 = some 1 ∧
    (eng { state := .active }).writeRefusal 0 0 0 false 127 0 = some 2 ∧
    (after (.rowWrite 0 0 0 127) (eng {})).fld 0 .engWcmd 31 31 0 0 = 1 ∧
    (eng {}).writeRefusal 0 0 0 false 127 0 = none ∧ (eng {}).writeRefusal 0 16 16 true 7 0 = none := by decide +kernel

theorem witness_writeCommandsEnd :
    ((after (.rowWrite 0 0 0 127) (eng {})).engine 0 0 0).cmd = some ⟨0, false, 127, 0⟩ ∧
    ((after (.scaleWrite 0 0 0 7) (eng {})).engine 0 0 0).cmd = some ⟨0, true, 7, 0⟩ := by decide +kernel

/-- One mismatch, mended by the retry, leaves the engine as it is (R74). -/
theorem test_writeDone :
    (play [.rowWrite 0 0 0 127, .engWriteDone 0 0 0 1] (eng {})).fld 0 .engWcmd 30 28 0 0 = 0 ∧
    ((play [.rowWrite 0 0 0 127, .engWriteDone 0 0 0 1] (eng {})).engine 0 0 0).state = .idle := by decide +kernel

theorem witness_testsStart :
    let s := eng { loaded := true } { gated := false, lim := 2 }
    let a := eng { state := .active } { gated := false, lim := 2 }
    s.canTest 0 0 0 64 = true ∧ (s.engine 0 0 0).state = .idle ∧ (s.engine 0 0 0).loaded = true ∧
    (s.engine 0 0 0).tested = false ∧ (s.engine 0 0 0).cmd = none ∧ (s.engine 0 0 0).portAt + 64 ≤ 64 ∧
    a.canTest 0 0 0 0 = true ∧ (a.engine 0 0 0).state = .active ∧
    (a.engine 0 0 0).lastTestHc + 100000 * a.fld 0 .engTvCtl 6 0 0 ≤ 12700000 ∧
    (a.engine 0 0 0).overdue 100000000 = true := by decide +kernel

theorem witness_testsEnd :
    ((play [.acceptanceTest 0 0 0 64 0] (eng { loaded := true } { gated := false, lim := 2 })).engine 0 0 0).test
      = some ⟨64, 0, false, false⟩ := by decide +kernel

/-- A wrong row parity faults a loaded engine (R82); a read waits for a write command. -/
theorem test_scrub :
    ((after (.scrubRowRead 0 0 0) (eng { loaded := true })).engine 0 0 0).scrubRow = 1 ∧
    ((after (.scrubRowRead 0 0 0) (eng { loaded := true, rowPar := 1 })).engine 0 0 0).state = .faulted ∧
    ((after (.scrubRowRead 0 0 0) (eng { loaded := true, rowPar := 1, cmd := some ⟨0, false, 0, 0⟩ })).engine 0 0 0).state = .idle := by
  decide +kernel

theorem witness_scrubs : ((eng { loaded := true, scrubRow := 127 }).engine 0 0 0).loaded = true ∧
    ((eng { loaded := true, scrubRow := 127 }).engine 0 0 0).state ≠ .retired := by decide +kernel

theorem witness_engineMap :
    let s := eng { loaded := true, tested := true }
    s.mapl 0 0 15 ≠ (true, 0) ∧ (s.engine 0 0 0).state = .idle ∧ (s.engine 0 0 0).tested = true ∧
    (∀ m, m < 16 → (s.mapl 0 0 m).1 = false) := by decide +kernel

/-- R69: the map makes it ACTIVE; physical 17 is an access error. -/
theorem test_mapl :
    ((after (.engMaplWrite 0 0 15 true 0) (eng { loaded := true, tested := true })).engine 0 0 0).state = .active ∧
    (after (.engMaplWrite 0 0 15 true 17) (eng {})).resp.status = 2 ∧
    ((after (.engRetire 0 0 0) (eng {})).engine 0 0 0).state = .retired := by decide +kernel

/-! ## The on-die network -/

/-- Cluster 0 of CD 0 with multicast group 7: VALID, FWD east and south, LOCAL all eight cores, counter 31, offset `off`, and
what waits at local core 0. -/
def grouped (off : Nat) (fl : Flit) : State :=
  { routers := [(0, { q := [(4 * 5 + 1, [fl])] })]
    csr := [csr1 0 .nocMgt 0 7 (2 ^ 63 + 6 <<< 58 + 0xFF <<< 50 + 31 <<< 44 + off <<< 33)] }

theorem witness_multicast :
    let f : Flit := .mc 7 511 65536 9 5 false 0
    let s := grouped 0 f
    (s.router 0 0).edge = [] ∧ (s.router 0 0).queue 5 1 = [f] ∧ linkErrOf 5 .ok = .ok ∧ bit (s.mgt 0 0 7) 63 = true ∧
    (s.router 0 0).seenOf 5 1 = 0 ∧ mgtOutputs (s.mgt 0 0 7) = [1, 2, 5] ∧
    (∀ o ∈ [1, 2, 5], s.granted 0 0 o 1 5 = true) ∧ 128 * 511 < 65536 ∧ 32 * bits (s.mgt 0 0 7) 43 33 + 65536 ≤ 65536 ∧
    bit (s.mgt 0 0 8) 63 = false ∧ linkErrOf 0 .header = .header := by decide +kernel

/-- A vector of 5 bytes at offset 64: its bytes, the counter and the header (R201); the 128 bytes beyond stay. -/
theorem test_multicast :
    let t := after (.multicastFlit 0 0 5 ⟨63, .ok⟩) (grouped 2 (.mc 7 0 5 9 0x0504030201 false 0))
    t.readMem 0 (coreBuf 7 + 64) 6 = [1, 2, 3, 4, 5, 0] ∧ (t.core 0 7).arr 31 = 1 ∧
    Tab.get 0#8 (t.core 0 7).h 31 = 9 ∧ (t.router 0 0).queue 5 1 = [] := by decide +kernel

/-- Taken east alone, the flit waits for its other outputs, and the next taking sends it south and lands it (R200). -/
theorem test_multicast_in_turns :
    let f : Flit := .mc 7 0 5 9 0x0504030201 false 0
    let t := after (.multicastFlit 0 0 5 ⟨2, .ok⟩) (grouped 2 f)
    let u := after (.multicastFlit 0 0 5 ⟨63, .ok⟩) t
    (t.router 0 0).queue 5 1 = [f] ∧ (t.core 0 7).arr 31 = 0 ∧ ((t.router 0 (neighbour 0 1)).queue 3 1).length = 1 ∧
    ((u.router 0 (neighbour 0 1)).queue 3 1).length = 1 ∧ (u.core 0 7).arr 31 = 1 ∧ (u.router 0 0).queue 5 1 = [] := by
  decide +kernel

/-- Port cluster 24 of CD 0, whose group 7 leaves at EDGE for group 40 of die 9: an MCV once the vector is whole (R351). -/
theorem test_multicast_edge :
    let s (bad : Bool) : State := { routers := [(portCluster 0 0, { q := [(4 * 5 + 1, [.mc 7 0 5 9 0x0504030201 bad 0])] })]
                                    csr := [csr1 0 .nocMgt (portCluster 0 0) 7 (2 ^ 63 + 2 ^ 62 + 9 <<< 12 + 40 <<< 2)] }
    let sent (bad : Bool) : List (Nat × Nat × List Byte × Bool) :=
      ((after (.multicastFlit 0 (portCluster 0 0) 5 ⟨63, .ok⟩) (s bad)).fab 0).inbox.map (fun m => (m.ddie, m.group, m.data, m.aborted))
    mgtOutputs ((s false).mgt 0 (portCluster 0 0) 7) = [4] ∧ (s false).granted 0 (portCluster 0 0) 4 1 5 = true ∧
    sent false = [(9, 40, [1, 2, 3, 4, 5], false)] ∧ sent true = [(9, 40, [], true)] := by decide +kernel

theorem witness_credit :
    let s := grouped 0 (.cr 7 31 255)
    (s.router 0 0).queue 5 1 = [.cr 7 31 255] ∧ bit (s.mgt 0 0 7) 63 = true ∧ s.granted 0 0 5 1 5 = true ∧
    (s.router 0 0).edge = [] := by decide +kernel

theorem test_credit : ((after (.creditFlit 0 0 5 ⟨63, .ok⟩) (grouped 0 (.cr 7 31 200))).core 0 0).cred 31 = 200 ∧
    ((play [.creditFlit 0 0 5 ⟨63, .ok⟩, .creditFlit 0 0 5 ⟨63, .ok⟩]
      { grouped 0 (.cr 7 31 200) with routers := [(0, { q := [(21, [.cr 7 31 200, .cr 7 31 200])] })] }).core 0 0).cred 31 = 255 := by
  decide +kernel

/-- The largest fields of every flit form cross a link (R195 to R197). -/
theorem test_linkWords :
    (Flit.red 1023 7 2 true false 1023 15 65535 (BitVec.allOnes 1024) true [3]).overLink =
      .red 1023 7 2 true false 1023 15 65535 (BitVec.allOnes 1024) true [3] ∧
    (Flit.mc 1023 511 131071 255 1 true 5).overLink = .mc 1023 511 131071 255 1 true 5 ∧
    (Flit.cr 1023 31 255).overLink = .cr 1023 31 255 ∧
    (Flit.fab true false true 63 3 (BitVec.allOnes 512)).overLink = .fab true false true 63 3 (BitVec.allOnes 512) := by
  decide +kernel

/-- R207: 2^47 twice in word 21, which lies across two flits, is 0 modulo 2^48; twelve ones in word 63 are twelve. -/
theorem test_reduction_carries :
    let x : BitVec 3072 := BitVec.ofNat 3072 (2 ^ (48 * 21 + 47) + 2 ^ (48 * 63))
    let a := (joinAll [x, x]).emit 0
    let b := a.2.emit 1
    let c := b.2.emit 2
    flitsWord a.1 b.1 c.1 21 = 0 ∧ flitsWord a.1 b.1 c.1 22 = 0 ∧ flitsWord a.1 b.1 c.1 63 = 2 := by decide +kernel

/-- Cluster 0 with reduction tag 1023: VALID, the given ROOT and inputs, one chunk, OUT east or core 0's buffer. -/
def reducing (root : Bool) (inputs count f : Nat) : State :=
  { routers := [(0, { q := [(4 * 5, [.red 1023 0 f false false 482 2 1 (BitVec.ofNat 1024 5) false [0]])] })]
    csr := [csr1 0 .nocRgt 0 2046 (2 ^ 63 + (if root then 2 ^ 62 else 1 <<< 48) + inputs <<< 50),
      csr1 0 .nocRgt 0 2047 count] }

theorem witness_reduction :
    (∀ root, ∀ f ∈ [0, 1, 2],
      let s := reducing root 1 1 f
      let w0 := (s.rgt 0 0 1023).1
      let p := ((Slot.join {} 1023 0 f 0 ⟨false, false, 482, 2, 1, BitVec.ofNat 1024 5, false, [0]⟩).part f)
      bit w0 63 = true ∧ bit w0 50 = true ∧ 0 < (rgtSlots w0).2.2 ∧ p.mask = bits w0 61 50 ∧ bit w0 62 = root ∧
      s.granted 0 0 (if root then 5 else bits w0 49 48) 0 5 = true ∧
      p.mismatch = false ∧ p.count = bits (s.rgt 0 0 1023).2 15 0 ∧ (root = false → hasNeighbour 0 (bits w0 49 48) = true)) ∧
    ((Slot.join {} 1023 0 0 0 ⟨false, false, 482, 2, 1, BitVec.ofNat 1024 5, false, [0]⟩).part 0).mask ≠
      bits ((reducing true 3 2 0).rgt 0 0 1023).1 61 50 := by decide +kernel

/-- An older instance holds the slot: the flit stays, and SLOT_OVERRUN is set (R213). -/
theorem test_overrun :
    let s := reducing true 1 1 0
    let r := s.router 0 0
    let t := after (.reductionFlit 0 0 5 .ok) { s with routers := [(0, { r with slots := [(0, { inst := some 7 })] })] }
    ((t.router 0 0).queue 5 0).length = 1 ∧ bit (t.reg 0 .nocErr 0) 10 = true := by decide +kernel

/-- Another port has the turn of the output, and the flit waits (R211). -/
theorem witness_reduction_waits :
    let s := regs (reducing true 1 1 0) 0 [(.nocMgt, 0, 7, 2 ^ 63 + 0xFF <<< 50)]
    let r := s.router 0 0
    let v : State := { s with routers := [(0, { r with
      q := r.q ++ [(4 * 12 + 1, [.mc 7 0 5 9 0 false 0])]
      arb := [(5, { turn := 1 })] })] }
    v.granted 0 0 5 0 5 = false ∧ (v.rgt 0 0 1023).1 = (s.rgt 0 0 1023).1 ∧
    (after (.reductionFlit 0 0 5 .ok) v).readMem 0 (coreBuf 0 + 256) 2 = [0, 0] := by decide +kernel

/-- A landing at the root: the sum, then the header behind it, then the counter (R208). -/
theorem test_reduction_lands :
    let t := after (.reductionFlit 0 0 5 .ok) (reducing true 1 1 2)
    t.readMem 0 (coreBuf 0 + 256) 2 = [5, 0] ∧ t.readMem 0 (coreBuf 0 + 384) 4 = [0xE2, 0x01, 1, 0] ∧
    (t.core 0 0).arr 0 = 1 := by decide +kernel

/-- The worked example of chapter 07 at the root, cluster 9: 127,490,064,386 at 0x301E as 02 00 00 AF 1D 00. -/
theorem test_worked_reduction :
    let fl (v count : Nat) : Flit := .red 90 0 0 false false 482 2 count (BitVec.ofNat 1024 (v <<< 240)) false [0]
    let s : State :=
      { routers := [(9, { q := [(0, [fl 2 1]), (4, [fl (2 ^ 48 - 40282095616) 2]), (20, [fl 167772160000 1])] })]
        csr := [csr1 0 .nocRgt 9 180 0xCC04E52008223000, csr1 0 .nocRgt 9 181 4] }
    let t := play [.reductionFlit 0 9 1 .ok, .reductionFlit 0 9 5 .ok, .reductionFlit 0 9 0 .ok] s
    s.rgtRefused 0 9 90 0xCC04E52008223000 4 = false ∧
    t.readMem 0 (coreBuf 73 + 0x301E) 6 = [0x02, 0x00, 0x00, 0xAF, 0x1D, 0x00] := by decide +kernel

theorem witness_routerTables :
    ({} : State).clusterStopped 31 63 = true ∧ ({} : State).tagInUse 31 63 1023 = false ∧
    ({} : State).groupInUse 31 63 1023 = false ∧ (reducing true 3 2 0).tagInUse 0 0 1023 = true ∧
    ({ cores := [(0, { run := .active })] } : State).clusterStopped 0 0 = false ∧
    ({} : State).rgtRefused 0 0 0 (2 ^ 63 + 1 <<< 50 + 1 <<< 48) 1 = false := by decide +kernel

/-- R218: written while STOPPED; an access error with a core running. -/
theorem test_routerTables :
    (after (.nocCrtWrite 0 0 255 (w64 (2 ^ 63 + 3))) {}).reg 0 .nocCrt 0 255 = 2 ^ 63 + 3 ∧
    (after (.nocMgtWrite 0 0 0 0) { cores := [(0, { run := .active })] }).resp.status = 2 := by decide +kernel

/-! ## Memory dies -/

/-- MD 32 with one KV8 layer of one head, regions of every kind the tests use, and request 1 open. Its directory entry has
FILL 1, TBASE 1 and node 0 in the tree. -/
def md32 (cmd : List Byte) : State :=
  { regs { mem := [(pkgAddr 32 0, 1#8), (pkgAddr 32 4, 1#8), (pkgAddr 32 8, 1#8)] } 32
      [(.mdaLtab, 0, 0, 2 ^ 63 + 1 <<< 56 + 1 <<< 49), (.mdaRgn, 0, 0, 1 <<< 60 + 1 <<< 59 + 1 <<< 30),
       (.mdaRgn, 1, 0, 2 <<< 60 + 1 <<< 59 + 4 <<< 30 + 1), (.mdaRgn, 2, 0, 4 <<< 60 + 1 <<< 59 + 1 <<< 30 + 5),
       (.mdaRqt, 1, 0, 2 ^ 63)] with
    mds := [(0, { cmds := [⟨⟨0, 38, false, 0⟩, cmd⟩] })] }

def taken (s : State) (op : Nat) : State := match s.takeCmd 32 0 op with | some (_, v) => v | none => {}

def okE {α β : Type} : Except α β → Bool
  | .ok _ => true
  | .error _ => false

/-- RQ_OPEN of slot 2 at 1,024 (accepted) and of slot 1 (held); RQ_RELEASE of slot 1 and of slot 16,383. -/
def openCmd (slot : Nat) : List Byte := bytes 64 [(0, 3), (2, slot), (21, 4)]

theorem witness_requestTables :
    headerOk (openCmd 2) = true ∧ ((md32 (openCmd 2)).takeCmd 32 0 3).isSome = true ∧
    ((md32 (openCmd 2)).rq 32 2).valid = false ∧ ((md32 (openCmd 1)).rq 32 1).valid = true ∧
    insideRegion ((md32 []).region 32 1) 1024 ((md32 []).pairCount 32 * (32 + 272)) = true ∧
    headerOk (bytes 64 [(0, 4), (2, 1)]) = true ∧ ((md32 (bytes 64 [(0, 4), (2, 1)])).takeCmd 32 0 4).isSome = true ∧
    ((md32 []).rq 32 16383).valid = false := by decide +kernel

theorem test_requestTables :
    (after (.rqOpen 32 0) (md32 (openCmd 2))).rq 32 2 = ⟨true, false, 0, 1, 1024⟩ ∧
    bit ((after (.rqOpen 32 0) (md32 (openCmd 1))).reg 32 .mdaErr) 12 = true ∧
    ((after (.rqRelease 32 0) (md32 (bytes 64 [(0, 4), (2, 1)]))).rq 32 1).valid = false := by decide +kernel

/-- FILL is 1: an append at 0 is below it, at 1 is at it, and at 2 above it. -/
theorem witness_appends :
    (((md32 []).readDir 32 1 0).1.map (·.fill)) = some 1 ∧ okE ((md32 []).readPte 32 1 0 (1 / 256)).1 = true ∧
    okE ((md32 []).readPte 32 1 0 (2 / 256)).1 = true ∧
    (md32 []).token 32 ((md32 []).slotAt 32 0 0) false 0 = List.replicate 264 0#8 ∧ 1 % 256 ≠ 0 ∧ 1 % 256 ≠ 255 := by
  decide +kernel

/-- A COMMIT of node 0 at position 1, of node 1 (not in the tree), and of none. -/
def commitCmd (count node : Nat) : List Byte := bytes 64 [(0, 2), (2, 1), (6, count), (8, 1), (16, node)]

theorem witness_commits :
    (∀ c ∈ [(0, 0), (1, 0), (1, 1)], headerOk (commitCmd c.1 c.2) = true ∧
      ((md32 (commitCmd c.1 c.2)).takeCmd 32 0 2).isSome = true) ∧
    (taken (md32 (commitCmd 1 0)) 2).pairs 32 = [(0, 0, 0)] ∧
    ((md32 []).readDir 32 1 0).1 = some ⟨1, 1, 1, false, 0⟩ ∧
    ((taken (md32 (commitCmd 1 1)) 2).commitChecks 32 1 1 [1] { op := 2, slot := 1, sender := 38 } [(0, 0, 0)]).1.isSome = true := by decide +kernel

/-- FILL becomes 2 (R244). -/
theorem test_commit : (after (.commit 32 0) (md32 (commitCmd 1 0))).readMem 32 0 1 = [2] ∧
    (after (.commit 32 0) (md32 (commitCmd 0 0))).readMem 32 0 1 = [1] := by decide +kernel

/-- A GATHER of 129 bytes at row 0, and at row 2,000 outside the region. -/
def gatherCmd (row : Nat) : List Byte := bytes 68 [(0, 5), (2, 1), (24, 129), (64, row % 256), (65, row / 256)]

theorem witness_gathers :
    headerOk (gatherCmd 0) = true ∧ ((md32 (gatherCmd 0)).takeCmd 32 0 5).isSome = true ∧
    (md32 []).region 32 4 = some (5 * 65536, 65536) ∧
    insideRegion ((md32 []).region 32 4) (5 * 65536) 129 = true ∧
    insideRegion ((md32 []).region 32 4) (5 * 65536 + 129 * 2000) 129 = false := by decide +kernel

/-- An ATTEND of one causal row at position 0. -/
def attendCmd : List Byte := bytes 193 [(0, 1), (2, 1)]

theorem witness_attention :
    let s := md32 attendCmd
    let v := taken s 1
    let y := v.layer 32 0
    let a := AttendCmd.of y attendCmd
    s.memErr = [] ∧ headerOk attendCmd = true ∧ (v.rq 32 1).valid = true ∧ y.valid = true ∧
    v.cmdLen 32 attendCmd = .bytes 193 ∧ (v.readDirs 32 1 [0]).1 = some [⟨1, 1, 1, false, 0⟩] ∧ y.hkv = 1 ∧
    attendCheck a (v.rq 32 1) [⟨1, 1, 1, false, 0⟩] = none ∧ attendCheck a (v.rq 32 1) [⟨0, 0, 1, false, 0⟩] = some 4 ∧
    okE (v.attendAppends 32 y a 0 { op := 1, slot := 1, layer := 0, sender := 38 }) = true ∧
    okE (v.readPte 32 1 0 0).1 = true ∧ rowPositions y a 1 0 (v.rowPages 32 y a 0 0 0) = [(0, [(0, none)])] := by
  decide +kernel

theorem witness_memoryForm :
    (md32 (bytes 64 [(0, 4), (2, 1)])).takeCmd 32 1 4 = none ∧
    headerOk (bytes 64 [(0, 4), (2, 1), (8, 1)]) = false ∧
    ((md32 (bytes 64 [(0, 4), (2, 1), (8, 1)])).takeCmd 32 0 4).isSome = true := by decide +kernel

theorem test_memoryForm :
    bit ((after (.rqRelease 32 0) (md32 (bytes 64 [(0, 4), (2, 1), (8, 1)]))).reg 32 .mdaErr) 0 = true := by decide +kernel

/-- The words of a whole layer-table entry. -/
def ltabWords : List Word64 := w64 (2 ^ 63 + 1 <<< 56 + 1 <<< 49) :: List.replicate 15 0

theorem noRequest (n : Nat) : bit (({} : State).reg 35 .mdaRqt n 0) 63 = false := by
  have h : Reg.reset ⟨.mdaRqt, n, 0⟩ 35 = 0 := rfl
  have g : Tab.get 0#64 ({} : State).csr (pkgAddr 35 (Reg.off ⟨.mdaRqt, n, 0⟩)) = 0#64 := Tab.get_nil _ _
  unfold State.reg
  rw [h, g]; rfl

theorem witness_layerTable :
    ({} : State).ltabRefused 35 4095 (fun i => match ltabWords[i]? with
      | some v => v.toNat
      | none => ({} : State).reg 35 .mdaLtab 4095 i) = false := by
  unfold State.ltabRefused
  simp only [noRequest]
  have h : (List.range 16384).any (fun _ => false) = false := by simp
  rw [h]
  decide +kernel

theorem witness_scrubs_and_locks :
    bit ((md32 []).reg 32 .mdaRqt 1 0) 63 = true ∧
    ({ memErr := [(pkgAddr 32 (burstAt 0 0) / 8, 1)] } : State).hbmErrs 32 (burstAt 0 0) 64 = [(burstAt 0 0, 1)] := by
  decide +kernel

theorem test_scrubBurst :
    (after (.hbmScrubBurst 32 0) { memErr := [(pkgAddr 32 (burstAt 0 0) / 8, 1)] }).memErr = [] ∧
    (after (.ltabWrite 32 0 0 ltabWords) (md32 [])).resp.status = 2 := by decide +kernel

/-! ## Serving -/

/-- The serving engine open for requests: EN, the waggle counter LOCAL, quotas of context 0 unlimited, V = 65,536. -/
def serving : State :=
  regs {} 38 [(.srvCtl, 0, 0, 2 ^ 31), (.wagStat, 0, 0, 2 <<< 29), (.smpCfg, 0, 0, 1 <<< 28 + 65535),
    (.secQuotaa, 0, 0, 2 ^ 63 + 16384 <<< 32)]

/-- A SUBMIT of one prompt token with TOPK `topk` and FLAGS `fl`, its ring at 0x1000. -/
def submitEntry (topk fl : Nat) : List Byte :=
  bytes 128 ([(0, 1), (9, 0x10), (20, 5), (72, 1), (76, 1), (80, topk), (82, fl), (86, 0x80), (87, 0x3F), (90, 0x80),
    (91, 0x3F), (100, 1)] ++ (List.range 16).map (fun i => (104 + i, 0xFF)))

/-- A GEN of one prompt token at temperature 1. -/
def genEntry : List Byte :=
  bytes 64 [(0, 1), (6, 4), (16, 1), (20, 1), (26, 0x80), (27, 0x3F), (30, 0x80), (31, 0x3F), (49, 0x10), (56, 5)]

theorem witness_submissions :
    (∀ p ∈ [(4, 0), (0, 0), (4, 8)],
      takes (cmdState 0 0 false (submitEntry p.1 p.2) serving) 0 0 false 1 0 (submitEntry p.1 p.2) = true) ∧
    takes (cmdState 1024 63 true genEntry serving) 1024 63 true 1 0 genEntry = true ∧
    serving.paramOk (submitSlot 0 (submitEntry 4 0)) = true ∧ serving.paramOk (submitSlot 0 (submitEntry 0 0)) = false ∧
    serving.paramOk (genSlot 1024 genEntry) = true ∧ serving.freeSlot = some 0 ∧
    serving.waitChecks (submitSlot 0 (submitEntry 4 0)) 0 = none ∧ serving.waitChecks (genSlot 1024 genEntry) 0 = none ∧
    serving.waitChecks (submitSlot 0 (submitEntry 4 8)) 1 = some 0x05 ∧
    (submitSlot 0 (submitEntry 4 8)).flag 3 = true ∧ (submitSlot 0 (submitEntry 4 0)).flag 3 = false ∧
    (submitSlot 0 (submitEntry 4 0)).rsz = 5 ∧ (submitSlot 0 (submitEntry 4 0)).ring = 4096 := by decide +kernel

theorem witness_submissions_takes : (cmdState 0 0 false (submitEntry 4 0) serving).Takes 0 0 false 1 0 (submitEntry 4 0) :=
  takes_sound (by decide +kernel)

/-- Accepted (slot 0 OPENING), refused with PARAM, and a CP1 request accepted. -/
theorem test_submit :
    (let t := after (.submit 0 0) (cmdState 0 0 false (submitEntry 4 0) serving); (t.sstate 0, posted t) = (1, [(0, 0)])) ∧
    (let t := after (.submit 0 0) (cmdState 0 0 false (submitEntry 0 0) serving); (t.sstate 0, posted t) = (0, [(2, 1)])) ∧
    (let t := after (.gen 1024 63) (cmdState 1024 63 true genEntry serving); (t.sstate 0, posted t) = (1, [(0, 0)])) := by
  decide +kernel

/-- Slot 0 in a state, with 2 tokens generated and 1 acknowledged. -/
def slot0 (st : Nat) (x : SlotSt := {}) : State :=
  { regs serving 38 [(.srvSlot0, 0, 0, st <<< 61), (.srvSlot1, 0, 0, 2 <<< 24 + 1)] with srv := { slots := [(0, { x with recs := 2 })] } }

theorem witness_cancelAndAck :
    (slot0 3).mayTouch .firmware 0 = true ∧ (slot0 3).mayTouch (.pf 0) 0 = true ∧
    (∀ st ∈ [1, 2, 3, 4, 7], (slot0 st).sstate 0 = st) ∧ (slot0 3).generated 0 - (slot0 3).ackedOf 0 = 1 ∧
    takes (cmdState 0 0 true (bytes 64 [(0, 2)]) (slot0 3)) 0 0 true 2 0 (bytes 64 [(0, 2)]) = true ∧
    takes (cmdState 0 0 false (bytes 128 [(0, 2)]) (slot0 5)) 0 0 false 2 0 (bytes 128 [(0, 2)]) = true ∧
    takes (cmdState 0 0 false (bytes 128 [(0, 4), (24, 1)]) (slot0 3)) 0 0 false 4 0 (bytes 128 [(0, 4), (24, 1)]) = true ∧
    (slot0 3).mayTouch (whoOf 0) 0 = true := by decide +kernel

theorem test_cancelAndAck :
    (after (.slotCancel .firmware 0) (slot0 3)).sstate 0 = 5 ∧ (after (.slotCancel .firmware 0) (slot0 7)).sstate 0 = 0 ∧
    (after (.slotAck .firmware 0 1) (slot0 3)).ackedOf 0 = 2 ∧ (after (.slotAck .firmware 0 2) (slot0 3)).resp.status = 2 ∧
    posted (after (.cp2Ack 0 0) (cmdState 0 0 false (bytes 128 [(0, 4), (24, 1)]) (slot0 3))) = [(0, 0)] := by decide +kernel

/-- A DRAFT of 8 bytes for slot 0. -/
theorem witness_drafts :
    takes (cmdState 0 0 false (bytes 128 [(0, 3), (16, 8)]) (slot0 3)) 0 0 false 3 0 (bytes 128 [(0, 3), (16, 8)]) = true ∧
    (slot0 3).mayTouch (.vf 0 1) 0 = true ∧
    (regs (slot0 3) 38 [(.srvSlot0, 0, 0, 3 <<< 61 + 5 <<< 51)]).mayTouch (.vf 0 1) 0 = false := by decide +kernel

theorem test_drafts :
    ((after (.draft 0 0) (cmdState 0 0 false (bytes 128 [(0, 3), (16, 8)]) (slot0 3))).host.reads.map (fun r => r.len)) = [8] ∧
    (after (.draftWindowWrite .firmware 0 254 [1, 2]) (slot0 3)).readMem 38 (draftOff 0 + 254) 2 = [1, 2] := by decide +kernel

/-- A completion record of MD 35 with OP `op`, OK, for slot 0. -/
def record (op : Nat) : Nat × List Byte := (35, bytes 8 [(1, op)])

def recorded (op st : Nat) (x : SlotSt) : State :=
  let s := slot0 st x
  { s with srv := { s.srv with records := [record op] } }

theorem witness_injections :
    (recorded 3 1 { openWait := 8 }).sstate 0 = 1 ∧ (recorded 4 6 { relWait := 8 }).sstate 0 = 6 ∧
    bit ((recorded 2 3 { comWait := 8 }).slot 0).comWait 3 = true ∧ byteAt (record 3).2 1 = 3 ∧ numAt (record 3).2 2 2 = 0 ∧
    serving.nextSlot = none ∧ (slot0 3 { block := (submitEntry 4 0).drop 64 |>.set 36 9, rsz := 5 }).nextSlot = some 0 ∧
    (slot0 2 { block := (submitEntry 4 0).drop 64 |>.set 36 9, chunk := some [7] }).nextSlot = some 0 ∧
    (slot0 5).sstate 0 = 5 := by decide +kernel

theorem test_injections :
    (after .completionRecord (recorded 4 6 { relWait := 8 })).sstate 0 = 0 ∧
    ((after .injection (slot0 2 { block := (submitEntry 4 0).drop 64 |>.set 36 9, chunk := some [7] })).slot 0).prompt = 1 ∧
    (after (.slotRelease 0) (slot0 5)).sstate 0 = 6 := by decide +kernel

/-- The two candidate lists of the worked example "one draw" of chapter 09. -/
def candList (l : List (Nat × Nat)) : List Byte := l.flatMap (fun p => toBytes 8 (p.1 + p.2 <<< 32))

def drawing (greedy : Bool) : State :=
  let x : SlotSt := { block := (submitEntry 4 (b2n greedy)).drop 64, inj := some ⟨1, 1, 8999, true⟩ }
  let s := slot0 3 x
  { s with srv := { s.srv with
      due := [(0, 0)]
      lists := [(0, [candList [(7, 0x3F800000), (300, 0x3F800000), (41, 0xBF800000), (9, 0xC0200000)]]),
        (1, [candList [(40000, 0x40000000), (33000, 0xBFC00000), (50001, 0xC0400000), (60000, 0xC0800000)]])] } }

/-- The merge keeps 40,000, 7, 300 and 41 in that order. -/
theorem witness_tokens :
    ((drawing true).frontLists.map (fun ls => (mergeCands ls 4).map (·.tok))) = some [40000, 7, 300, 41] ∧
    (drawing false).vocab = 65536 ∧ (drawing false).sstate 0 = 3 ∧ ((drawing true).slot 0).flag 0 = true ∧
    ((drawing true).slot 0).tree = none ∧ listPoison (toBytes 8 (2 ^ 31)) = true ∧
    finite32 0x40000000 = true := by decide +kernel

theorem test_greedy : (after .foragerDraw (drawing true)).srv.drawn.map (fun d => (d.slot, d.tok, d.pos)) = [(0, 40000, 9000)] := by
  decide +kernel

/-- A drawn token of slot 0, which is its last by MAXNEW = 3 (2 are generated). -/
def drawn (maxnew : Nat) : State :=
  let s := slot0 3 { block := (((submitEntry 4 0).drop 64).set 12 (BitVec.ofNat 8 maxnew)).set 36 9, rsz := 5, ring := 4096
                     inj := some ⟨1, 1, 8, true⟩ }
  { s with srv := { s.srv with drawn := [⟨0, 11, 9, 0, 0, false, true⟩] } }

theorem witness_tokenCommit :
    (drawn 3).sstate 0 = 3 ∧ ((drawn 3).slot 0).maxnew = 3 ∧ ((drawn 3).slot 0).stop 0 = 0xFFFFFFFF ∧
    (slot0 3 { cp1 := true, deadline := 100 }).hc ≤ 10000 ∧ 100 ≤ usBetween 0 10000 ∧
    (regs (slot0 3) 38 [(.srvSlot1, 0, 0, 0)]).generated 0 = 0 := by decide +kernel

theorem test_tokenCommit :
    (after .tokenCommit (drawn 3)).sstate 0 = 5 ∧ (after .tokenCommit (drawn 4)).sstate 0 = 3 ∧
    (after .tokenCommit (drawn 4)).generated 0 = 3 ∧ (after .tokenCommit (drawn 4)).spos 0 = 9 := by decide +kernel

/-- A token drawn before its request ended is still delivered (R276). -/
def owing : State :=
  let s := slot0 5 { block := ((submitEntry 4 0).drop 64).set 36 9, rsz := 5, ring := 4096, owed := true }
  { s with srv := { s.srv with drawn := [⟨0, 11, 9, 0, 0, false, true⟩] } }

theorem test_owed : (owing.slot 0).owed = true ∧ (after .tokenCommit owing).generated 0 = 3 ∧
    (after .tokenCommit owing).sstate 0 = 5 := by decide +kernel

theorem witness_costsAndQuotas :
    bits (16384 <<< 48 + 16384 <<< 32) 62 48 ≤ 16384 ∧ 16384 < bits (16385 <<< 48) 62 48 ∧ serving.srv.queue = [] := by
  decide +kernel

theorem test_quota : (after (.quotaWrite 1023 0 (w64 (16385 <<< 48))) serving).resp.status = 2 ∧
    (after (.quotaWrite 1023 0 (w64 (16384 <<< 48))) serving).fld 38 .secQuotaa 62 48 1023 = 16384 := by decide +kernel

/-! ## Host ports -/

/-- Pair `q` of function `fn` in state `st` (0 DISABLED, 1 ACTIVE, 2 ERROR) with queues of 16, its pair state `p`. -/
def pairIn (fn q st : Nat) (p : Pair) (s : State := {}) : State :=
  { regs s (38 + fnPort fn) [(.cmdQcfg, fnNo fn, q, (if st = 0 then 0 else 2 ^ 31) + st <<< 28 + 0x44)] with
    host := { s.host with pairs := if p = {} then [] else [(64 * fn + q, p)] } }

theorem witness_hostQueues :
    pairExists 0 63 = true ∧ pairExists (1024 + 512) 3 = true ∧
    (let s := pairIn 0 63 1 { tail := 1 }; s.qstate 0 63 = 1 ∧ (s.pair 0 63).tail ≠ (s.pair 0 63).fetched % s.sqSize 0 63 ∧
      0 < s.cqSize 0 63) ∧
    (pairIn 0 0 1 {}).sqSize 0 0 = 16 ∧ (pairIn 0 0 1 { posted := 20, consumed := 5 }).cqSize 0 0 = 16 ∧
    (pairIn 0 0 0 {}).qstate 0 0 = 0 ∧ (pairIn 0 0 2 {}).qstate 0 0 ≠ 1 ∧ bit ((pairIn 0 0 0 {}).qcfg 0 0) 31 = false ∧
    sizeOk 0 4 = true ∧ (regs {} 38 [(.cmdVfctx, 511, 0, 2 ^ 31)]).fld 38 .cmdVfctx 31 31 511 = 1 ∧
    bit ((pairIn 0 0 1 {}).qcfg 0 0) 31 = true := by decide +kernel

/-- R417, R418: a fetch of 128 bytes at the base; a doorbell beyond the queue is ERROR; EN makes it ACTIVE. -/
theorem test_hostQueues :
    ((after (.sqFetch 0 63) (pairIn 0 63 1 { tail := 1 })).host.reads.map (fun r => (r.addr, r.len))) = [(0, 128)] ∧
    (after (.cmdSqtdb 0 0 (w64 16)) (pairIn 0 0 1 {})).qstate 0 0 = 2 ∧
    (after (.cmdSqtdb 0 0 (w64 15)) (pairIn 0 0 1 {})).qstate 0 0 = 1 ∧
    (after (.queueEnable 0 0 (w64 (2 ^ 31 + 0x44))) (pairIn 0 0 0 {})).qstate 0 0 = 1 ∧
    (after (.queueDisable 0 0 (w64 0x44)) (pairIn 0 0 1 {})).qstate 0 0 = 0 := by decide +kernel

theorem test_cqDoorbell :
    ((after (.cmdCqhdb 0 0 (w64 4)) (pairIn 0 0 1 { posted := 20, consumed := 5 })).pair 0 0).consumed = 20 := by
  decide +kernel

/-- REG_READ of CD 0's COUNT of a cluster register: an entry for the address `a`. -/
def regEntry (op a : Nat) : List Byte := bytes 128 ((0, op) :: (List.range 8).map (fun i => (24 + i, a / 256 ^ i % 256)))

/-- PWR_PKGCAP of KD0 in package 0, and in package 5. -/
def capAddr (pkg : Nat) : Nat := pkg * 2 ^ 52 + 38 * 2 ^ 46 + 0x3F00B0000100

theorem witness_registerCommands :
    takes (cmdState 0 0 false (regEntry 0x10 (capAddr 0))) 0 0 false 0x10 0 (regEntry 0x10 (capAddr 0)) = true ∧
    addrPkg (capAddr 0) = ({} : State).pkgId 38 ∧ addrPkg (capAddr 5) ≠ ({} : State).pkgId 38 ∧ addrDie (capAddr 5) = 38 ∧
    (let r := (cmdState 0 0 false (regEntry 0x10 (capAddr 0))).cmdAccess 0 (.regCmd 0 0 0) (capAddr 0) 4 none;
      r.1 ≠ isoStatus ∧ r.1 ≠ waitStatus ∧ r.2.2.host.pairs = (cmdState 0 0 false (regEntry 0x10 (capAddr 0))).host.pairs) ∧
    ((cmdState 0 0 false []).fab 38).freeTag 0 = some 0 ∧
    takes (cmdState 1 0 false (regEntry 0x10 (capAddr 5))) 1 0 false 0x10 0 (regEntry 0x10 (capAddr 5)) = true := by
  decide +kernel

/-- REG_READ answers the reset value 6,500; one to another package goes out as one message. -/
theorem test_regRead :
    posted (after (.regRead 0 0) (cmdState 0 0 false (regEntry 0x10 (capAddr 0)))) = [(0, 6500)] ∧
    ((after (.regRead 0 0) (cmdState 0 0 false (regEntry 0x10 (capAddr 5)))).fab 38).inbox.map (fun m => (m.dpkg, m.ddie)) =
      [(5, 38)] := by decide +kernel

/-- CD 0's route from KD0 is DOWN for want of a link: the command waits for its request's answer. -/
theorem witness_registerWait :
    let e := regEntry 0x10 (0x1FFFFF8)
    let s := cmdState 0 0 false e
    takes s 0 0 false 0x10 0 e = true ∧ (s.cmdAccess 0 (.regCmd 0 0 0) 0x1FFFFF8 4 none).1 = waitStatus ∧
    (s.cmdAccess 0 (.regCmd 0 0 0) 0x1FFFFF8 4 none).2.2.host.pairs = s.host.pairs ∧
    posted (after (.regRead 0 0) s) = [] := by decide +kernel

/-- MEM_READ and MEM_WRITE of 64 bytes of MD 32 to host address 0x40. -/
def moveEntry (op a n : Nat) : List Byte :=
  bytes 128 ([(0, op), (8, 0x40), (16, n)] ++ (List.range 8).map (fun i => (24 + i, a / 256 ^ i % 256)))

/-- Memory move entry `op` of `n` bytes of the embedding region of MD 32, in a wired package. -/
def moving (op n : Nat) : List Byte × State :=
  let e := moveEntry op (32 * 2 ^ 46 + 0x50000) n
  (e, wired (cmdState 0 0 false e { md32 [] with mem := [(pkgAddr 32 0x50001, 7#8)] }))

theorem witness_memoryMoves :
    (∀ op ∈ [0x12, 0x13], ∀ n ∈ [64, 65], takes (moving op n).2 0 0 false op 0 (moving op n).1 = true) ∧
    (let s := (moving 0x13 64).2;
     let r := (s.begun 0 0 0).cmdAccess 0 (.move 0 0 0) (32 * 2 ^ 46 + 0x50000) 64 none;
     r.1 = 0 ∧ r.2.2.host = (s.begun 0 0 0).host ∧ r.2.2.qcfg 0 0 = s.qcfg 0 0) := by decide +kernel

theorem test_memoryMoves :
    (after (.memRead 0 0) (moving 0x13 64).2).host.out.head? = some (.write 0 0x40 (bytes 64 [(1, 7)])) ∧
    posted (after (.memRead 0 0) (moving 0x13 65).2) = [(4, 0)] ∧
    ((after (.memWrite 0 0) (moving 0x12 64).2).host.reads.map (fun r => (r.addr, r.len))) = [(0x40, 64)] := by decide +kernel

theorem witness_eventsAndNops :
    takes (cmdState 0 0 false (bytes 128 [(0, 0x3F)])) 0 0 false 0x3F 0 (bytes 128 [(0, 0x3F)]) = true ∧
    takes (cmdState 0 0 true (bytes 64 [(0, 5)])) 0 0 true 5 0 (bytes 64 [(0, 5)]) = true ∧
    takes (cmdState 0 0 false (bytes 128 [(0, 0x30)])) 0 0 false 0x30 0 (bytes 128 [(0, 0x30)]) = true ∧
    (cmdState 0 0 false (bytes 128 [(0, 0x30)])).qstate 0 0 ≠ 3 ∧
    ([(3, 2, 9)] : List (Nat × Nat × Nat)).find? (fun e => decide (e.1 / 8 = 0)) = some (3, 2, 9) := by decide +kernel

/-- A pending event of kind 3, twice, with detail 9. -/
theorem test_events :
    posted (after (.nop 0 0) (cmdState 0 0 false (bytes 128 [(0, 0x3F)]))) = [(0, 0)] ∧
    posted (after (.cp1Nop 0 0) (cmdState 0 0 true (bytes 64 [(0, 5)]))) = [(0, 0)] ∧
    (after (.eventWait 0 0) (cmdState 0 0 false (bytes 128 [(0, 0x30)]))).host.waits = [(0, 0, 0)] ∧
    posted (after (.eventWait 0 0) (let s := cmdState 0 0 false (bytes 128 [(0, 0x30)])
      { s with host := { s.host with events := [(3, 2, 9)] } })) = [(0, 3 + 2 * 256 + 9 * 2 ^ 32)] := by decide +kernel

/-- PROG_STAGE of `len` bytes at byte `off` of MD 32, whose embedding region is 64 KiB from 0x50000 on. -/
def stageEntry (off len : Nat) : List Byte :=
  bytes 128 ([(0, 0x20)] ++ (List.range 4).map (fun i => (16 + i, len / 256 ^ i % 256)) ++
    (List.range 8).map (fun i => (24 + i, off / 256 ^ i % 256)))

def staging (b : List Byte) : State := cmdState 0 0 false b (md32 [])

theorem witness_programStaging :
    (∀ p ∈ [(0x50000, 65536), (0x50001, 64), (0x50000, 0)], takes (staging (stageEntry p.1 p.2)) 0 0 false 0x20 0
      (stageEntry p.1 p.2) = true) ∧
    (staging []).swState ≠ 3 ∧ (staging []).swState ≠ 4 ∧ (staging []).fld 38 .wgtSeal 30 30 = 0 ∧ (staging []).stageState ≠ 1 ∧
    insideRegion ((staging []).region 32 4) 0x50000 65536 = true ∧
    takes (staging (bytes 128 [(0, 0x21)])) 0 0 false 0x21 0 (bytes 128 [(0, 0x21)]) = true ∧
    (let t := after (.progStage 0 0) (staging (stageEntry 0x50000 64));
      (t.host.stage.map (fun x => (x.fn, x.q, x.id))) = some (0, 0, 0) ∧ t.memErr = [] ∧
      (t.pair 0 0).cmds.find? (fun c => decide (c.id = 0)) = some { id := 0, bytes := some (stageEntry 0x50000 64), started := true })
    := by decide +kernel

theorem test_programStaging :
    (after (.progStage 0 0) (staging (stageEntry 0x50000 64))).stageState = 1 ∧
    posted (after (.progStage 0 0) (staging (stageEntry 0x50001 64))) = [(0x0D, 0)] ∧
    posted (after (.progUnstage 0 0) (staging (bytes 128 [(0, 0x21)]))) = [(0, 0)] := by decide +kernel

/-- An image of zeros is not the one whose digest the command gave: DIGEST. -/
theorem test_stageHash :
    posted (play [.progStage 0 0, .stageHashDone] (staging (stageEntry 0x50000 64))) = [(0x0D, 0)] := by decide +kernel

theorem witness_hostMemoryReads :
    (let s := after (.sqFetch 0 0) (pairIn 0 0 1 { tail := 1 });
      (s.findRead 0 0).map (fun r => (r.use, r.len)) = some (.entry 0 0 0, 128) ∧ s.qstate 0 0 = 1) ∧
    (let s : State := { slot0 2 {} with host := { reads := [⟨0, 0, 0, 4, 0, .prompt 0⟩] } };
      (s.findRead 0 0).map (fun r => r.use) = some (.prompt 0) ∧ s.sstate 0 = 2 ∧ s.vocab = 65536) ∧
    ({} : State).findRead 1 16383 = none ∧ hostLimit 0 = some 4000000 ∧
    ({} : State).fld 38 .cmdHtmo 31 16 * 100000 = 100000000 := by decide +kernel

theorem test_hostMemoryReads :
    ((play [.sqFetch 0 0, .hostReadCompletion 0 0 false []] (pairIn 0 0 1 { tail := 1 })).qstate 0 0) = 2 ∧
    (play [.sqFetch 0 0, .hostReadTimeout 0 0 4000000] (pairIn 0 0 1 { tail := 1 })).host.quar = [(0, 0, 4000000)] ∧
    (play [.sqFetch 0 0, .hostReadTimeout 0 0 4000000, .hostTagRelease 0 0 104000000] (pairIn 0 0 1 { tail := 1 })).host.quar =
      [] := by decide +kernel

theorem witness_hostUnits :
    ({} : State).semHeld 255 = false ∧ (regs {} 38 [(.sem, 255, 0, 2 ^ 31 + 1024)]).semHeld 255 = true ∧
    (regs {} 38 [(.sem, 255, 0, 2 ^ 31 + 1024)]).fld 38 .sem 10 0 255 = Who.code (.pf 1) ∧ Who.code (.vf 1 512) < 2048 ∧
    ({} : State).host.takeWon < 2 ∧ fnPort (1024 + 512) < 2 ∧ fnNo 1 ≠ 0 ∧ fnNo (1024 + 512) ≤ 512 ∧
    bit (({} : State).reg 38 .cmdAper 15) 0 = false ∧
    bit ((regs {} 38 [(.cmdAper, 15, 0, 1)]).reg 38 .cmdAper 15) 0 = true ∧ bit ({} : State).plat.ready 0 = false ∧
    (∀ e ∈ (slot0 3).srv.slots, e.1 < 16384) := by decide +kernel

/-- The port that did not win the last tie wins; the owner gives, another's GIVE is an access error (R437, R438). -/
theorem test_semaphores :
    (after (.semTake 0 [.pf 0, .pf 1]) {}).reg 38 .sem 0 = 2 ^ 31 ∧
    (after (.semGive (.pf 1) 0) (after (.semTake 0 [.pf 0]) {})).resp.status = 2 ∧
    (after (.semGive (.pf 0) 0) (after (.semTake 0 [.pf 0]) {})).reg 38 .sem 0 = 0 := by decide +kernel

/-- SEM is in view P: a virtual function and the debug port get an access error, the former an isolation event (R9). -/
theorem test_semaphoreViews :
    inViewP (.vf 1 512) = false ∧ inViewP .jtag = false ∧ inViewP (.pf 1) = true ∧
    (let t := after (.semTake 0 [.vf 0 1]) {}; (t.semHeld 0, t.resp.status, t.fld 38 .secIso 15 0)) = (false, 2, 1) ∧
    (let t := after (.semGive .jtag 0) {}; (t.resp.status, t.fld 38 .secIso 15 0)) = (2, 0) := by decide +kernel

theorem test_hostUnits :
    (after (.functionLevelReset 1) (slot0 3 { fn := 1 })).sstate 0 = 5 ∧
    (after (.configurationRequest 0 9 0 none) {}).host.out = [.tlp 0 9 2 []] ∧
    (after (.apertureAccess 0 15 0 9 4 none none) {}).host.out = [.tlp 0 9 0 [0, 0, 0, 0]] := by decide +kernel

/-- PWR_PKGCAP is in view of firmware and of a physical function, CORE_SOFT of core 511; an offset between registers is in
none. -/
theorem witness_registerAccesses :
    (match findReg 38 0x3F00B0000100 4 with | some (.ok r) => decide (r = ⟨.pwrPkgcap, 0, 0⟩) | _ => false) = true ∧
    ({} : State).inView (({} : State).accessor .firmware) 38 ⟨.pwrPkgcap, 0, 0⟩ = true ∧
    ({} : State).dieOf .firmware = 38 ∧ ((wired {}).tagAtOnce (({} : State).accessor .firmware) 0).isSome = true ∧
    barReaches .firmware 0 0 = true ∧ barReaches (.vf 0 1) 38 0x3F00B0000100 = false ∧
    (wired {}).readsMirror 38 ⟨.pwrPkgcap, 0, 0⟩ = false ∧ ({} : State).readsMirror 39 ⟨.srvCtl, 0, 0⟩ = true ∧
    (match findReg 0 (Reg.off ⟨.coreSoft, 511, 0⟩) 4 with | some (.ok r) => decide (r = ⟨.coreSoft, 511, 0⟩) | _ => false) = true ∧
    ({} : State).whoCtx (.pf 1) = none ∧ ({} : State).coreState 0 511 = 0 ∧
    ({ cores := [(0, { run := .active })] } : State).coreState 0 0 ≠ 0 ∧
    regOver 38 0x3F00B0000102 = some ⟨.pwrPkgcap, 0, 0⟩ ∧ regAt 38 0x3F00B0000102 ≠ some ⟨.pwrPkgcap, 0, 0⟩ := by
  decide +kernel

theorem test_registerAccesses :
    (after (.readClear .firmware 38 0x3F00B0000100 32) {}).resp.data = toBytes 4 6500 ∧
    (after (.registerWrite .firmware 0 0x1FFFFF8 64 (w64 5)) (wired {})).readMem 0 0x1FFFFF8 1 = [5] ∧
    (after (.registerWrite .firmware 0 0 64 (w64 5)) (wired { cores := [(0, { run := .active })] })).resp.status = 2 ∧
    (after (.readClear (.vf 0 1) 38 0x3F00B0000100 32) {}).resp = ⟨2, [0, 0, 0, 0]⟩ := by
  decide +kernel

/-! ## Package fabric and links -/

/-- A wired package with message `m` in the inbox of die `d`. -/
def arrived (d : Nat) (m : Msg) (reqs : List Req := []) : State :=
  let s := wired (md32 [])
  { s with mem := [(pkgAddr 32 0x50001, 7#8)], fabs := [(d, { inbox := [m], reqs })] }

/-- A read of 64 bytes of MD 32 by KD0, seen on CD 0 (it came in on link 0) or at MD 32. -/
def readMsg : Msg := { type := 1, priv := true, ddie := 32, sdie := 38, unit := 1, tag := 9, gen := 3, addr := 0x50000, len := 64, inp := 0 }

def takenMsg (s : State) (d type : Nat) : Option Msg := (s.takeMsg d 0 type).map (·.1)

theorem witness_fabricMessages :
    (let s := arrived 0 readMsg
     takenMsg s 0 1 = some readMsg ∧ s.takeMsg 0 1 1 = none ∧ s.waitsHere 0 readMsg = false ∧ s.endsHere 0 readMsg = false ∧
     ownSend 0 readMsg = false ∧ readMsg.dpkg = s.pkgId 0 ∧ bit (s.reg 0 .pfabRt 32) 31 = true ∧
     s.linkState 0 (s.reg 0 .pfabRt 32 % 8) ≠ 4) ∧
    (let s := arrived 32 readMsg
     takenMsg s 32 1 = some readMsg ∧ s.waitsHere 32 readMsg = false ∧ s.endsHere 32 readMsg = true) ∧
    takenMsg (arrived 32 { readMsg with type := 2, data := bytes 64 [(0, 1), (1, 2)] }) 32 2 = some { readMsg with type := 2, data := bytes 64 [(0, 1), (1, 2)] } ∧
    (let m : Msg := { type := 3, ddie := 38, sdie := 32, unit := 1, tag := 9 }
     let s := arrived 38 m [⟨1, 9, 0, true, false, 0, .resp, 0⟩]
     takenMsg s 38 3 = some m ∧ s.endsHere 38 m = true ∧ (s.fab 38).match? m = some ⟨1, 9, 0, true, false, 0, .resp, 0⟩ ∧
     (s.fab 38).waits = []) ∧
    (∀ d ∈ [0, 32, 38], let m : Msg := { type := 5, ddie := d, len := 64, data := bytes 64 [(0, 4), (2, 1)], group := 3 }
      takenMsg (arrived d m) d 5 = some m ∧ (arrived d m).waitsHere d m = false ∧ (arrived d m).endsHere d m = true) ∧
    (arrived 32 {}).cmdLen 32 (bytes 64 [(0, 4), (2, 1)]) = .bytes 64 ∧ (arrived 38 {}).servingDie = 38 ∧
    (let m : Msg := { type := 6, group := 3, ctr := 31, amt := 2, inp := 1 }
     takenMsg (arrived 0 m) 0 6 = some m ∧ (arrived 0 m).endsHere 0 m = true) := by decide +kernel

/-- In transit; answered with its bytes; a credit enters at cluster 31 from link 1 (R336, R348, R351). -/
theorem test_messages :
    ((after (.rd 0 0) (arrived 0 readMsg)).link 0 4).tx.q.map (fun x => x.msg.tag) = [9] ∧
    ((after (.rd 32 0) (arrived 32 readMsg)).fab 32).inbox.map (fun m => (m.type, m.tag, m.gen, m.ddie, m.data.take 2)) =
      [(3, 9, 3, 38, [0, 7])] ∧
    (after (.wr 32 0) (arrived 32 { readMsg with type := 2, data := bytes 64 [(0, 1), (1, 2)] })).readMem 32 0x50000 2 = [1, 2] ∧
    ((after (.mcc 0 0) (arrived 0 { type := 6, group := 3, ctr := 31, amt := 2, inp := 1 })).router 0 31).queue 4 1 = [.cr 3 31 2]
    := by decide +kernel

theorem test_mcv :
    ((after (.mcv 32 0) (arrived 32 { type := 5, ddie := 32, len := 64, data := bytes 64 [(0, 4), (2, 1)], group := 3 })).md 32).cmds.length
      = 2 ∧
    (((after (.mcv 0 0) (arrived 0 { type := 5, len := 129, data := bytes 129 [], group := 3, inp := 4 })).router 0 24).queue 4 1).length
      = 2 := by decide +kernel

/-- A read of the unit that waits for a tag is sent when the answer to an earlier one frees it (R366). -/
theorem test_requestWait :
    (let m : Msg := { type := 3, ddie := 38, sdie := 32, unit := 1, tag := 9 }
     let s := arrived 38 m [⟨1, 9, 0, true, false, 0, .resp, 0⟩]
     let t := after (.cpl 38 0) { s with fabs := [(38, { (s.fab 38) with waits := [(1, .quiet, readMsg), (2, .quiet, readMsg)] })] }
     ((t.fab 38).waits.map (·.1), (t.fab 38).reqs.map (fun r => (r.unit, r.tag, r.use)))) = ([2], [(1, 0, .quiet)]) := by
  decide +kernel

/-- Without a route on CD 0 a read is answered UNREACH, and an MCC is dropped (R349, R375). -/
theorem test_unreach :
    let lost (m : Msg) : State := regs (arrived 0 m) 0 [(.pfabRt, 32, 0, 0)]
    let c : Msg := { type := 6, ddie := 32, group := 3 }
    (lost readMsg).endsHere 0 readMsg = false ∧ (lost readMsg).waitsHere 0 readMsg = false ∧
    ((after (.rd 0 0) (lost readMsg)).fab 0).inbox.map (fun m => (m.type, m.status, m.tag, m.ddie)) = [(3, 3, 9, 38)] ∧
    bit ((after (.rd 0 0) (lost readMsg)).reg 0 .pfabErr) 2 = true ∧ (lost c).endsHere 0 c = false ∧
    ((after (.mcc 0 0) (lost c)).fab 0).inbox = [] ∧ bit ((after (.mcc 0 0) (lost c)).reg 0 .pfabErr) 5 = true := by
  decide +kernel

/-- A control die takes no group from 16 on and no credit (R352). -/
theorem test_noGroup :
    let m : Msg := { type := 5, ddie := 38, len := 8, data := bytes 8 [], group := 16 }
    bit ((after (.mcv 38 0) (arrived 38 m)).reg 38 .pfabErr) 6 = true ∧
    bit ((after (.mcc 38 0) (arrived 38 { type := 6, ddie := 38, group := 3 })).reg 38 .pfabErr) 6 = true := by decide +kernel

/-- KD0's end of link 0 has one message to send; CD 0's end is `e`. -/
def linked (o e : LinkEnd) : State := { wired {} with links := [(0, e), (8 * 38, o)] }

def sendingEnd : LinkEnd := { tx := { q := [{ msg := { readMsg with inp := 8 } }] } }

theorem witness_linkFlits :
    partner 0 0 = some (38, 0) ∧ (linked sendingEnd {}).linkUp 0 0 = true ∧ ((linked sendingEnd {}).fab 38).waits = [] ∧
    ((sendingEnd.tx.step ((linked sendingEnd {}).linkOutlet 38 0) 0).bind (·.flit)).isSome = true ∧
    (((linked sendingEnd {}).linkSend 38 0).map (fun p => wireGood (p.1 ^^^ 1))) = some false ∧
    (([(511, ⟨1, 0, 0, 0, 0⟩)] : List (Nat × LFlit)).findIdx? (fun x => decide (x.1 = 511))) = some 0 ∧
    (linked { ctl := [.ack 511] } {}).link 38 0 = { ctl := [.ack 511] } := by decide +kernel

theorem test_linkFlits :
    ((after (.dieLinkFlit 0 0 0) (linked sendingEnd {})).link 0 0).rxSeq = 1 ∧
    ((after (.dieLinkFlit 0 0 1) (linked sendingEnd {})).link 0 0).ctl = [.nak 0] ∧
    ((after (.flitAck 0 0) (linked { ctl := [.ack 511] } { replay := [(511, ⟨1, 0, 0, 0, 0⟩)], next := 1 })).link 0 0).replay = [] ∧
    ((after (.flitNak 0 0) (linked { ctl := [.nak 511] } { replay := [(511, ⟨1, 0, 0, 0, 0⟩)], next := 1 })).link 0 0).next = 0 ∧
    ((after (.ackDue 0 0) (linked {} { unacked := 5, rxSeq := 0 })).link 0 0).ctl = [.ack 511] := by decide +kernel

/-- A message that a die aborts: an ABORT of its stream, which the receiver ends as aborted. -/
def abortingEnd : LinkEnd := { tx := { q := [{ msg := { type := 5, ddie := 0, len := 200, data := bytes 128 [], aborted := true }, stream := 2, sent := 3 }] } }

theorem witness_abort :
    ((abortingEnd.tx.step ((linked abortingEnd {}).linkOutlet 38 0) 0).map (fun r => (r.flit.isSome, r.abort)))
      = some (false, some 2) := by decide +kernel

/-- A credit return of VC 2 (R339): the sender learns how many of its flits have left the buffer. -/
theorem test_creditReturn :
    let s := linked { ctl := [.credit 2], freed := [(2, 7)] } { sent := [(2, 9)] }
    ((after (.creditReturn 0 0 2 0) s).link 0 0).back = [(2, 7)] ∧ ((after (.creditReturn 0 0 2 0) s).link 38 0).ctl = [] := by
  decide +kernel

theorem witness_linkStates :
    (let s := regs {} 0 [(.pfabLnk, 4, 0, 1 <<< 29 + fullWidth 0 4 <<< 26)]
     s.linkState 0 4 = 1 ∧ s.fld 0 .pfabLnk 28 26 4 = fullWidth 0 4) ∧
    (linked sendingEnd {}).linkState 38 0 ≠ 4 ∧ (sendingEnd.tx.q.map (fun x => x.msg.vc)) = [2] ∧
    (let r : Req := ⟨1, 9, 0, true, true, 0, .resp, 0⟩; let s := arrived 38 {} [r]
     (s.fab 38).reqs.find? (fun x => decide (x.unit = 1) && decide (x.tag = 9)) = some r ∧
     100 * s.fld 38 .pfabTmo 47 32 = 2000000) ∧
    100000 * ({} : State).fld 38 .pfabTmo 63 48 = 100000000 := by decide +kernel

theorem test_linkStates :
    (after (.linkTrainingDone 0 4 true false) (regs {} 0 [(.pfabLnk, 4, 0, 1 <<< 29 + fullWidth 0 4 <<< 26)])).linkState 0 4 = 3 ∧
    (after (.requestTimeout 38 1 9 2000000) (arrived 38 {} [⟨1, 9, 0, true, true, 0, .resp, 0⟩])).resp.status = 5 ∧
    ((play [.requestTimeout 38 1 9 2000000, .quarantineExpiry 38 1 9 102000000]
      (arrived 38 {} [⟨1, 9, 0, true, true, 0, .resp, 0⟩])).fab 38).quar = [] := by decide +kernel

/-- A flit of VC 2 that has not moved for LSTALL takes the link DOWN, one that may still move does not (R367); a link that has
given up its upper half trains without it (R341). -/
theorem test_linkStall :
    let s := linked sendingEnd {}
    let due := 100 * s.fld 38 .pfabTmo 15 0
    due = 100000 ∧ (after (.linkStall 38 0 99999) s).linkState 38 0 = 2 ∧ (after (.linkStall 38 0 100000) s).linkState 38 0 = 4 ∧
    (after (.linkStall 38 0 100000) s).linkState 0 0 = 4 ∧ bit ((after (.linkStall 38 0 100000) s).reg 38 .pfabErr) 11 = true ∧
    (let t := { regs {} 0 [(.pfabLnk, 4, 0, 1 <<< 29 + 1 <<< 26)] with links := [(4, { halves := [true] })] }
     t.linkState 0 4 = 1 ∧ (t.link 0 4).halve = false ∧ 1 < fullWidth 0 4 ∧
       (after (.linkTrainingDone 0 4 false false) t).linkState 0 4 = 3) := by decide +kernel

/-- A completion that has arrived keeps its request from timing out (R365). -/
theorem test_noTimeout :
    let m : Msg := { type := 3, ddie := 38, sdie := 32, unit := 1, tag := 9 }
    let s := arrived 38 m [⟨1, 9, 0, true, true, 0, .resp, 0⟩]
    s.endsHere 38 m = true ∧ (s.fab 38).match? m = some ⟨1, 9, 0, true, true, 0, .resp, 0⟩ ∧
    (after (.requestTimeout 38 1 9 2000000) s).hc = 0 := by decide +kernel

/-- Port 15 of LD 37 in a state, with 4 units of lanes. -/
def portIn (st : Nat) (e : PortEnd) : State :=
  { regs {} 37 [(.lnkPstat, 15, 0, st <<< 29 + 4 <<< 26)] with ports := [(16 + 15, e)] }

/-- A flit of zeros with SEQ 0 and its CRC, and one with a wrong CRC. -/
def goodFlit : BitVec 2048 := BitVec.ofNat 2048 (crc32 (List.replicate 252 0#8) <<< 2016)

theorem witness_ports :
    (portIn 2 {}).portState 37 15 = 2 ∧ (portIn 3 {}).portState 37 15 = 3 ∧ (portIn 1 {}).portState 37 15 = 1 ∧
    (let bs := toBytes 256 goodFlit.toNat
     numAt bs 252 4 = crc32 (bs.take 252) ∧ bit (numAt bs 0 2) 7 = false ∧ bits (numAt bs 0 2) 6 0 = 0) ∧
    (let bs := toBytes 256 (goodFlit ^^^ 1).toNat; numAt bs 252 4 ≠ crc32 (bs.take 252)) ∧
    (portIn 2 {}).fld 37 .lnkSec 55 0 15 ≤ ((portIn 2 {}).die 37).wagV.toNat ∧
    2 ≤ (portIn 2 {}).fld 37 .lnkPstat 28 26 15 ∧ (portIn 2 {}).fld 37 .lnkPcfg 31 31 15 = 0 := by decide +kernel

/-- Fifteen symbols of a codeword in error are corrected, sixteen are not (R358); a good flit is accepted, a bad one answered
with a NAK (R359). -/
theorem test_ilpFlit :
    let s := regs (portIn 2 {}) 37 [(.lnkPcfg, 15, 0, 2 ^ 31 + 2048 <<< 16)]
    s.fld 37 .lnkPcfg 27 16 15 = 2048 ∧ s.portState 37 15 = 2 ∧ (s.port 37 15).sym = [] ∧
    fecCounts [List.range 15, List.range 16] = (1, 1) ∧ laneCorrected 4 0 [List.range 15, List.range 16] = 4 ∧
    ((s.ilpReceive 37 15 goodFlit 0 0 0).port 37 15).rxSeq = 1 ∧
    (let t := s.ilpReceive 37 15 (goodFlit ^^^ 1) 0 0 0
     ((t.port 37 15).rxSeq, (t.port 37 15).naks) = (0, 1)) := by decide +kernel

/-- A port whose VC 2 does not move for LSTALL goes DOWN (R367). -/
theorem test_portStall :
    let s := portIn 2 { tx := sendingEnd.tx }
    let due := 100 * s.fld 37 .pfabTmo 15 0
    (after (.linkStall 37 31 (due - 1)) s).portState 37 15 = 2 ∧ (after (.linkStall 37 31 due) s).portState 37 15 = 4 := by
  decide +kernel

/-- A window of the shortest length, all zeros; its tag is not zero. -/
theorem witness_macs :
    let s := regs (portIn 2 {}) 37 [(.lnkSec, 15, 0, 0)]
    let key := s.portKey 0 0 0 0 (s.pkgId 37) (portNo 37 15)
    s.winLen 37 15 = 8 ∧ (gcmTag key (windowIv 0) (List.replicate (248 * 8) 0#8)).length = 16 := by decide +kernel

theorem test_ports :
    (after (.portLaneLoss 37 15) (portIn 2 {})).fld 37 .lnkPstat 28 26 15 = 2 ∧
    (after (.portTrainingDone 37 15 1 0 5) (portIn 1 {})).portState 37 15 = 4 ∧
    (after (.lnkPcfgEn 37 15 true) (portIn 0 {})).portState 37 15 = 1 := by decide +kernel

/-! ## Model residency -/

/-- Both dies of the west side with a GOLD region, joined by their link, and record 0 of set 0 of both with the bytes `b`. -/
def gold (b : List Byte) (s : State := {}) : State :=
  let g (o : Nat) : List (RegFam × Nat × Nat × Nat) :=
    [(.mdaRgn, 0, 0, 1 <<< 59 + 40000 <<< 30 + 16), (.pfabRt, o, 0, 2 ^ 31 + 4), (.pfabLnk, 4, 0, 2 <<< 29)]
  let s := regs (regs s 32 (g 33)) 33 (g 32)
  (s.writeMem 32 (16 * 65536) b).writeMem 33 (16 * 65536) b

theorem crcDownByte_lt {c : Nat} (h : c < 2 ^ 32) (b : Byte) : crcDownByte 0x82F63B78 c b < 2 ^ 32 := by
  unfold crcDownByte
  have step : ∀ (l : List Nat) (x : Nat), x < 2 ^ 32 →
      l.foldl (fun c _ => if c % 2 = 1 then (c / 2) ^^^ 0x82F63B78 else c / 2) x < 2 ^ 32 := by
    intro l
    induction l with
    | nil => exact fun x hx => hx
    | cons _ t ih =>
      intro x hx
      refine ih _ ?_
      dsimp only
      split
      · exact Nat.xor_lt_two_pow (by omega) (by decide)
      · omega
  exact step _ _ (Nat.xor_lt_two_pow h (by have := b.isLt; omega))

theorem crc32c_lt (bs : List Byte) : crc32c bs < 2 ^ 32 := by
  have step : ∀ (l : List Byte) (x : Nat), x < 2 ^ 32 → l.foldl (crcDownByte 0x82F63B78) x < 2 ^ 32 := by
    intro l
    induction l with
    | nil => exact fun x hx => hx
    | cons b t ih => exact fun x hx => ih _ (crcDownByte_lt hx b)
  exact Nat.xor_lt_two_pow (step _ _ (by decide)) (by decide)

/-- The first bytes of a valid record with CRC `c`. -/
def hdrOf (c : Nat) : List Byte := [0#8, 1#8, 0#8, 0#8] ++ toBytes 4 c

/-- The header of a valid record of zeros. -/
def recHdr : List Byte := hdrOf (crc32c (List.replicate 8704 0#8))

theorem hdrOf_parts (n c : Nat) (h : c < 2 ^ 32) :
    let b := (List.range (64 + n)).map (fun i => (hdrOf c).getD i 0#8)
    b.drop 64 = List.replicate n 0#8 ∧ numAt b 4 4 = c ∧ byteAt b 1 = 1 := by
  refine ⟨List.ext_getElem (by simp) (fun i h1 h2 => ?_), ?_, ?_⟩
  · simp only [hdrOf, toBytes, List.getElem_drop, List.getElem_map, List.getElem_range, List.getElem_replicate,
      List.getD_eq_getElem?_getD, List.cons_append, List.nil_append]
    rw [List.getElem?_eq_none (by simp; omega)]; rfl
  · rw [numAt, List.range_add, List.map_append, show List.range 64 = List.range 8 ++ (List.range 56).map (8 + ·) by decide,
      List.map_append]
    simp only [hdrOf, toBytes]
    simp [List.range_succ, ofBytes]
    omega
  · rw [List.range_add, show List.range 64 = List.range 8 ++ (List.range 56).map (8 + ·) by decide]
    simp [byteAt, hdrOf, List.range_succ]

/-- A record that begins with the header and holds zeros beyond it is valid and sound (R258). -/
theorem recordOk_of {s : State} {md a : Nat} (h : ∀ i, i < 8768 → s.readByte (pkgAddr md a + i) = recHdr.getD i 0#8) :
    recordOk (s.record md a) = true := by
  have e : s.record md a = (List.range (64 + 8704)).map (fun i => recHdr.getD i 0#8) := by
    show (List.range 8768).map (fun i => s.readByte (pkgAddr md a + i)) = _
    exact List.map_congr_left (fun i hi => h i (List.mem_range.1 hi))
  obtain ⟨p, q, r⟩ := hdrOf_parts 8704 _ (crc32c_lt (List.replicate 8704 0#8))
  rw [e]
  unfold recordOk
  rw [show recHdr = hdrOf (crc32c (List.replicate 8704 0#8)) from rfl, p, q, r]
  simp only [decide_true, Bool.and_self]

theorem readByte_gold (i : Nat) (hi : i < 8768) :
    (gold recHdr).readByte (pkgAddr 32 (16 * 65536) + i) = recHdr.getD i 0#8 := by
  show (((regs (regs {} 32 _) 33 _).writeAt _ recHdr).writeAt (pkgAddr 33 (16 * 65536)) recHdr).readByte _ = _
  have l : recHdr.length = 8 := rfl
  have k : pkgAddr 33 (16 * 65536) = pkgAddr 32 (16 * 65536) + 2 ^ 46 := by decide
  rw [State.readByte_writeAt, State.readByte_writeAt, l, k]
  generalize pkgAddr 32 (16 * 65536) = a
  by_cases c : i < 8
  · rw [if_neg (by omega), if_pos (by omega), Nat.add_sub_cancel_left]
  · rw [if_neg (by omega), if_neg (by omega), List.getD_eq_getElem?_getD, List.getElem?_eq_none (by omega)]; rfl

/-- Record 0 of set 0 of MD 32 is valid and sound. -/
theorem goodRecord : recordOk ((gold recHdr).record 32 (16 * 65536)) = true := recordOk_of readByte_gold

theorem witness_goldenWindow :
    (gold []).recordAt 32 0 0 = some (16 * 65536) ∧ (gold []).recordAt 33 1 131071 = some (16 * 65536 + setStride + 8768 * 131071) ∧
    (gold []).setBusy 0 1 = false ∧ (gold []).activeSet 32 ≠ 1 ∧ (gold []).forwards 32 = true ∧
    (regs (gold []) 33 [(.pfabRt, 32, 0, 0)]).forwards 32 = false ∧ (gold []).activeSet 32 = 0 ∧
    (gold []).fld 32 .mdaErr 13 13 = 0 ∧
    (regs (gold []) 38 [(.wgtSeal, 0, 0, 3 <<< 29)]).setBusy 0 1 = true := by decide +kernel

/-- A write to the active set 0, and a body write, which leaves record 1 of set 1 invalid; without an answer from the partner it
stands in the own copy alone, and the cause is MIRROR (R386, R387). -/
theorem test_goldenWindow :
    (let t := after (.goldRecordWrite 32 1 1 64 [7]) (regs (gold []) 33 [(.pfabRt, 32, 0, 0)])
     (t.resp.status, t.fld 32 .wgtLstat 31 28, t.readMem 32 (16 * 65536 + setStride + 8768 + 64) 1,
       t.readMem 33 (16 * 65536 + setStride + 8768 + 64) 1)) = (2, 6, [7#8], [0#8]) ∧
    (after (.goldRecordWrite 32 0 0 64 [7]) (gold [])).resp.status = 2 ∧
    (let t := after (.goldRecordWrite 32 1 1 64 [7]) (gold []); (t.resp.status, t.readMem 33 (16 * 65536 + setStride + 8768 + 64) 1)) =
      (0, [7#8]) := by decide +kernel

theorem witness_goldenJobs :
    (gold recHdr).recordAt 32 0 0 = some (16 * 65536) ∧ (gold recHdr).memErr = [] ∧ 0 < min 131072 (0 + 1) ∧
    (gold recHdr).fld 32 .wgtMdcmd 62 62 = 0 ∧ ((gold recHdr).gold 32).copy = none := by decide +kernel

theorem test_goldenJobs :
    ((after (.goldClear ⟨32, false⟩ (w64 (1 <<< 58))) (gold [])).gold 32).clearing = some 1 ∧
    (after (.goldClear ⟨32, false⟩ 0) (gold [])).fld 32 .wgtMdcmd 61 61 = 1 ∧
    (after (.goldClear ⟨32, true⟩ (w64 (1 <<< 58))) (gold [])).fld 32 .wgtMdcmd 61 61 = 1 ∧
    ((play [.goldClear ⟨32, false⟩ (w64 (1 <<< 58)), .goldClearDone 32] (gold [])).gold 32).clearing = none := by decide +kernel

/-- An image header of no records whose digest is right (R383). -/
def sealing (right : Bool) : State :=
  let d := imageDigest (List.replicate 256 0#8) (sha384 []) (sha384 [])
  let s := regs {} 38 [(.wgtSeal, 0, 0, 3 <<< 29)]
  if right then regs s 38 ((List.range 6).map (fun i => (.wgtHdr, 1, 9 + i, numAt d (8 * i) 8))) else s

theorem witness_seals :
    (sealing true).fld 38 .wgtSeal 30 30 = 1 ∧ (sealing true).fld 38 .wgtSeal 29 29 = 1 ∧
    ((sealing true).hashSide 32 1).2.1 = 0 ∧ numAt ((sealing true).imageHeader 1) 16 4 = 0 ∧
    imageDigest ((sealing true).imageHeader 1) (sha384 []) (sha384 []) = (((sealing true).imageHeader 1).drop 72).take 48 ∧
    ({} : State).fld 38 .wgtSeal 30 30 = 0 ∧ ({} : State).activeSet 32 = 0 ∧ ({} : State).activeSet 32 ≠ 1 ∧
    ({} : State).setBusy 0 1 = false ∧ ({} : State).setBusy 1 1 = false := by decide +kernel

theorem test_seals :
    (after .sealDone (sealing true)).setValid 35 1 = true ∧ (after .sealDone (sealing false)).fld 38 .wgtSeal 27 24 = 1 ∧
    (after (.sealSet ⟨1, true⟩) {}).fld 38 .wgtSeal 27 24 = 3 ∧ (after (.sealSet ⟨1, false⟩) {}).fld 38 .wgtSeal 30 30 = 1 ∧
    (after (.sealSet ⟨0, false⟩) {}).fld 38 .wgtSeal 27 24 = 3 ∧ (after (.wgtHdrWrite 1 31 (w64 5)) {}).reg 38 .wgtHdr 1 31 = 5 := by
  decide +kernel

/-- FIPS 180-4: SHA-384 of the empty message begins 38 B0 60 A7. The CRC-32C of "123456789" is 0xE3069283. -/
theorem test_hashes : (sha384 []).take 4 = [0x38, 0xB0, 0x60, 0xA7] ∧
    crc32c ((List.range 9).map (fun i => BitVec.ofNat 8 (0x31 + i))) = 0xE3069283 := by decide +kernel

/-- MD 33's copy of record 0 is not valid, MD 32's sound, and its repair is queued; and a rehash of the empty active set. -/
def repairing : State := { (gold recHdr).writeMem 33 (16 * 65536) [0, 0] with golds := [(1, { repairs := [(0, 0)] })] }

theorem getD_one (n : Nat) (f : Nat → Byte) : ((List.range (2 + n)).map f).getD 1 0#8 = f 1 := by
  simp [List.range_add, List.range_succ]

theorem byte1_of (s : State) (md a : Nat) : byteAt (s.record md a) 1 = (s.readByte (pkgAddr md a + 1)).toNat :=
  congrArg BitVec.toNat (getD_one 8766 (fun i => s.readByte (pkgAddr md a + i)))

theorem readByte_written (s : State) (md a : Nat) : (s.writeMem md a [0#8, 0#8]).readByte (pkgAddr md a + 1) = 0#8 := by
  rw [State.writeMem, State.readByte_writeAt, if_pos ⟨by omega, by simp only [List.length_cons, List.length_nil]; omega⟩,
    Nat.add_sub_cancel_left]
  rfl

theorem witness_repairs :
    (repairing.gold 33).repairs = [(0, 0)] ∧ mirror 33 = 32 ∧ repairing.recordAt 33 0 0 = some (16 * 65536) ∧
    (({ golds := [(0, { rehash := true })], sealed_ := [(0, sha384 [])] } : State).hashSide 32 0).1 = sha384 [] := by
  decide +kernel

/-- The switch in a state, to set 1, with set 1 valid everywhere and nothing to load. -/
def switching (st : Nat) (s : State := {}) : State :=
  let s := regs s 38 [(.wgtSwstat, 0, 0, st <<< 29), (.wgtSwctl, 0, 0, 1 <<< 28 + 1 <<< 27), (.cmdStage, 0, 0, 2 <<< 62)]
  [32, 33, 34, 35].foldl (fun s d => regs s d [(.mdaGold, 0, 0, 4)]) s

theorem witness_switchStates :
    (switching 1).swState = 1 ∧ (switching 1).isDrained = true ∧ (switching 5).swState = 5 ∧ (switching 2).goRefused = none ∧
    (switching 1).goRefused = some 1 ∧ (switching 3).fld 38 .wgtSwctl 28 28 = 1 ∧
    ((List.range 40).all (fun d => !(switching 3).recovering d)) = true ∧
    (let s := switching 4 { switch := { applied := true }, dies := (List.range 32).map (fun d => (d, { wagValid := true })) }
     let s := regs s 38 [(.wagStat, 0, 0, 2 <<< 29)]
     s.swState = 4 ∧ s.mayRun = true ∧ s.loaders = []) := by decide +kernel

/-- An ABORT in the cycle of the committed step has no effect (R396); one after a failed switch returns to FAILED (R399). -/
theorem test_switchAbort :
    (switching 3).switchDue = true ∧ (after .switchAbort (switching 3)).swState = 3 ∧
    (regs (switching 3) 38 [(.wgtSwctl, 0, 0, 1 <<< 27), (.wgtSwstep, 0, 0, 9)]).switchDue = false ∧
    (after .switchAbort (regs (switching 3) 38 [(.wgtSwctl, 0, 0, 1 <<< 27), (.wgtSwstep, 0, 0, 9)])).swState = 0 ∧
    (after .switchAbort { switching 2 with switch := { failed := true } }).swState = 5 := by decide +kernel

theorem test_switch :
    (after .switchArm {}).swState = 2 ∧ (after .switchGo (switching 2)).swState = 3 ∧
    (after .switchAbort (switching 2)).swState = 0 ∧ (after .switchStart (switching 3)).swState = 4 ∧
    (after .switchCoresStopped (switching 4)).activeSet 35 = 1 := by decide +kernel

/-- One loader of engine 0, at packet `n`. -/
def loader (n : Nat) (held : Option Nat) (e : Engine := {}) : State :=
  { engines := if e = {} then [] else [(0, e)]
    loaders := [{ md := 32, cd := 0, k := 0, p := 0, l := 15, why := 0, code := 0, packets := List.replicate 136 0, next := n, held }] }

theorem witness_loaders :
    (loader 0 none).loaders.length = 1 ∧ ((loader 135 none).engine 0 0 0).state = .idle ∧
    ((loader 0 none).engCode 0 0 0 0).writeRefusal 0 0 0 false 0 0 = none ∧ 0 < 1 ∧
    (loader 136 none { loaded := true, tested := true }).mapl 0 0 15 = (false, 0) ∧ cdSide 0 = sideOf 32 ∧
    ((gold recHdr).recordAt 32 0 (recordIndex 0 0 0)) = some (16 * 65536) := by decide +kernel

/-- Two packets written through the physical window, which is answered once both are in (R385). -/
theorem test_windowLoader :
    let m : Msg := { type := 2, ddie := 0, sdie := 32, unit := 4, tag := 7, gen := 2 }
    let x : Loader := { md := 32, cd := 0, k := 0, p := 0, l := 0, why := 4, code := 0, packets := [1, 0], base := 127, reply := some m }
    let s (n : Nat) : State := { loaders := [{ x with next := n }] }
    ((after (.loaderWrite 0) (s 0)).engine 0 0 0).cmd = some ⟨0, false, 127, 1⟩ ∧
    ((after (.loaderWrite 0) (s 1)).engine 0 0 0).cmd = some ⟨0, true, 0, 0⟩ ∧
    (after (.loaderWrite 0) (s 2)).loaders = [] ∧
    ((after (.loaderWrite 0) (s 2)).fab 0).inbox.map (fun m => (m.type, m.status, m.tag, m.gen)) = [(4, 0, 7, 2)] := by
  decide +kernel

theorem test_loaders :
    ((after (.loaderWrite 0) (loader 127 none)).engine 0 0 0).cmd = some ⟨0, false, 127, 0⟩ ∧
    ((after (.loaderWrite 0) (loader 128 none)).engine 0 0 0).cmd = some ⟨0, true, 0, 0⟩ ∧
    (after (.loaderWrite 0) (loader 136 none { loaded := true, tested := true })).mapl 0 0 15 = (true, 0) ∧
    ((after (.refill 0 32 (w64 (2 ^ 63 + 3 <<< 50))) {}).gold 32).refills = [⟨3, 0, 0, 0⟩] := by decide +kernel

/-! ## Housekeeping, calibration and security -/

theorem witness_housekeeping :
    (List.replicate 120 (3200 : Nat)).length = 120 ∧ (List.replicate 8 (720 : Int)).length = 8 ∧ ({} : State).host.waits = [] ∧
    bit 1 0 = true ∧ bit 1 7 = false ∧ ({} : State).fld 38 .monQhCfg 31 31 = 1 := by decide +kernel

/-- The first sweep: 12 V of the mean of two codes, and die 7's VCORE. -/
theorem test_housekeeping :
    let s := regs {} 38 [(.hkCh, 8, 0, 48000 <<< 16)]
    let t := after (.housekeepingRound 0 1 (List.replicate 120 3200) (List.replicate 8 720)) (regs s 39 [(.hkCh, 8, 0, 48016 <<< 16)])
    t.fld 38 .pwrPkgstat 63 48 = 12002 ∧ t.fld 38 .hkDiea 63 63 0 = 1 ∧ t.fld 38 .hkDieb 15 0 7 = 3200 ∧
    t.fld 38 .hkStat 63 32 = 1 ∧ t.health.rounds = 1 := by decide +kernel

/-- A window at its end: core 5 has one count above the threshold of 1,000. -/
def windowEnd : State := { regs {} 38 [(.monQhCfg, 0, 0, 2 ^ 31 + 1000)] with health := { win := [(5, 1001)], rounds := 1000 } }

theorem witness_health :
    (let s := windowEnd
     s.fld 38 .monQhCfg 31 31 = 1 ∧ s.fld 38 .monQhCfg 15 0 ≤ s.health.rounds ∧ s.host.waits = [] ∧
     (∀ x ∈ s.health.win, x.1 < 16384) ∧ (5, 1001) ∈ s.health.win ∧ elem s.health.thr 16 (5 % 4) < 1001 ∧
     bit (s.reg 38 .monQhlf 1) 1 = false) ∧
    ({} : State).health.rounds < ({} : State).fld 38 .monQhCfg 15 0 := by decide +kernel

theorem test_health :
    bit ((after .qhWindowEnd windowEnd).reg 38 .monQhlf 1) 1 = true ∧ (after .qhWindowEnd windowEnd).fld 38 .monQhStat 31 31 = 1 := by
  decide +kernel

/-- Slot 459 of HKADC0, the last of channel 3, in the example of R542; and the same with an urgent request that waits. -/
def lastSlot : State :=
  { ({} : State) with plat := { ({} : Plat) with hk0 := { slot0 := 459, acc := [(3, ⟨29 * 1501 + 28 * 1502, 57, false⟩)] } } }
def urgentSlot : State := (after (.urgentConversion 38 (w64 (2 ^ 31 + 5 <<< 16))) lastSlot)

theorem witness_conversions :
    (lastSlot.hk 38).slot0 = 459 ∧ slotUse 0 459 = .normal 3 true ∧ lastSlot.takesSlot 38 0 459 (.normal 3 true) 0 = false ∧
    lastSlot.fld 38 .calAdc 15 0 ≠ lastSlot.fld 38 .calAdc 31 16 ∧ urgentSlot.takesSlot 38 0 459 (.normal 3 true) 1 = true ∧
    urgentSlot.fld 38 .hkUrg 30 30 = 1 ∧ validChannel 0x10 = false ∧ validChannel 5 = true ∧ lastSlot.fld 38 .hkUrg 30 30 = 0 ∧
    500 ≤ (({ plat := { ({} : Plat) with hk0 := { slot0 := 500 } } } : State).hk 38).slot0 ∧ slotUse 1 479 = .normal 15 true := by
  decide +kernel

/-- R542's example: a mean of 24,024, 750.75 mV. -/
theorem test_conversions :
    (after (.adcSlot 38 0 0 1502) lastSlot).fld 38 .hkCh 31 16 3 = 0x5DD8 ∧
    (after (.adcSlot 38 0 0 1502) lastSlot).fld 38 .hkCh 15 0 3 = 1502 ∧
    (after (.adcSlot 38 0 1 77) urgentSlot).fld 38 .hkUrg 30 0 = 1 <<< 29 + 5 <<< 16 + 77 := by decide +kernel

/-- Die 3 with an accepted code of 9 for item 1; the same with a record of it in the flash, of die 3 alone. -/
def trimmed : State :=
  { regs {} 3 [(.calAcc, 0, 0, 9), (.calTrim, 0, 0, 7)] with plat := { ({} : Plat) with cal := [(3, { valid := 2 })] } }
def savedHead : List Byte := toBytes 4 0x4C414348 ++ toBytes 4 1 ++ toBytes 4 1312821520 ++ List.replicate 76 0#8
def savedDie : List Byte := bytes 88 [(24, 9), (27, 2)]
def zeros88 : List Byte := List.replicate 88 0#8
def savedBody : List Byte := savedHead ++ savedDie ++ zeros88 ++ zeros88 ++ zeros88 ++ zeros88 ++ zeros88 ++ zeros88
def saved : State := trimmed.programFlash (calCopy 0) (savedBody ++ toBytes 4 0x4a490ea1)

theorem saved_crc : crc32c savedBody = 0x4a490ea1 := by
  have h1 : savedHead.foldl (crcDownByte 0x82F63B78) 0xFFFFFFFF = 0x4af941d1 := by decide +kernel
  have h2 : savedDie.foldl (crcDownByte 0x82F63B78) 0x4af941d1 = 0xa40048bc := by decide +kernel
  have h3 : zeros88.foldl (crcDownByte 0x82F63B78) 0xa40048bc = 0xeecc7cb6 := by decide +kernel
  have h4 : zeros88.foldl (crcDownByte 0x82F63B78) 0xeecc7cb6 = 0xbe7e7010 := by decide +kernel
  have h5 : zeros88.foldl (crcDownByte 0x82F63B78) 0xbe7e7010 = 0xcc9d3444 := by decide +kernel
  have h6 : zeros88.foldl (crcDownByte 0x82F63B78) 0xcc9d3444 = 0x1f516d26 := by decide +kernel
  have h7 : zeros88.foldl (crcDownByte 0x82F63B78) 0x1f516d26 = 0xef888c14 := by decide +kernel
  have h8 : zeros88.foldl (crcDownByte 0x82F63B78) 0xef888c14 = 0xb5b6f15e := by decide +kernel
  rw [crc32c, savedBody]
  simp only [List.foldl_append]
  rw [h1, h2, h3, h4, h5, h6, h7, h8]
  decide

theorem calValid_of (s : State) (c : Nat) (b : List Byte) (hb : s.readFlash (calCopy c) 708 = b)
    (hc : crc32c (b.take 704) = numAt b 704 4)
    (h : (numAt b 0 4 = 0x4C414348 ∧ numAt b 8 4 = s.reg 38 .cmdIdent) ∧ numAt b 12 8 = s.sec.fuses.serial) :
    s.calValid c = true := by
  simp only [State.calValid, hb, hc, h.1.1, h.1.2, h.2, decide_true, Bool.and_self]

theorem calBest_of (s : State) (h0 : s.calValid 0 = true) (h1 : s.calValid 1 = false) : s.calBest = some 0 := by
  unfold State.calBest
  simp only [h0, h1]

theorem readFlash_succ (s : State) (a n : Nat) :
    s.readFlash a (n + 1) = s.flashByte a :: (List.range n).map (fun i => s.flashByte (a + (i + 1))) := by
  simp [State.readFlash, List.range_succ_eq_map]

theorem calValid_off (s : State) (c : Nat) (h : (s.flashByte (calCopy c)).toNat ≠ 0x48) : s.calValid c = false := by
  have e : numAt (s.readFlash (calCopy c) 708) 0 4 ≠ 0x4C414348 := by
    intro e
    rw [readFlash_succ s _ 707] at e
    simp only [numAt, List.drop_zero, List.take_succ_cons, ofBytes] at e
    omega
  simp only [State.calValid, e, decide_false, Bool.false_and]

theorem flashByte_programFlash (s : State) (a x : Nat) (bs : List Byte) (h : ¬(a ≤ x ∧ x < a + bs.length)) :
    (s.programFlash a bs).flashByte x = s.flashByte x := by
  simp only [State.flashByte, State.programFlash, Memory.get_write, List.length_map]
  rw [if_neg h]

theorem saved_take : (savedBody ++ toBytes 4 0x4a490ea1).take 704 = savedBody := by decide +kernel

theorem saved_length : (savedBody ++ toBytes 4 0x4a490ea1).length = 708 := by decide +kernel

theorem saved_read : saved.readFlash (calCopy 0) 708 = savedBody ++ toBytes 4 0x4a490ea1 :=
  readFlash_programFlash trimmed (calCopy 0) 708 _ saved_length

theorem crc_of {a b : List Byte} {n m : Nat} (h : a = b) (hb : crc32c b = n) (hm : n = m) : crc32c a = m := by
  rw [h, hb, hm]

theorem saved_num : 0x4a490ea1 = numAt (savedBody ++ toBytes 4 0x4a490ea1) 704 4 := by decide +kernel

theorem saved_crc704 : crc32c ((savedBody ++ toBytes 4 0x4a490ea1).take 704) = numAt (savedBody ++ toBytes 4 0x4a490ea1) 704 4 :=
  crc_of saved_take saved_crc saved_num

theorem witness_calibrationRecord : saved.calBest = some 0 :=
  calBest_of saved (calValid_of saved 0 _ saved_read saved_crc704 (by decide +kernel)) <| calValid_off saved 1 <| by
    rw [show saved.flashByte (calCopy 1) = trimmed.flashByte (calCopy 1) from flashByte_programFlash trimmed _ _ _ (by
      rw [saved_length]
      decide)]
    decide +kernel

theorem witness_calibration :
    trimmed.accepted 3 1 = 9 ∧ trimmed.trim 3 1 = 7 ∧ 1 ∈ calItems 3 ∧ trimmed.calBest = none ∧
    bit (byteAt (savedBody ++ toBytes 4 0x4a490ea1) (64 + 16 * 3 + 3)) 1 = true ∧
    (regs {} 38 [(.calCtl, 0, 0, 1 <<< 27)]).fld 38 .calCtl 27 27 = 1 ∧ trimmed.fld 38 .calCtl 27 27 = 0 ∧
    (∀ d, d < 40 → saved.fld 38 .calDie 63 63 d ≠ 1) ∧ (regs {} 38 [(.calDie, 3, 0, 1 <<< 63)]).fld 38 .calDie 63 63 3 = 1 ∧
    ((after .calSave trimmed).plat.saving.map (·.1)) = some 0 := by decide +kernel

theorem test_calibration :
    (after (.trimRampStep 3 1) trimmed).trim 3 1 = 8 ∧ (after (.calGo false 3) trimmed).fld 38 .calDie 63 53 3 = 0x408 ∧
    (play [.calSave, .calSaveDone true] trimmed).fld 38 .calCtl 27 24 = 0 := by
  decide +kernel

/-- The responder of port A after its negotiation, with session 1 open or secure. -/
def spdm (phase : Nat) (l : List Session) : State := { ({} : State) with sec := { ({} : Sec) with spdmA := { phase, sessions := l, next := 2 } } }

theorem witness_attestation :
    ((spdm 0 []).spdm 0).phase < 1 ∧ 1 ≤ ((spdm 1 []).spdm 0).phase ∧ ((spdm 1 []).spdm 0).phase < 2 ∧
    2 ≤ ((spdm 2 []).spdm 0).phase ∧ ((spdm 2 []).spdm 0).phase < 3 ∧ 3 ≤ ((spdm 3 []).spdm 0).phase ∧
    (spdm 3 [⟨1, false⟩]).secureSession 0 1 = false ∧ (spdm 3 [⟨1, true⟩]).secureSession 0 1 = true ∧
    (spdm 3 []).fld 38 .secBoot 28 28 = 0 ∧ ((spdm 3 [⟨1, false⟩]).spdm 0).sessions.length < 2 ∧
    2 ≤ ((spdm 3 [⟨1, false⟩, ⟨2, true⟩]).spdm 0).sessions.length ∧ ⟨1, false⟩ ∈ ((spdm 3 [⟨1, false⟩]).spdm 0).sessions ∧
    (spdm 3 []).keySlotInUse 0 = false ∧ (List.replicate 32 7#8).length = 32 ∧
    ({ spdm 3 [] with ports := [(0, { sec := true })] } : State).keySlotInUse 0 = true := by decide +kernel

theorem test_attestation :
    ((play [.getVersion 0, .getCapabilities 0, .negotiateAlgorithms 0, .keyExchange 0, .finish 0 1 true] {}).secureSession 0 1) = true ∧
    (after (.getDigests 0) (spdm 2 [])).resp.status = 2 ∧ (after (.heartbeat 0 1) (spdm 3 [⟨1, false⟩])).resp.status = 2 ∧
    Tab.get [] (after (.setLinkKey 0 1 0 (List.replicate 32 7#8)) (spdm 3 [⟨1, true⟩])).linkKeys 0 = List.replicate 32 7#8 := by
  decide +kernel

theorem witness_fuses :
    ({} : State).writePermitted 38 = true ∧ (regs {} 38 [(.thmSens, 0, 0, 1 <<< 31)]).writePermitted 38 = false ∧
    (regs {} 38 [(.secBoot, 0, 0, 3 <<< 16)]).fld 38 .secBoot 22 16 = 3 := by decide +kernel

/-- SEC_DBGCTL in a state whose DBGKEY is not blank. -/
def debug (v : Nat) (key : List Byte := [4]) : State :=
  { regs {} 38 [(.secDbgctl, 0, 0, v)] with sec := { ({} : Sec) with fuses := { ({} : Fuses) with dbgKey := key } } }

theorem witness_debug :
    (debug 0).fld 38 .secDbgctl 30 30 = 0 ∧ (debug 0).fld 38 .srvCtl 31 31 ≠ 1 ∧ (∀ k ∈ (debug 0).slotList, (debug 0).sstate k = 0) ∧
    (debug 0).sec.fuses.dbgKey ≠ [] ∧ (debug 0).debugSigned = false ∧ (debug 0 []).sec.fuses.dbgKey = [] ∧
    (regs (debug 0) 38 [(.srvCtl, 0, 0, 2 ^ 31)]).fld 38 .srvCtl 31 31 = 1 ∧ (debug 0).sec.unlocking = false ∧
    ({ sec := { ({} : Sec) with unlocking := true } } : State).sec.unlocking = true := by decide +kernel

theorem test_fuses :
    (after .svnCommit (regs {} 38 [(.secBoot, 0, 0, 3 <<< 16)])).sec.fuses.svn = 3 ∧
    (after .svnCommit {}).fld 38 .secSvn 30 28 = 1 ∧ (after .debugUnlock (debug 0)).fld 38 .secDbgctl 27 24 = 1 ∧
    (after .debugUnlock (debug 0 [])).fld 38 .secDbgctl 27 24 = 3 := by decide +kernel

/-! ## Clocks, power and heat -/

/-- One die in a state. -/
def dieAt (d : Nat) (x : DieSt) (s : State := {}) : State := { s with dies := [(d, x)] }

theorem witness_waggle :
    ((dieAt 3 { wagValid := true, wagV := 9 }).die 3).wagValid = true ∧ ((dieAt 3 { wagV := 9 }).die 3).heat.gated = false ∧
    ((dieAt 3 { wagStart := some (20, 5) }).die 3).wagStart = some (20, 5) ∧
    ((dieAt 38 { wagValid := true }).die 38).wagValid = true ∧ ({} : State).die 38 = {} ∧
    ((dieAt 3 { wagValid := true, wagV := 9, adjIn := [(9, 1), (8, 1)] }).die 3).adjIn = [(9, 1), (8, 1)] ∧
    ((dieAt 3 { heat := { gated := true } }).die 3).heat.gated = true := by decide +kernel

/-- A shortened step lasts 99 reference cycles (R490); a late adjustment raises ADJ (R497). -/
theorem test_waggle :
    ((after (.waggleStep 3 0) (dieAt 3 { wagValid := true, wagV := 9, adj := [(9, -1)] })).die 3).stepHc = 99 ∧
    ((after (.waggleStep 3 0) (dieAt 3 { wagStart := some (20, 5) })).die 3).wagV = 20 ∧
    bit ((after (.waggleAdjust 3) (dieAt 3 { wagValid := true, wagV := 9, adjIn := [(8, 1)] })).reg 3 .wagErr) 2 = true ∧
    ((after (.waggleStart 3 16) (dieAt 38 { wagValid := true, wagV := 4 })).die 3).wagStart = some (20, 1600) := by decide +kernel

/-- Sync in a state of WAG_STAT: port 0 of LD 36 ACTIVE, one request outstanding. -/
def sync (st role : Nat) (x : Sync := {}) : State :=
  { regs {} 38 [(.wagStat, 0, 0, st <<< 29), (.wagCfg, 0, 0, role <<< 30), (.wagExt, 0, 0, 2 ^ 31 + 1000)] with
    csr := (regs (regs {} 38 [(.wagStat, 0, 0, st <<< 29), (.wagCfg, 0, 0, role <<< 30), (.wagExt, 0, 0, 2 ^ 31 + 1000)])
      36 [(.lnkPstat, 0, 0, 2 <<< 29)]).csr
    dies := [(38, { wagValid := true, wagV := 4096 })]
    sync := { x with reqs := [(36, 0, 5, 0)] } }

theorem witness_swarm :
    (let s := sync 0 0
     s.fld 38 .wagStat 28 28 = 0 ∧ s.fld 38 .wagStat 31 29 = 0 ∧ s.portState 36 0 = 2 ∧ s.fld 38 .wagCfg 20 16 = 0 ∧
     s.sync.reqs.find? (fun r => decide ((r.1, r.2.1, r.2.2.1) = (36, 0, 5))) = some (36, 0, 5, 0)) ∧
    (let s := sync 1 0 { good := 7 }
     s.fld 38 .wagStat 31 29 = 1 ∧ (((80 : Int) - 0) - (s.stamp 36 170 - 90)).natAbs ≤ 160 ∧ 7 ≤ s.sync.good) ∧ (sync 0 1).fld 38 .wagCfg 31 30 = 1 ∧
    (let s := sync 2 2
     s.fld 38 .wagStat 31 29 = 2 ∧ s.fld 38 .wagStat 28 28 = 0 ∧ s.sync.lastUp + 2048 ≤ (s.die 38).wagV.toNat) ∧
    (sync 0 1 { edge := some 0 }).fld 38 .wagExt 31 31 = 1 ∧
    100 * (sync 0 1).fld 38 .wagExt 23 0 < 1000 * ((200000 - 0 : Nat) - ((100 * 1000 : Nat) : Int)).natAbs := by decide +kernel

theorem test_swarm :
    (after (.masterTimeout 1000000) (sync 0 1)).fld 38 .wagStat 31 28 = 5 ∧
    (after .syncHoldover (sync 2 2)).fld 38 .wagStat 31 28 = 5 ∧ (after .syncHoldover (sync 2 0)).fld 38 .wagStat 31 28 = 6 ∧
    (after (.syncRsp 36 0 5 true true 0 80 0 90 170) (sync 1 0 { good := 7 })).fld 38 .wagStat 31 28 = 4 ∧
    (after (.syncRsp 36 0 5 true true 7 80 7 90 0) (sync 0 0)).fld 38 .wagStat 31 29 = 1 ∧
    bit ((after (.pkgSyncEdge 200000 200) (sync 0 1 { edge := some 0 })).reg 38 .wagErr) 3 = true := by decide +kernel

/-- An edge on time gives the offset to the nearest multiple of the period; off a primary master, or with WAG_EXT.EN at 0, it
has no effect (R498, R499). -/
theorem test_pkgSync :
    let s := sync 0 1 { edge := some 100000 }
    s.fld 38 .wagExt 31 31 = 1 ∧ s.fld 38 .wagCfg 31 30 = 1 ∧ (s.die s.generator).wagValid = true ∧
    ¬100 * s.fld 38 .wagExt 23 0 < 1000 * ((200000 - 100000 : Nat) - ((100 * 1000 : Nat) : Int)).natAbs ∧
    bit ((after (.pkgSyncEdge 200000 100) s).reg 38 .wagErr) 3 = false ∧
    bit ((after (.pkgSyncEdge 200000 99) s).reg 38 .wagErr) 3 = true ∧
    after (.pkgSyncEdge 200000 100) (sync 0 0) = sync 0 0 := by decide +kernel

theorem witness_clockLosses :
    ({} : State).host.waits = [] ∧ partner 0 4 = some (32, 0) ∧ ({} : State).host.waits = [] ∧
    ((dieAt 32 { heat := { gated := true } }).die 32).heat.gated = true ∧ (({} : State).die 32).heat.tripped = false := by
  decide +kernel

theorem test_clockLosses :
    (after (.pllLoss 3) {}).fld 3 .clkStat 31 31 = 0 ∧ ((after (.pllLoss 3) {}).die 3).faults = [7] ∧
    (after (.forwardedClockLoss 0 4) (dieAt 32 { heat := { gated := true } })).linkState 0 4 = 4 := by decide +kernel

theorem witness_thermal :
    (List.replicate 8 (some (640 : Int))).length = 8 ∧ ({} : State).host.waits = [] ∧ ({} : State).fld 3 .thmStat 27 27 ≠ 1 ∧
    ((List.replicate 8 (some (810 : Int))).filterMap (fun x => if validTemp x then x else none)).length = 8 ∧
    (({} : State).die 3).heat.lvl2 = none := by decide +kernel

/-- Level 2 at 100 °C, an own temperature of 80 °C, and a die without six valid sensors, which counts as 100 °C (R518, R519). -/
theorem test_thermal :
    (after (.thermalSample 3 0 (List.replicate 8 (some 810))) {}).fld 3 .thmStat 31 30 = 2 ∧
    (after (.thermalSample 3 0 (List.replicate 8 (some 640))) {}).fld 3 .thmStat 31 0 = 1 <<< 26 + 640 ∧
    (after (.thermalSample 3 0 (List.replicate 8 none)) {}).fld 3 .thmStat 15 0 = 800 := by decide +kernel

/-- A die held after a trip takes no sample, and comes out once all its sensors read 105 °C or less (R524). -/
def heldDie : State :=
  { dieAt 3 { heat := { gated := true, tripped := true } } with plat := { ({} : Plat) with vin := true, pwrok := true } }

theorem test_tripHold :
    heldDie.tripHeld 3 = true ∧
    ((after (.thermalSample 3 5 (List.replicate 8 (some 841))) heldDie).die 3).heat.gated = true ∧
    ((after (.thermalSample 3 5 (List.replicate 8 (some 840))) heldDie).die 3).heat = {} := by decide +kernel

/-- A link die at its limit of 100 W skips no cycle, and 125 mW above it skips (R515). -/
theorem test_governor :
    let s := regs {} 36 [(.pwrLim, 0, 0, 100)]
    ((after (.governorStep 36 0 100 0 0) s).die 36).heat.skip = false ∧ ((after (.governorStep 36 0 100 1 0) s).die 36).heat.skip = true ∧
    (after (.governorStep 36 0 100 1 0) s).fld 36 .pwrStat 15 0 = 801 := by decide +kernel

theorem witness_trips :
    (regs {} 39 [(.pinSbcfg, 4, 0, 5 <<< 28)]).hasThrottleIn = true ∧ ({} : State).hasThrottleIn = false ∧
    bit 8 3 = true ∧ bit 8 4 = false ∧ (∀ d, d < 40 → bit 0 d = false) ∧ ({} : State).host.waits = [] := by decide +kernel

theorem test_trips :
    (after (.throttleInChange true 7) (regs {} 39 [(.pinSbcfg, 4, 0, 5 <<< 28)])).fld 12 .thmStat 31 30 = 1 ∧
    (after (.thermalTrip 8) {}).plat.thermtrip = true ∧ bit ((after (.thermalTrip 8) {}).reg 38 .thmTrip) 3 = true ∧
    ((after (.thermalTrip 8) {}).die 4).heat.tripped = false ∧ bit ((after .inputOvervoltage {}).reg 38 .pwrErr) 1 = true := by
  decide +kernel

/-- R521 and R528 of KD0: an external throttle input, a warm die under it, and a cap of the package. -/
theorem witness_throttleAndCap :
    (regs {} 38 [(.pinSbcfg, 2, 0, 5 <<< 28)]).pinFunc 38 2 = 5 ∧ ({} : State).fld 3 .thmStat 31 30 = 0 ∧
    (regs {} 3 [(.thmStat, 0, 0, 2 <<< 30)]).fld 3 .thmStat 31 30 = 2 ∧
    (after (.throttleInChange true 7) (regs {} 38 [(.pinSbcfg, 2, 0, 5 <<< 28)])).plat.throttle = true ∧
    ({} : State).plat.lostKd ≠ 39 ∧ bits (w64 (2 ^ 31 + 999)).toNat 12 0 < 1000 ∧ bit (w64 (2 ^ 31 + 999)).toNat 31 = true ∧
    6500 < bits (w64 (2 ^ 31 + 6501)).toNat 12 0 ∧ bits (w64 (2 ^ 31 + 1000)).toNat 12 0 = 1000 ∧
    bits (w64 (2 ^ 31 + 6500)).toNat 12 0 = 6500 ∧ bit (w64 5).toNat 31 = false := by decide +kernel

theorem test_cap :
    (after (.registerWrite .firmware 38 0x3F00B0000100 32 (w64 (2 ^ 31 + 5000))) {}).fld 38 .pwrPkgcap 31 0 = 2 ^ 31 + 5000 ∧
    (after (.registerWrite .firmware 38 0x3F00B0000100 32 (w64 (2 ^ 31 + 999))) {}).fld 38 .pwrPkgcap 31 0 = 6500 := by
  decide +kernel

/-! ## Faults, resets, pins and observability -/

/-- CD 3 with a state in RAS_STAT and RAS_CTL. -/
def recovering (st : Nat) (x : DieSt) (ctl : Nat := 2 ^ 31 + 4) (s : State := {}) : State :=
  dieAt 3 x (regs s 3 [(.rasStat, 0, 0, st <<< 61), (.rasCtl, 0, 0, ctl)])

theorem witness_recovery :
    (let s := recovering 0 { faults := [8] }
     s.host.waits = [] ∧ s.fld 3 .rasStat 63 61 = 0 ∧ (s.die 3).faults = [8] ∧ s.fld 3 .rasCtl 31 31 = 1 ∧ (s.die 3).ras.rec_ = none ∧
     ((s.die 3).ras.times.filter (fun h => decide (s.hc < h + 100000))).length < s.fld 3 .rasCtl 3 0) ∧
    (recovering 0 { faults := [8] } 4).fld 3 .rasCtl 31 31 = 0 ∧ (recovering 7 {}).fld 3 .rasStat 63 61 = 7 ∧
    (let s := recovering 1 {} 0 { ({} : State) with cores := [(512 * 3 + 5, { run := .active })] }
     s.fld 3 .rasStat 63 61 = 1 ∧ (s.die 3).faults = [] ∧ (s.core 3 5).run = .active ∧ (s.core 3 5).stopping = false) ∧
    (∀ e ∈ (recovering 1 {}).cores, e.1 / 512 = 3 → e.2.run = .stopped) ∧ (recovering 2 {}).fld 3 .rasStat 63 61 = 2 ∧
    Tab.rising 0 (recovering 2 {}).cores = true ∧ (∀ e ∈ (recovering 2 {}).engines, e.1 / 17 / 512 = 3 → e.2.state ≠ .faulted) ∧
    ((recovering 4 { wagValid := true }).die 3).wagValid = true ∧ ((recovering 4 {}).core 3 5).run = .stopped ∧
    (let s := recovering 5 { ras := { rec_ := some { cause := 8, since := 0, landed := true } } }
     s.fld 3 .rasStat 63 61 = 5 ∧ (s.die 3).ras.rec_ = some { cause := 8, since := 0, landed := true } ∧ (s.die 3).ras.expect = []) := by
  decide +kernel

theorem test_recovery :
    (after (.faultRecovery 3) (recovering 0 { faults := [8] })).fld 3 .rasStat 63 56 = 0x28 ∧
    (after (.faultRecovery 3) (recovering 0 { faults := [8] } 4)).fld 3 .rasStat 63 61 = 7 ∧
    (after (.faultRecovery 3) (recovering 5 { ras := { rec_ := some { cause := 8, since := 0, landed := true } } })).fld 3 .rasStat 63 61 = 0 := by
  decide +kernel

theorem witness_dieResets :
    (let s := recovering 0 { faults := [7], ras := { lastC := some 0 } } 0 { ({} : State) with hc := 100000000 }
     7 ∈ (s.die 3).faults ∧ (∀ h, (s.die 3).ras.lastC = some h → h + 100000000 ≤ s.hc) ∧ s.fld 3 .rasStat 63 61 ≠ 7) ∧
    (let s := recovering 0 { faults := [7], ras := { lastC := some 0 } } 0 { ({} : State) with hc := 99999999 }
     (s.die 3).ras.lastC = some 0 ∧ s.hc < 0 + 100000000) ∧
    (let s := recovering 6 { ras := { rec_ := some { cause := 7, since := 0, landed := true } } }
     s.fld 3 .rasStat 63 61 = 6 ∧ (s.die 3).ras.rec_ = some { cause := 7, since := 0, landed := true } ∧ (∀ l ∈ s.loaders, l.why ≠ 2)) ∧
    (let s := recovering 6 { ras := { rec_ := some { cause := 7, since := 0 } } }
     (s.die 3).ras.rec_ = some { cause := 7, since := 0, landed := false } ∧ s.stageState ≠ 2) := by
  refine ⟨⟨by decide +kernel, fun h e => ?_, by decide +kernel⟩, by decide +kernel, by decide +kernel, by decide +kernel⟩
  cases e
  decide

theorem test_dieResets :
    (after (.faultRecovery 3) (recovering 0 { faults := [7] })).fld 3 .rasStat 63 56 = 0xC7 ∧
    (after (.faultRecovery 3) (recovering 0 { faults := [7], ras := { lastC := some 0 } })).fld 3 .rasStat 63 61 = 7 ∧
    (after (.dieReset 3) (recovering 6 { ras := { rec_ := some { cause := 7, since := 0, landed := true } } })).fld 3 .rasStat 63 61 = 4 := by
  decide +kernel

/-- KD0 and KD1 joined over CD 1 to 6, 14, 22 and 30: each die with its links toward KD1 and toward KD0. -/
def joined : State :=
  [(38, 1, 1), (1, 1, 0), (2, 1, 3), (3, 1, 3), (4, 1, 3), (5, 1, 3), (6, 2, 3), (14, 2, 0), (22, 2, 0), (30, 2, 0), (39, 0, 0)].foldl
    (fun s x => regs s x.1 [(.pfabRt, 39, 0, 2 ^ 31 + x.2.1), (.pfabLnk, x.2.1, 0, 2 <<< 29),
      (.pfabRt, 38, 0, 2 ^ 31 + x.2.2), (.pfabLnk, x.2.2, 0, 2 <<< 29)]) {}

theorem witness_reliability :
    hasRas 3 = true ∧ hasRas 38 = true ∧ (recovering 0 {}).fld 3 .rasCtl 30 30 = 0 ∧
    (recovering 0 {} (2 ^ 30)).fld 3 .rasCtl 30 30 = 1 ∧ 1 ≠ ({} : State).pkgId 3 ∧ ({} : State).stepComplete 36 7 = true ∧
    (let s : State := { fabs := [(33, { inbox := [{ inp := 8, slot := 7 }] })] }; s.stepComplete 33 7 = false) ∧
    ((({} : State).fab 3).retained.filter (fun r => decide (({} : State).finalDie r.2 = (1, 4)) &&
      decide (({} : State).finalGroup r.2 = 9))).length ≤ 0 ∧ (({} : State).die 38).heat.gated = false ∧
    (let s : State := { plat := { ({} : Plat) with missed1 := 3 } }
     3 ≤ s.plat.missed1 ∧ s.plat.lostKd = 0 ∧ s.slotList.Nodup ∧ ∀ k ∈ s.slotList, k < 16384) ∧
    joined.arrives 38 39 = true ∧ joined.arrives 39 38 = true := by
  decide +kernel

theorem test_reliability :
    ((after (.rasForce 3) (recovering 0 {})).die 3).faults = [14] ∧ (after (.kdHeartbeat 38 false) {}).plat.missed0 = 1 ∧
    (after (.controlDieTakeover 38) { plat := { ({} : Plat) with missed1 := 3 } }).fld 38 .rasAlertc 11 11 = 0 ∧
    (after (.controlDieTakeover 38) { plat := { ({} : Plat) with missed1 := 3 } }).plat.lostKd = 40 := by decide +kernel

/-- One copy for die 4 and group 9 of package 1, good or uncorrectable. -/
def retaining (err : Nat) : State :=
  let m : Msg := { type := 5, dpkg := 1, ddie := 4, group := 9, len := 5, data := bytes 5 [], storeErr := err }
  let s := regs {} 3 [(.pfabRt, 4, 0, 2 ^ 31 + 1), (.pfabLnk, 1, 0, 2 <<< 29)]
  { s with fabs := [(3, { retained := [(7, m)] })] }

/-- A resend within the package puts the copy on its link again; one that finds it uncorrectable sets UE (R581). -/
theorem test_resend :
    ((retaining 0).fab 3).retained.length = 1 ∧ (∀ r ∈ ((retaining 0).fab 3).retained, r.2.storeErr = 0) ∧
    (∃ r ∈ ((retaining 2).fab 3).retained, 2 ≤ r.2.storeErr) ∧
    bit ((after (.resendRequest 3 1 4 9 0) (retaining 2)).reg 3 .rasStore) 63 = true ∧
    bit ((after (.resendRequest 3 1 4 9 0) (retaining 0)).reg 3 .rasStore) 63 = false ∧
    after (.resendRequest 3 1 4 9 1) (retaining 0) = retaining 0 := by decide +kernel

/-- A code image of no body, its key, and a flash of it in slot A under a blown ROOTKEY0. -/
def imageKey : List Byte := toBytesBE 97 0x4c787d37c05c2c199a12c7e85baa2354aaad83260c08a156dce611b3cdfce17076f28fc663c8a5f74b82e910595e2d6b5c8cc2cd81f71dc13134d55f1ae20a8d70ee52add3b9ab0387e96efb2ccfae6da6b81128990b1a142c2bfc26119801766
def imageSig : List Byte := toBytesBE 48 0x1883b7ad1ec38e7c353dfe1cef74718f34b65718349fa291d1b2b66f57a392ad0d7864ddbf874e87f1e35eaa2c026544 ++
  toBytesBE 48 0xf58f85f928ccafd6b5269d55c62f7c81a55d7f3bd25e1406d822242d65d70bc8677233887f608d70c2be2a84cdc1355c
def imageHead : List Byte := toBytes 4 0x4E345746 ++ List.replicate 12 0#8 ++ imageKey ++ List.replicate 15 0#8
def bootable : State :=
  { ({} : State).programFlash (slotBase 0) (imageHead ++ imageSig ++ List.replicate 32 0#8) with
    sec := { ({} : Sec) with fuses := { ({} : Fuses) with rootKey0 := sha384 imageKey } } }

theorem slotCode_of (s : State) (slot : Nat) (hdr : List Byte) (h : s.readFlash (slotBase slot) 256 = hdr)
    (hl : numAt hdr 8 4 = 0) (hk : sha384 ((hdr.drop 16).take 97) = s.sec.fuses.rootKey0) (hr : s.sec.fuses.revoke0 = false)
    (hs : verifySig ((hdr.drop 16).take 97) ((hdr.drop 128).take 96) (hdr.take 128) = true)
    (hv : ¬byteAt hdr 4 < s.sec.fuses.svn) (hm : numAt hdr 0 4 = 0x4E345746) : s.slotCode slot = 0 := by
  have e : s.readFlash (slotBase slot + 256) 0 = [] := rfl
  simp only [State.slotCode, h, hl, hk, hr, hm, e, Nat.zero_min, List.append_nil, hs, if_neg hv, decide_true, Bool.not_false,
    Bool.true_and, Bool.true_or, Bool.not_true, Bool.false_eq_true, if_false, ne_eq, not_true_eq_false, false_or]
  decide

def imageAll : List Byte := imageHead ++ imageSig ++ List.replicate 32 0#8

/-- An image whose signature verifies is accepted (R459, R460); the key, r and s were made with another program. -/
theorem witness_bootable : bootable.slotCode 0 = 0 :=
  slotCode_of bootable 0 imageAll (readFlash_programFlash {} (slotBase 0) 256 imageAll (by decide +kernel)) (by decide +kernel)
    (by decide +kernel) rfl (by decide +kernel) (by decide +kernel) (by decide +kernel)

theorem test_slots : ({} : State).slotCode 0 = 1 ∧ ({} : State).slotCode 1 = 1 := by decide +kernel

/-! ## Resets, pins and observability -/

theorem witness_coldStarts :
    ({} : State).plat.vin = false ∧ ({} : State).plat.rstLow = none ∧ ({} : State).plat.saving = none ∧ ({} : State).slotCode 0 ≠ 0 ∧
    ({} : State).slotCode 1 ≠ 0 ∧ bootable.plat.pwrok = false ∧
    ({ plat := { ({} : Plat) with vin := true, pwrok := true } } : State).plat.pwrok = true := by decide +kernel

/-- 12 V comes with PWROK there: with no accepted slot, RECOVERY, with the codes of both slots. -/
theorem test_coldStart :
    let t := after (.vinRise 5 false false 0 [] 0) { plat := { ({} : Plat) with pwrok := true } }
    t.fld 38 .pwrBoot 59 56 = 6 ∧ t.fld 38 .secBoot 31 30 = 2 ∧ t.fld 38 .secBoot 7 0 = 0x11 ∧ t.plat.vin = true := by
  decide +kernel

theorem witness_warmStarts :
    ({ plat := { ({} : Plat) with rstLow := some 3 } } : State).plat.rstLow = some 3 ∧ (∀ k ∈ ({} : State).slotList, k < 16384) ∧
    (regs {} 38 [(.srvSlot0, 9, 0, 4 <<< 61)]).sstate 9 = 4 ∧ (regs {} 38 [(.pwrBoot, 0, 0, 0xF <<< 56)]).fld 38 .pwrBoot 59 56 = 0xF ∧
    ({} : State).stageState ≠ 2 ∧ ({ warmDue := some 9 } : State).warmDue = some 9 ∧ ({} : State).warmDue = none ∧
    ({} : State).plat.lostKd ≠ 39 := by decide +kernel

theorem test_warmStarts :
    (after (.pwrResetWarm (.pf 0)) { hc := 7 }).warmDue = some 100007 ∧ (after (.pwrResetWarm .firmware) {}).resp.status = 2 ∧
    (after (.rstLong 100000003) { plat := { ({} : Plat) with rstLow := some 3 } }).fld 38 .pwrBoot 60 60 = 1 ∧
    (after (.rstLong 100000002) { plat := { ({} : Plat) with rstLow := some 3 } }).fld 38 .pwrBoot 60 60 = 0 ∧
    (after (.rstNAssert 8) {}).plat.rstLow = some 8 := by decide +kernel

/-- PF 1 and the BMC reach PWR_RESET of KD0; a virtual function's BARs do not. -/
theorem witness_warmReset :
    ({} : State).dieOf .bmc = 38 ∧ ({} : State).dieOf (.pf 1) = 39 ∧ (joined.tagAtOnce (joined.accessor (.pf 1)) 38).isSome = true ∧
    (after (.pwrResetWarm (.pf 1)) joined).warmDue = some 100000 ∧
    (let t := after (.pwrResetWarm (.vf 0 1)) {}; (t.resp.status, t.warmDue)) = (2, none) := by decide +kernel

theorem witness_recordAndPorts :
    ({ plat := { ({} : Plat) with retire := [7] } } : State).plat.retire ≠ [] ∧ ({} : State).plat.retire = [] ∧
    bit ({ plat := { ({} : Plat) with perst := 1 } } : State).plat.perst 0 = true ∧ bit ({} : State).plat.perst 0 = false ∧
    ({} : State).host.waits = [] := by decide +kernel

theorem test_recordAndPorts :
    bit ((after (.retirementRecordWrite false) { plat := { ({} : Plat) with retire := [7] } }).reg 38 .rasAlertc) 7 = true ∧
    bit (after (.perstAssert 1) {}).plat.perst 1 = true ∧
    (after (.perstRelease 0) { plat := { ({} : Plat) with perst := 1 } }).plat.perst = 0 := by decide +kernel

/-- Pin 2 of KD0 with a function and its parameters. -/
def pinned (f par : Nat) (x : Pin := {}) : State :=
  { regs {} 38 [(.pinSbcfg, 2, 0, f <<< 28 + par)] with plat := { ({} : Plat) with pins := [(2, x)] } }

theorem witness_pins :
    8 ≤ bits (w64 (8 <<< 28)).toNat 31 28 ∧ bits (w64 (6 <<< 28)).toNat 31 28 = 6 ∧ bits (w64 (1 <<< 28)).toNat 31 28 = 1 ∧
    bits (w64 (2 <<< 28)).toNat 31 28 = 2 ∧ (pinned 0 0).pin 38 2 = {} ∧ (pinned 0 0 { deaf := 9 }).pin 38 2 = { deaf := 9 } ∧
    (pinned 2 0 { edges := 1 }).fld 38 .pinSbcfg 31 28 2 = 2 ∧ ((pinned 2 0 { edges := 1 }).pin 38 2).edges = 1 ∧
    (let s := pinned 3 (10 <<< 8 + 51) { out := true, due := 4, low := 800 }
     s.fld 38 .pinSbcfg 31 28 2 = 3 ∧ (s.pin 38 2).due ≤ 4 ∧ (s.pin 38 2).out = true ∧ 0 < (s.pin 38 2).low ∧ bits (s.fld 38 .pinSbcfg 15 0 2) 7 0 * 10 / 255 = 2) ∧
    (pinned 4 5).fld 38 .pinSbcfg 31 28 2 = 4 ∧ bits ((pinned 4 5).fld 38 .pinSbcfg 15 0 2) 7 0 = 5 := by decide +kernel

theorem test_pins :
    (after (.pinSbcfgWrite 38 2 (w64 (6 <<< 28))) {}).resp.status = 2 ∧ (after (.pinSbcfgWrite 38 2 (w64 (1 <<< 28 + 1))) {}).pinLevel 38 2 = true ∧
    (after (.tachEdge 38 2 1500000) (pinned 2 0 { edges := 1, edgeHc := 1000 })).fld 38 .pinTach 31 0 2 = 1 <<< 31 + 14990 ∧
    ((after (.pwmToggle 38 2 4) (pinned 3 (10 <<< 8 + 51) { out := true, due := 4, low := 800 })).pin 38 2).due = 804 ∧
    ((after (.ledToggle 38 2 4) (pinned 4 5 { due := 4 })).pin 38 2).due = 5000004 ∧
    (after (.sidebandInput 38 2 7 false) (regs (pinned 5 0) 38 [(.pinSbin, 0, 0, 4)])).plat.throttle = true := by decide +kernel

theorem witness_bmc :
    addrPkg (w64 (pkgAddr 38 0x3F00B0000100)).toNat = ({} : State).pkgId 38 ∧ addrDie (w64 (pkgAddr 38 0x3F00B0000100)).toNat = 38 ∧
    ({} : State).plat.lostKd ≠ 39 := by decide +kernel

/-- The BMC reads PWR_PKGCAP: status 0 and CAP 6,500. -/
theorem test_bmc : (play [.bmcRead4 (w64 (pkgAddr 38 0x3F00B0000100)), .bmcBlockRead] {}).resp.data = 0#8 :: toBytes 4 6500 := by
  decide +kernel

/-- CD 3 inside its trace window, with class 5 traced on core 5, and with records in that core's FIFO. -/
def tracing (l : List (BitVec 256) := []) (inWindow : Bool := true) : State :=
  dieAt 3 { wagValid := true, wagV := 9, inWindow } { regs {} 3 [(.dbgTstart, 0, 0, 8), (.dbgTstop, 0, 0, 20), (.dbgTctl, 5, 0, 1 <<< 31),
    (.dbgTcfg, 0, 0, 2 ^ 31)] with cores := [(512 * 3 + 5, { trace := l })] }

/-- The collector of CD 3, with a record that waits; a sink of 64 KiB. -/
def sinking (half : Option (BitVec 256 × Nat)) (l : List (BitVec 256) := [7#256]) (st : Nat := 0) (wptr : Nat := 0) : State :=
  { regs (tracing l) 3 [(.dbgTsize, 0, 0, 1), (.dbgTstat, 0, 0, st), (.dbgTwptr, 0, 0, wptr)] with collectors := [(3, { half })] }

theorem witness_tracing :
    (let s := tracing [] false
     (s.die 3).wagValid = true ∧ s.reg 3 .dbgTstart ≤ (s.die 3).wagV.toNat ∧ (s.die 3).wagV.toNat < s.reg 3 .dbgTstop ∧
     (s.die 3).inWindow = false) ∧
    ((dieAt 3 { inWindow := true }).die 3).inWindow = true ∧ ((dieAt 3 { inWindow := true }).die 3).wagValid = false ∧
    (tracing).traced 3 5 5 = true ∧ ({} : State).traced 3 5 5 = false ∧ ((tracing).core 3 5).trace.length < 8 ∧
    8 ≤ ((tracing (List.replicate 8 7#256)).core 3 5).trace.length ∧ ((tracing).core 3 5).curLayer < 2 ^ 16 ∧
    ((tracing).core 3 5).curOp < 2 ^ 8 := by decide +kernel

theorem test_tracing :
    (after (.traceWindowStart 3) (tracing [] false)).fld 3 .dbgTcfg 7 0 = 1 ∧
    bits ((((after (.pcSample 3 5 0 0) (tracing)).core 3 5).trace.getD 0 0).toNat) 87 80 = 5 ∧
    (after (.pcSample 3 5 0 0) (tracing (List.replicate 8 7#256))).reg 3 .dbgTdrop 5 = 1 := by decide +kernel

theorem witness_traceSink :
    (∀ e ∈ (tracing).cores, e.2.trace = []) ∧ Tab.rising 0 (sinking none).cores = true ∧ ((sinking none).core 3 5).trace ≠ [] ∧
    (sinking none [7#256] (1 <<< 29)).fld 3 .dbgTstat 30 29 ≠ 0 ∧ (sinking none).fld 3 .dbgTstat 30 29 = 0 ∧
    (Tab.get {} (sinking (some (7#256, 4))).collectors 3).half = some (7#256, 4) ∧
    32 * ((sinking none).reg 3 .dbgTwptr + 2) ≤ (sinking none).fld 3 .dbgTsize 15 0 * 65536 ∧
    (((sinking none).fab 3).freeTag 4).isSome = true ∧ (sinking none).fld 3 .dbgTcfg 29 29 = 0 ∧
    ¬32 * ((sinking none [7#256] 0 2048).reg 3 .dbgTwptr + 2) ≤ (sinking none).fld 3 .dbgTsize 15 0 * 65536 := by decide +kernel

theorem test_traceSink :
    (Tab.get {} (after (.traceWrite 3) (sinking none)).collectors 3).half = some (7#256, 0) ∧
    (after (.traceWrite 3) (sinking (some (8#256, 4)))).reg 3 .dbgTwptr = 2 ∧
    (after (.traceFlush 3 104) (sinking (some (8#256, 4)))).reg 3 .dbgTwptr = 2 ∧
    (after (.traceFlush 3 104) (sinking (some (8#256, 4)) [] 0 2048)).fld 3 .dbgTstat 29 29 = 1 := by decide +kernel

theorem witness_rings :
    ({} : State).fld 3 .dbgRstatc 31 31 5 = 0 ∧ (regs {} 3 [(.dbgRstatc, 5, 0, 1 <<< 31)]).fld 3 .dbgRstatc 31 31 5 = 1 ∧
    ({} : State).reg 3 .dbgRfreeze = 2 ^ 64 - 1 ∧ (regs {} 36 [(.dbgRfreeze, 0, 0, 9)]).reg 36 .dbgRfreeze ≠ 2 ^ 64 - 1 ∧
    ((dieAt 36 { wagValid := true, wagV := 9 }).die 36).wagV.toNat = 9 ∧ monExists false 3 15 = true ∧ monExists true 38 2047 = true := by
  decide +kernel

theorem test_rings :
    let t := after (.freeze 3 true 5) {}
    t.reg 3 .dbgRingc 5 1 = 0x3E <<< 48 ∧ t.fld 3 .dbgRstatc 31 31 5 = 1 ∧ t.fld 3 .dbgRstatc 15 0 5 = 1 ∧
    (after (.ringFreezeStep 36) (dieAt 36 { wagValid := true, wagV := 9 } (regs {} 36 [(.dbgRfreeze, 0, 0, 9)]))).fld 36 .dbgRstatu 31 31 3 = 1 ∧
    Tab.get {} (after (.monSnap false 3 2) { monitors := [(50, { count := 4 })] }).shadows 50 = { count := 4 } := by decide +kernel

/-- A staged event is written before the FREEZE or THAW entry (R621). -/
theorem test_stagedRings :
    let s : State := { rings := [(3077, { stage := [{ code := 2, data := 9 }], fresh := 1, code := 2 })] }
    let t := after (.freeze 3 true 5) s
    (s.ringSt 3 (.core 5)).stage ≠ [] ∧ t.reg 3 .dbgRingc 5 1 = 2 <<< 48 + 9 ∧ t.reg 3 .dbgRingc 5 3 = 1 <<< 56 + 0x3E <<< 48 ∧
    (t.ringSt 3 (.core 5)).stage = [] ∧ (after (.thaw 3 true 5) s).reg 3 .dbgRingc 5 3 = 1 <<< 56 + 0x3F <<< 48 := by decide +kernel

/-- SNAP takes the samples that wait and copies the fields, CLR empties them (R624, R626). -/
theorem test_monitors :
    let s : State := { monitors := [(50, { count := 4, wait := [(1, 7)], cyc := 0 })] }
    let t := after (.monClr false 3 2) s
    (Tab.get {} (after (.monSnap false 3 2) s).shadows 50).count = 5 ∧ (Tab.get {} t.monitors 50).count = 0 ∧
    (Tab.get {} t.monitors 50).hi = -0x80000000 := by decide +kernel

/-- Five samples of one cycle: one is taken, four wait; a sixth is missed (R624). -/
theorem test_monitorQueue :
    let s : State := regs {} 3 [(.monCfg, 2, 0, 1 <<< 63 + 7 <<< 56 + 1 <<< 50 + 1 <<< 39)]
    let t := (List.range 6).foldl (fun s u => s.sample 3 7 5 none none (u + 1)) s
    (Tab.get {} t.monitors 50).count = 1 ∧ (Tab.get {} t.monitors 50).wait.length = 4 ∧ t.reg 3 .monMissed 2 = 1 := by decide +kernel

/-- A sink on die 40 is an address error of the die (R12, R336). -/
theorem test_absentSink :
    let s := { regs (sinking (some (8#256, 4))) 3 [(.dbgTsink, 0, 0, pkgAddr 40 0)] with collectors := [(3, { half := some (8#256, 4) })] }
    40 ≤ addrDie (s.reg 3 .dbgTsink) ∧ bit ((after (.traceWrite 3) s).reg 3 .pfabErr) 0 = true := by decide +kernel

/-- The throttle stays on while another of its inputs is low, and ends with the last (R521). -/
theorem test_throttlePins :
    let s (b : Nat) : State := { regs {} 38 [(.pinSbcfg, 2, 0, 5 <<< 28), (.pinSbcfg, 3, 0, 5 <<< 28), (.pinSbin, 0, 0, b)] with
      plat := { ({} : Plat) with throttle := true } }
    (after (.sidebandInput 38 2 7 true) (s 0)).plat.throttle = true ∧
    (after (.sidebandInput 38 2 7 true) (s 8)).plat.throttle = false := by decide +kernel

/-- A read by the BMC that no path leads to waits, and the answer of before stays (R364, R601). -/
theorem test_bmcWaits :
    let s : State := { plat := { ({} : Plat) with bmc := [7#8] } }
    let t := after (.bmcRead4 (w64 (pkgAddr 3 0x3F0000000000))) s
    t.plat.bmc = [7#8] ∧ (t.fab 38).waits.length + (t.fab 38).reqs.length = 1 := by decide +kernel

/-! ## The machine -/

theorem witness_fuseInv : ({} : State).FuseInv {} 0 := ⟨rfl, by decide⟩

theorem test_reset : State.reset.reg 38 .cmdIdent = 0x4E401110 ∧ State.reset.pending = [] := by decide +kernel

theorem test_step :
    step { pending := [.rstNAssert 8] } = exec (.rstNAssert 8) {} ∧ step {} = .next {} := ⟨rfl, rfl⟩

theorem witness_absent : 40 ≤ 63 ∧ 63 < 64 ∧ Who.fn? (.pf 0) = some 0 ∧ Who.fn? .bmc = none := by decide

theorem test_absent : (after (.readClear (.pf 0) 63 0 64) {}).resp = { status := 1, data := List.replicate 8 0#8 } := by decide +kernel

/-- Every check of `Instr.wellFormed` refuses an ill-formed term: units of the dies. -/
theorem test_illUnits :
    ([.loadStart 32 0 0, .loadStart 0 512 0, .enginePass 0 0 17, .engMaplWrite 0 0 16 true 0, .multicastFlit 0 64 0 ⟨0, .ok⟩,
   .multicastFlit 0 0 13 ⟨0, .ok⟩, .nocRgtWrite 0 0 1024 0 0, .nocRgtWrite 0 0 0 2 0, .nocMgtWrite 0 0 1024 0, .nocCrtWrite 0 0 256 0,
   .nocDiscard 0 0 1024, .nocLock 32 0, .attend 31 0 [] 0, .attend 36 0 [] 0, .hbmScrubBurst 32 2, .ltabWrite 32 4096 0 [],
   .rd 40 0, .dieLinkFlit 0 6 0, .linkStall 35 16 0, .linkStall 36 32 0, .forwardedClockLoss 0 8, .refill 32 33 0, .dieReset 36,
   .traceWindowStart 32] : List Instr).all (fun i => !i.wellFormed) = true := by decide

/-- Host commands, slots, sets and records. -/
theorem test_illHost :
    ([.submit 513 0, .submit 2048 0, .submit 0 64, .submit 1 4, .cmdAckdb 513 0, .slotCancel .bmc 16384,
   .draftWindowWrite .bmc 0 250 (List.replicate 7 0), .slotAck .bmc 0 8192, .costWrite 2 0, .quotaWrite 1024 0 0, .quotaWrite 0 2 0,
   .semTake 256 [], .apertureAccess 2 0 0 0 4 none none, .apertureAccess 0 16 0 0 4 none none, .apertureAccess 0 0 (2 ^ 26) 0 4 none none,
   .apertureAccess 0 0 0 0 4 (some []) none, .hostReadCompletion 2 0 true [], .functionLevelReset 513, .configurationRequest 0 0 4096 none,
   .goldRecordWrite 32 2 0 0 [], .goldRecordWrite 32 0 131072 0 [], .goldRecordWrite 32 0 0 0x4000 [0], .sealSet ⟨2, false⟩, .wgtHdrWrite 0 32 0,
   .goldRehashDone 2] : List Instr).all (fun i => !i.wellFormed) = true := by decide

/-- The platform: rounds, pins, rings, monitors and sync. -/
theorem test_illPlatform :
    ([.housekeepingRound 0 0 [] [], .thermalSample 0 0 [], .adcSlot 37 0 0 0, .adcSlot 38 2 0 0, .adcSlot 38 0 0 (-2049), .adcSlot 38 0 0 4096,
   .urgentConversion 40 0, .trimRampStep 0 4, .trimRampStep 32 2, .faultRecovery 36, .stepRelease 0 16384 0 0, .pinSbcfgWrite 38 8 0,
   .freeze 0 true 512, .freeze 0 false 71, .freeze 32 false 24, .freeze 36 false 21, .freeze 38 false 9, .monSnap false 36 0,
   .monSnap false 0 16, .monSnap true 38 2048, .monSnap true 39 0, .syncReqDue false 808, .syncReq 35 0 0 0 0 0, .syncReq 36 16 0 0 0 0,
   .syncReq 36 0 256 0 0 0, .syncReq 36 0 0 808 0 0, .syncReq 36 0 0 0 5 0, .syncReq 36 0 0 0 0 808] : List Instr).all (fun i => !i.wellFormed) = true := by decide

theorem test_stops : exec (.loadStart 32 0 0) {} = .fault .noSuchUnit ∧ exec (.submit 1 4) {} = .fault .noSuchUnit :=
  ⟨rfl, rfl⟩

/-- No word spells a command: the table gives no bits. -/
theorem test_decode : decodeTableWord 32 0 = none := rfl

end Sys2Proof.Tests
end

/-!
PROOF. An access to an absent die (R12): what a load of a register field, a raised bit of PFAB_ERR and an access error of a
function write and leave alone, and from these the statement.
-/

/-! ## Bit fields -/

namespace Sys2Proof.Machine

theorem bit_eq_testBit (v i : Nat) : bit v i = v.testBit i := by
  rw [bit, Nat.testBit_eq_decide_div_mod_eq, Nat.shiftRight_eq_div_pow]; rfl

theorem testBit_bits (v hi lo i : Nat) : (bits v hi lo).testBit i = (decide (lo + i ≤ hi) && v.testBit (lo + i)) := by
  rw [bits, Nat.testBit_mod_two_pow, Nat.testBit_shiftRight]
  congr 1
  exact decide_eq_decide.mpr (by omega)

/-- Loading a field keeps the bits above it and below it. -/
theorem setBits_eq (v hi lo x : Nat) : setBits v hi lo x =
    2 ^ lo * (2 ^ (hi + 1 - lo) * (v / 2 ^ lo / 2 ^ (hi + 1 - lo)) + x % 2 ^ (hi + 1 - lo)) + v % 2 ^ lo := by
  have hv := Nat.div_add_mod v (2 ^ lo)
  have hf := Nat.div_add_mod (v / 2 ^ lo) (2 ^ (hi + 1 - lo))
  have hs : v = 2 ^ lo * (2 ^ (hi + 1 - lo) * (v / 2 ^ lo / 2 ^ (hi + 1 - lo))) + v % 2 ^ lo +
      v / 2 ^ lo % 2 ^ (hi + 1 - lo) * 2 ^ lo := by
    calc v = 2 ^ lo * (2 ^ (hi + 1 - lo) * (v / 2 ^ lo / 2 ^ (hi + 1 - lo)) + v / 2 ^ lo % 2 ^ (hi + 1 - lo)) +
        v % 2 ^ lo := by rw [hf, hv]
      _ = _ := by rw [Nat.mul_add, Nat.add_right_comm, Nat.mul_comm (v / 2 ^ lo % 2 ^ (hi + 1 - lo))]
  rw [setBits, bits, Nat.shiftRight_eq_div_pow, Nat.shiftLeft_eq, Nat.shiftLeft_eq, Nat.sub_eq_of_eq_add hs,
    Nat.mul_add, Nat.add_right_comm, Nat.mul_comm (x % 2 ^ (hi + 1 - lo))]

theorem testBit_setBits (v hi lo x i : Nat) :
    (setBits v hi lo x).testBit i = if lo ≤ i ∧ i ≤ hi then x.testBit (i - lo) else v.testBit i := by
  rw [setBits_eq, Nat.testBit_two_pow_mul_add _ (Nat.mod_lt _ (Nat.two_pow_pos lo)),
    Nat.testBit_two_pow_mul_add _ (Nat.mod_lt _ (Nat.two_pow_pos _))]
  by_cases hlo : i < lo
  · rw [if_pos hlo, if_neg (by omega), Nat.testBit_mod_two_pow, decide_eq_true hlo, Bool.true_and]
  · rw [if_neg hlo]
    by_cases hhi : i ≤ hi
    · rw [if_pos (by omega), if_pos (by omega), Nat.testBit_mod_two_pow, decide_eq_true (by omega), Bool.true_and]
    · rw [if_neg (by omega), if_neg (by omega), Nat.testBit_div_two_pow, Nat.testBit_div_two_pow]
      congr 1; omega

theorem bits_setBits_same (v hi lo x : Nat) : bits (setBits v hi lo x) hi lo = x % 2 ^ (hi + 1 - lo) := by
  refine Nat.eq_of_testBit_eq fun i => ?_
  rw [testBit_bits, testBit_setBits, Nat.testBit_mod_two_pow]
  by_cases h : lo + i ≤ hi
  · rw [if_pos (by omega), Nat.add_sub_cancel_left, decide_eq_true h, decide_eq_true (by omega)]
  · rw [decide_eq_false h, decide_eq_false (by omega), Bool.false_and, Bool.false_and]

/-- A field keeps its value when one beside it is loaded. -/
theorem bits_setBits_other {hi lo hi' lo' : Nat} (h : hi' < lo ∨ hi < lo') (v x : Nat) :
    bits (setBits v hi' lo' x) hi lo = bits v hi lo := by
  refine Nat.eq_of_testBit_eq fun i => ?_
  rw [testBit_bits, testBit_bits, testBit_setBits]
  by_cases hin : lo + i ≤ hi
  · rw [if_neg (by omega)]
  · rw [decide_eq_false hin, Bool.false_and, Bool.false_and]

/-- A register holds 64 bits, and a field of it lies among them. -/
theorem bits_mod_word {hi : Nat} (h : hi < 64) (v lo : Nat) : bits (v % 2 ^ 64) hi lo = bits v hi lo := by
  refine Nat.eq_of_testBit_eq fun i => ?_
  rw [testBit_bits, testBit_bits, Nat.testBit_mod_two_pow]
  by_cases hin : lo + i ≤ hi
  · rw [decide_eq_true (show lo + i < 64 by omega), Bool.true_and]
  · rw [decide_eq_false hin, Bool.false_and, Bool.false_and]

/-! ## Register fields -/

section
variable (s : State) {d : Nat} {f : RegFam} {i j : Nat}

/-- A register is as it was where its key of the table reads as it did. -/
theorem State.reg_of_get {s t : State}
    (h : Tab.get 0#64 t.csr (pkgAddr d (Reg.off ⟨f, i, j⟩)) = Tab.get 0#64 s.csr (pkgAddr d (Reg.off ⟨f, i, j⟩))) :
    t.reg d f i j = s.reg d f i j := by simp only [State.reg, h]

theorem State.get_setReg_other {a : Nat} (v : Nat) (h : a ≠ pkgAddr d (Reg.off ⟨f, i, j⟩)) :
    Tab.get 0#64 (s.setReg d f v i j).csr a = Tab.get 0#64 s.csr a := Tab.get_set_other _ _ _ h

theorem State.get_setFld_other {a : Nat} (hi lo v : Nat) (h : a ≠ pkgAddr d (Reg.off ⟨f, i, j⟩)) :
    Tab.get 0#64 (s.setFld d f hi lo v i j).csr a = Tab.get 0#64 s.csr a := s.get_setReg_other _ h

theorem State.get_addFld_other {a : Nat} (hi lo n : Nat) (h : a ≠ pkgAddr d (Reg.off ⟨f, i, j⟩)) :
    Tab.get 0#64 (s.addFld d f hi lo n i j).csr a = Tab.get 0#64 s.csr a := s.get_setReg_other _ h

theorem State.fld_setFld_same {hi : Nat} (h : hi < 64) (lo v : Nat) :
    (s.setFld d f hi lo v i j).fld d f hi lo i j = v % 2 ^ (hi + 1 - lo) := by
  rw [State.fld, State.setFld, State.reg_setReg, bits_mod_word h, bits_setBits_same]

theorem State.fld_setFld_other {hi lo hi' lo' : Nat} (h : hi < 64) (hd : hi' < lo ∨ hi < lo') (v : Nat) :
    (s.setFld d f hi' lo' v i j).fld d f hi lo i j = s.fld d f hi lo i j := by
  rw [State.fld, State.setFld, State.reg_setReg, bits_mod_word h, bits_setBits_other hd, State.fld]

/-- A counter field counts up to all ones. -/
theorem State.fld_addFld_same {hi : Nat} (h : hi < 64) (lo n : Nat) :
    (s.addFld d f hi lo n i j).fld d f hi lo i j = satAdd (hi + 1 - lo) (s.fld d f hi lo i j) n := by
  rw [State.addFld, s.fld_setFld_same h, Nat.mod_eq_of_lt]
  have := Nat.two_pow_pos (hi + 1 - lo)
  simp only [satAdd]
  omega

end

/-! ## First-error records and PFAB_ERR (R375, R376) -/

section
variable (s : State)

theorem State.firstError_csrOnly (d : Nat) (f info : RegFam) (m record i j : Nat) :
    s.CsrOnly (s.firstError d f info m record i j) := by
  unfold State.firstError
  dsimp only
  split <;> rfl

theorem State.get_firstError_other {d : Nat} {f info : RegFam} {i j a : Nat} (m record : Nat)
    (hf : a ≠ pkgAddr d (Reg.off ⟨f, i, j⟩)) (hinfo : a ≠ pkgAddr d (Reg.off ⟨info, i, j⟩)) :
    Tab.get 0#64 (s.firstError d f info m record i j).csr a = Tab.get 0#64 s.csr a := by
  have hor : Tab.get 0#64 (s.orReg d f m i j).csr a = Tab.get 0#64 s.csr a := s.get_setReg_other _ hf
  unfold State.firstError
  dsimp only
  split
  · rw [State.get_setReg_other _ _ hinfo, hor]
  · exact hor

theorem State.reg_firstError {d : Nat} {f info : RegFam} {i j : Nat} (m record : Nat)
    (h : pkgAddr d (Reg.off ⟨f, i, j⟩) ≠ pkgAddr d (Reg.off ⟨info, i, j⟩)) :
    (s.firstError d f info m record i j).reg d f i j = (s.reg d f i j ||| m) % 2 ^ 64 := by
  have hor : (s.orReg d f m i j).reg d f i j = (s.reg d f i j ||| m) % 2 ^ 64 := State.reg_setReg ..
  unfold State.firstError
  dsimp only
  split
  · rw [State.reg_setReg_other _ h, hor]
  · exact hor

theorem State.fabErr_ringOnly (die b : Nat) (m : Msg) (link : Nat) : s.RingOnly (s.fabErr die b m link) :=
  (State.ring_only ..).trans (State.firstError_csrOnly ..).ring

theorem State.get_fabErr_other {die link a : Nat} (b : Nat) (m : Msg) (h : ¬FabErrWrites die (link % 32) a) :
    Tab.get 0#64 (s.fabErr die b m link).csr a = Tab.get 0#64 s.csr a := by
  simp only [FabErrWrites, not_or, not_exists, not_and] at h
  obtain ⟨herr, hinfo, hstat, hentry⟩ := h
  exact (State.get_firstError_other _ _ _ herr hinfo).trans ((State.RingLog.ring ..).regs a hentry hstat)

theorem State.bit_fabErr (die : Nat) {b : Nat} (hb : b < 64) (m : Msg) (link : Nat) :
    bit ((s.fabErr die b m link).reg die .pfabErr) b = true := by
  rw [State.fabErr, State.reg_firstError _ _ _ (by simp [pkgAddr, Reg.off, RegFam.shape]), bit_eq_testBit,
    Nat.testBit_mod_two_pow, Nat.testBit_or, Nat.testBit_two_pow_self, Bool.or_true, Bool.and_true, decide_eq_true hb]

/-- What PFAB_ERR and the rings of a control die hold lies above every function block. -/
theorem FabErrWrites.offset_ge {die l a : Nat} (h : FabErrWrites die l a) (hd : 38 ≤ die) (hl : l < 32) :
    0x3F0008000000 ≤ a % 2 ^ 46 := by
  have hring : linkRing die l = .unit (4 + l) := by
    rw [linkRing, if_neg (by omega), if_neg (by omega), if_neg (by omega)]
  rw [FabErrWrites, hring] at h
  simp only [pkgAddr, Reg.off, Ring.stat, Ring.fam, RegFam.shape] at h
  omega

end

/-! ## Access errors of a function (R415) -/

/-- The registers that an access error of a function may write: CMD_AERR and CMD_AERRA. -/
def AerrWrites (fn a : Nat) : Prop :=
  a = pkgAddr (38 + fnPort fn) (Reg.off ⟨.cmdAerr, fnNo fn, 0⟩) ∨
  a = pkgAddr (38 + fnPort fn) (Reg.off ⟨.cmdAerra, fnNo fn, 0⟩)

theorem AerrWrites.offset_lt {fn a : Nat} (h : AerrWrites fn a) : a % 2 ^ 46 < 0x3F0008000000 := by
  have : fnNo fn < 1024 := Nat.mod_lt _ (by omega)
  simp only [AerrWrites, pkgAddr, Reg.off, RegFam.shape] at h
  omega

/-- The record of a function lies elsewhere than what raising PFAB_ERR of a control die writes. -/
theorem AerrWrites.not_fabErrWrites {fn a die : Nat} (h : AerrWrites fn a) (hd : 38 ≤ die) : ¬FabErrWrites die 0 a :=
  fun hfab => absurd (FabErrWrites.offset_ge hfab hd (by decide)) (Nat.not_le.mpr h.offset_lt)

section
variable (s : State)

theorem State.aerr_csrOnly (fn code addr : Nat) (iso : Bool) : s.CsrOnly (s.aerr fn code addr iso) := by
  unfold State.aerr
  dsimp only
  split
  · exact s.addFld_csrOnly ..
  · exact ((((s.addFld_csrOnly ..).trans (State.setFld_csrOnly ..)).trans (State.setFld_csrOnly ..)).trans
      (State.setFld_csrOnly ..)).trans (State.setReg_csrOnly ..)

theorem State.get_aerr_other {fn a : Nat} (code addr : Nat) (iso : Bool) (h : ¬AerrWrites fn a) :
    Tab.get 0#64 (s.aerr fn code addr iso).csr a = Tab.get 0#64 s.csr a := by
  obtain ⟨haerr, haerra⟩ := not_or.mp h
  unfold State.aerr
  dsimp only
  split
  · exact s.get_addFld_other _ _ _ haerr
  · rw [State.get_setReg_other _ _ haerra, State.get_setFld_other _ _ _ _ haerr, State.get_setFld_other _ _ _ _ haerr,
      State.get_setFld_other _ _ _ _ haerr, State.get_addFld_other _ _ _ _ haerr]

/-- Every access error counts, whether or not the record of an earlier one still stands. -/
theorem State.fld_aerr_count (fn code addr : Nat) (iso : Bool) :
    (s.aerr fn code addr iso).fld (38 + fnPort fn) .cmdAerr 47 32 (fnNo fn) =
      satAdd 16 (s.fld (38 + fnPort fn) .cmdAerr 47 32 (fnNo fn)) 1 := by
  have hcount := s.fld_addFld_same (d := 38 + fnPort fn) (f := .cmdAerr) (i := fnNo fn) (j := 0)
    (show 47 < 64 by decide) 32 1
  unfold State.aerr
  dsimp only
  split
  · exact hcount
  · rw [State.fld, State.reg_setReg_other _ (by simp [pkgAddr, Reg.off, RegFam.shape]), ← State.fld,
      State.fld_setFld_other _ (by decide) (by decide), State.fld_setFld_other _ (by decide) (by decide),
      State.fld_setFld_other _ (by decide) (by decide), hcount]

theorem State.mmioError_of_fn {who : Who} {fn : Nat} (h : who.fn? = some fn) (code addr : Nat) :
    s.mmioError who code addr = (s.aerr fn code addr false).respond code := by
  simp only [State.mmioError, h]

theorem State.mmioError_of_none {who : Who} (h : who.fn? = none) (code addr : Nat) :
    s.mmioError who code addr = s.respond code := by
  simp only [State.mmioError, h]

end

/-! ## Accesses to absent dies (R12) -/

theorem State.fld_respond (s : State) (st : Nat) (bs : List Byte) (d : Nat) (f : RegFam) (hi lo i j : Nat) :
    (s.respond st bs).fld d f hi lo i j = s.fld d f hi lo i j := rfl

theorem State.dieOf_ge (s : State) (who : Who) : 38 ≤ s.dieOf who := by
  cases who with
  | pf p | vf p _ => exact Nat.le_add_right 38 p
  | firmware | bmc | jtag => simp only [State.dieOf]; split <;> decide

/-- The state after an access that the requester's die answers with ADDR: bit ADDR of PFAB_ERR there with the access `m` as
its record, the error at the accessing function, and the answer. -/
def State.addrAnswered (s : State) (who : Who) (m : Msg) (addr : Nat) (bs : List Byte) : State :=
  (((s.fabErr (s.dieOf who) 0 m 0).respond 1 bs).mmioError who 1 addr).respond 1 bs

/-- An access to die 40 or above is answered ADDR at the requester's die: a read with zeros, a write with nothing. -/
theorem State.mmioOf_absent (s : State) {who : Who} {die off : Nat} (hd : 40 ≤ die) (hb : barReaches who die off = true)
    (len : Nat) (w : Option (List Byte)) :
    ∃ m, s.mmioOf who die off len w =
      s.addrAnswered who m (s.globalAddr die off) (if w = none then List.replicate len 0#8 else []) := by
  refine ⟨{ s.accessRequest (s.accessor who) die off len w with
    unit := unitOf who, sdie := s.dieOf who, spkg := s.pkgId (s.dieOf who) }, ?_⟩
  rw [State.mmioOf, if_pos hb, State.mmio, State.access, if_pos hd]
  cases w <;> rfl

section
variable (s : State) (who : Who) (m : Msg) (addr : Nat) (bs : List Byte)

theorem State.addrAnswered_only : s.addrAnswered who m addr bs = { s with
    csr := (s.addrAnswered who m addr bs).csr
    rings := (s.addrAnswered who m addr bs).rings
    resp := { status := 1, data := bs } } := by
  have hfab := s.fabErr_ringOnly (s.dieOf who) 0 m 0
  unfold State.addrAnswered
  generalize s.fabErr (s.dieOf who) 0 m 0 = u at hfab ⊢
  cases h : who.fn? with
  | none => rw [State.mmioError_of_none _ h, hfab]; rfl
  | some fn => rw [State.mmioError_of_fn _ h, (u.respond 1 bs).aerr_csrOnly fn 1 addr false, hfab]; rfl

/-- A register that the accessing function's record does not take reads as the requester's die left it. -/
theorem State.get_addrAnswered {a : Nat} (h : ∀ fn, who.fn? = some fn → ¬AerrWrites fn a) :
    Tab.get 0#64 (s.addrAnswered who m addr bs).csr a = Tab.get 0#64 (s.fabErr (s.dieOf who) 0 m 0).csr a := by
  unfold State.addrAnswered
  generalize s.fabErr (s.dieOf who) 0 m 0 = u
  cases hfn : who.fn? with
  | none => rw [State.mmioError_of_none _ hfn]; rfl
  | some fn =>
    rw [State.mmioError_of_fn _ hfn, State.respond_csr, State.respond_csr, State.get_aerr_other _ _ _ _ (h fn hfn),
      State.respond_csr]

theorem State.get_addrAnswered_other {a : Nat} (haerr : ∀ fn, who.fn? = some fn → ¬AerrWrites fn a)
    (hfab : ¬FabErrWrites (s.dieOf who) 0 a) :
    Tab.get 0#64 (s.addrAnswered who m addr bs).csr a = Tab.get 0#64 s.csr a :=
  (s.get_addrAnswered who m addr bs haerr).trans (s.get_fabErr_other 0 m hfab)

theorem State.bit_addrAnswered : bit ((s.addrAnswered who m addr bs).reg (s.dieOf who) .pfabErr) 0 = true := by
  rw [State.reg_of_get (s.get_addrAnswered who m addr bs fun _ _ h =>
    h.not_fabErrWrites (s.dieOf_ge who) (Or.inl rfl))]
  exact s.bit_fabErr _ (by decide) m 0

theorem State.fld_addrAnswered_count {fn : Nat} (h : who.fn? = some fn) :
    (s.addrAnswered who m addr bs).fld (38 + fnPort fn) .cmdAerr 47 32 (fnNo fn) =
      min 0xFFFF (s.fld (38 + fnPort fn) .cmdAerr 47 32 (fnNo fn) + 1) := by
  have hfab : (s.fabErr (s.dieOf who) 0 m 0).reg (38 + fnPort fn) .cmdAerr (fnNo fn) =
      s.reg (38 + fnPort fn) .cmdAerr (fnNo fn) :=
    State.reg_of_get (s.get_fabErr_other 0 m (AerrWrites.not_fabErrWrites (Or.inl rfl) (s.dieOf_ge who)))
  unfold State.addrAnswered
  generalize s.fabErr (s.dieOf who) 0 m 0 = u at hfab ⊢
  rw [State.mmioError_of_fn _ h, State.fld_respond, State.fld_respond, State.fld_aerr_count, State.fld_respond,
    State.fld, hfab, ← State.fld]
  exact Nat.min_comm ..

end

/-- Settles O58: the access ends in the `addrAnswered` of the requester's die, which writes PFAB_ERR with its record and ring,
the record of the accessing function, and nothing else. -/
theorem absentDies : Obligations.AbsentDies := by
  intro s who die off width v hd _ hb own reported
  have answered (m : Msg) (bs : List Byte) : reported (s.addrAnswered who m (s.globalAddr die off) bs) bs :=
    ⟨s.addrAnswered_only who m _ bs, s.bit_addrAnswered who m _ bs,
      fun _ haerr hfab => s.get_addrAnswered_other who m _ bs haerr hfab,
      fun _ hfn => s.fld_addrAnswered_count who m _ bs hfn⟩
  obtain ⟨mr, hread⟩ := s.mmioOf_absent hd hb (width / 8) none
  obtain ⟨mw, hwrite⟩ := s.mmioOf_absent hd hb (width / 8) (some (toBytes (width / 8) v.toNat))
  exact ⟨⟨_, congrArg Host.Outcome.next hread, answered mr _⟩, ⟨_, congrArg Host.Outcome.next hwrite, answered mw _⟩⟩

end Sys2Proof.Machine

/-!
PROOF. The package cap register (R528): what a firmware access to a register of its own die answers, what a write of
PWR_PKGCAP stores and a read of it returns, and from these the statement.
-/

namespace Sys2Proof.Machine

/-! ## Byte strings and masks -/

theorem ofBytes_toBytes (n v : Nat) : ofBytes (toBytes n v) = v % 2 ^ (8 * n) := by
  induction n generalizing v with
  | zero => exact (Nat.mod_one v).symm
  | succ n ih =>
    rw [toBytes, ofBytes, ih, BitVec.toNat_ofNat, Nat.mul_succ, Nat.add_comm (8 * n), Nat.pow_add]
    exact Nat.mod_mul.symm

/-- A field that lies within the low `n` bits is not changed when the bits above are dropped. -/
theorem bits_mod_two_pow {hi n : Nat} (h : hi < n) (v lo : Nat) : bits (v % 2 ^ n) hi lo = bits v hi lo := by
  refine Nat.eq_of_testBit_eq fun i => ?_
  rw [testBit_bits, testBit_bits, Nat.testBit_mod_two_pow, ← Bool.and_assoc, ← Bool.decide_and]
  congr 1
  exact decide_eq_decide.mpr (and_iff_left_of_imp fun hin => by omega)

theorem bit_mod_two_pow {i n : Nat} (h : i < n) (v : Nat) : bit (v % 2 ^ n) i = bit v i := by
  rw [bit_eq_testBit, bit_eq_testBit, Nat.testBit_mod_two_pow, decide_eq_true h, Bool.true_and]

/-- A mask keeps its field in place and drops the rest. -/
theorem and_maskOf (v hi lo : Nat) : v &&& maskOf hi lo = bits v hi lo <<< lo := by
  refine Nat.eq_of_testBit_eq fun i => ?_
  rw [maskOf, Nat.testBit_and, Nat.testBit_shiftLeft, Nat.testBit_shiftLeft, Nat.testBit_two_pow_sub_one, testBit_bits]
  by_cases hi' : lo ≤ i
  · rw [decide_eq_true hi', Nat.add_sub_cancel' hi', Bool.true_and, Bool.true_and, Bool.and_comm]
    congr 1
    exact decide_eq_decide.mpr (by omega)
  · rw [decide_eq_false (show ¬i ≥ lo from hi'), Bool.false_and, Bool.false_and, Bool.and_false]

/-! ## Firmware's access to a register of its own die -/

/-- Firmware acts from KD0 until KD1 has taken over (R580). -/
theorem State.dieOf_firmware {s : State} (h : s.plat.lostKd ≠ 39) : s.dieOf .firmware = 38 := by
  rw [State.dieOf, if_neg h]
  exact fun _ h => Who.noConfusion h
  exact fun _ _ h => Who.noConfusion h

section
variable (s : State) {die off len : Nat}

/-- An access of firmware to its own die crosses no fabric: a target that answers OK has the last word, and a write is
answered without data. -/
theorem State.mmioOf_firmware_own {w : Option (List Byte)} {t : State} (hdie : s.dieOf .firmware = die) (hd : die < 40)
    (ht : s.target (s.accessor .firmware) die off len w = t) (hok : t.resp.status = 0) :
    s.mmioOf .firmware die off len w = if w = none then t else t.respond 0 := by
  have hnote : t.noteRefusal (s.accessor .firmware) die 0 w.isNone = t := by
    simp only [State.noteRefusal, hok]
    rfl
  have hfill : t.zeroFill len w = if w = none then t else t.respond 0 := by
    cases w <;> simp [State.zeroFill, hok]
  have hdone (u : State) (hu : u.resp.status = 0) (addr : Nat) : u.mmioDone .firmware addr = u := by
    simp only [State.mmioDone, hu, true_or, if_true]
  rw [State.mmioOf, if_pos (show barReaches .firmware die off = true from rfl), State.mmio, State.access,
    if_neg (Nat.not_le.mpr hd), if_pos (show die = (s.accessor .firmware).sdie from hdie.symm), ht, hnote, hfill]
  refine hdone _ ?_ _
  split
  · exact hok
  · rfl

/-- Firmware has view P, so that a register is refused to it neither by view nor as a debug register (R9). -/
theorem State.target_firmware {r : Reg} (hr : regOver die off = some r) (hdef : r.defined = true)
    (hentry : r.isEntry die off len = false) (hfits : r.fits die off len = true) :
    (∀ bs, s.target (s.accessor .firmware) die off len (some bs) =
      s.regWrite (s.accessor .firmware) (r.home die) r (ofBytes bs)) ∧
    s.target (s.accessor .firmware) die off len none =
      if s.readsMirror die r then s.mirrorRead r else s.regRead (r.home die) r := by
  have hview : s.inView (s.accessor .firmware) die r = true := rfl
  have hwho : ¬((s.accessor .firmware).who = .jtag ∧ (!r.isDebug) = true) := fun h => Who.noConfusion h.1
  refine ⟨fun bs => ?_, ?_⟩ <;>
  · rw [State.target, hr]
    simp only [hdef, hview, hentry, hfits, Bool.not_true, Bool.false_eq_true, if_false, if_neg hwho]

end

/-! ## PWR_PKGCAP (R528) -/

/-- The register's place: no table entry, and 32 bits wide. -/
theorem pwrPkgcap_place : regOver 38 0x3F00B0000100 = some ⟨.pwrPkgcap, 0, 0⟩ ∧
    Reg.isEntry ⟨.pwrPkgcap, 0, 0⟩ 38 0x3F00B0000100 4 = false ∧
    Reg.fits ⟨.pwrPkgcap, 0, 0⟩ 38 0x3F00B0000100 4 = true := by decide +kernel

theorem reg_pwrPkgcap_reset : State.reset.reg 38 .pwrPkgcap = 6500 := by decide +kernel

/-- EN with a CAP out of range: what a write may not ask for. -/
def capRefused (v : Nat) : Bool := bit v 31 && (decide (bits v 12 0 < 1000) || decide (6500 < bits v 12 0))

theorem capRefused_mod (v : Nat) : capRefused (v % 2 ^ 32) = capRefused v := by
  rw [capRefused, bit_mod_two_pow (by decide), bits_mod_two_pow (by decide), ← capRefused]

theorem capRefused_eq_true {v : Nat} (hen : bit v 31 = true) (hcap : bits v 12 0 < 1000 ∨ 6500 < bits v 12 0) :
    capRefused v = true := by
  simp only [capRefused, hen, Bool.true_and, Bool.or_eq_true, decide_eq_true_eq, hcap]

theorem capRefused_eq_false {v : Nat} (h : bit v 31 = false ∨ (1000 ≤ bits v 12 0 ∧ bits v 12 0 ≤ 6500)) :
    capRefused v = false := by
  rcases h with hen | ⟨hlow, hhigh⟩
  · rw [capRefused, hen, Bool.false_and]
  · rw [capRefused, decide_eq_false (Nat.not_lt.mpr hlow), decide_eq_false (Nat.not_lt.mpr hhigh), Bool.or_false,
      Bool.and_false]

/-- What a read of PWR_PKGCAP returns: EN and CAP in their places, the reserved bits zero. -/
theorem and_readMask_pwrPkgcap (v : Nat) :
    v &&& RegFam.readMask .pwrPkgcap = bits v 31 31 * 2 ^ 31 + bits v 12 0 := by
  have hmask : RegFam.readMask .pwrPkgcap = maskOf 31 31 ||| maskOf 12 0 := rfl
  have hcap : bits v 12 0 < 2 ^ 31 := Nat.lt_trans (Nat.mod_lt _ (Nat.two_pow_pos 13)) (by decide)
  rw [hmask, Nat.and_or_distrib_left, and_maskOf, and_maskOf, Nat.shiftLeft_zero,
    ← Nat.shiftLeft_add_eq_or_of_lt hcap, Nat.shiftLeft_eq]

section
variable (s : State)

theorem State.regWrite_pwrPkgcap (a : Accessor) (v : Nat) :
    s.regWrite a 38 ⟨.pwrPkgcap, 0, 0⟩ v = s.writeIf (!capRefused v) 38 ⟨.pwrPkgcap, 0, 0⟩ v := rfl

/-- A field of PWR_PKGCAP after a write that is taken. -/
theorem State.fld_plainWrite_pwrPkgcap {hi : Nat} (h : hi < 64) (v lo : Nat) :
    (s.plainWrite 38 ⟨.pwrPkgcap, 0, 0⟩ v).fld 38 .pwrPkgcap hi lo =
      bits (setBits (setBits (s.reg 38 .pwrPkgcap) 31 31 (bits v 31 31)) 12 0 (bits v 12 0)) hi lo := by
  rw [State.plainWrite, State.fld_respond, State.fld, State.reg_setReg, bits_mod_word h]
  rfl

theorem State.regRead_pwrPkgcap : s.regRead 38 ⟨.pwrPkgcap, 0, 0⟩ =
    s.respond 0 (toBytes 4 (s.fld 38 .pwrPkgcap 31 31 * 2 ^ 31 + s.fld 38 .pwrPkgcap 12 0)) := by
  have hread : s.regRead 38 ⟨.pwrPkgcap, 0, 0⟩ =
      s.respond 0 (toBytes 4 (s.reg 38 .pwrPkgcap &&& RegFam.readMask .pwrPkgcap)) := rfl
  rw [hread, and_readMask_pwrPkgcap, ← State.fld, ← State.fld]

variable {s} (hkd : s.plat.lostKd ≠ 39)
include hkd

/-- Firmware's write of PWR_PKGCAP stores the fields, or leaves all as it was. -/
theorem State.exec_write_pwrPkgcap (v : Word64) :
    exec (.registerWrite .firmware 38 0x3F00B0000100 32 v) s =
      .next (if capRefused v.toNat then s.respond 0 else s.plainWrite 38 ⟨.pwrPkgcap, 0, 0⟩ (v.toNat % 2 ^ 32)) := by
  obtain ⟨hover, hentry, hfits⟩ := pwrPkgcap_place
  have ht : s.target (s.accessor .firmware) 38 0x3F00B0000100 4 (some (toBytes 4 v.toNat)) =
      if capRefused v.toNat then s.respond 0 else s.plainWrite 38 ⟨.pwrPkgcap, 0, 0⟩ (v.toNat % 2 ^ 32) := by
    refine ((s.target_firmware hover rfl hentry hfits).1 _).trans ((s.regWrite_pwrPkgcap _ _).trans ?_)
    rw [ofBytes_toBytes, State.writeIf, capRefused_mod]
    cases capRefused v.toNat <;> rfl
  have hmmio := s.mmioOf_firmware_own (State.dieOf_firmware hkd) (by decide) ht (by split <;> rfl)
  refine congrArg Host.Outcome.next (hmmio.trans ?_)
  rw [if_neg (Option.some_ne_none _)]
  split <;> rfl

theorem State.exec_read_pwrPkgcap :
    exec (.readClear .firmware 38 0x3F00B0000100 32) s =
      .next (s.respond 0 (toBytes 4 (s.fld 38 .pwrPkgcap 31 31 * 2 ^ 31 + s.fld 38 .pwrPkgcap 12 0))) := by
  obtain ⟨hover, hentry, hfits⟩ := pwrPkgcap_place
  have ht : s.target (s.accessor .firmware) 38 0x3F00B0000100 4 none = s.regRead 38 ⟨.pwrPkgcap, 0, 0⟩ :=
    (s.target_firmware hover rfl hentry hfits).2
  rw [s.regRead_pwrPkgcap] at ht
  exact congrArg Host.Outcome.next (s.mmioOf_firmware_own (State.dieOf_firmware hkd) (by decide) ht rfl)

end

/-- Settles O60: a write of the register ends in `writeIf` with the range check, whose stored value holds the two fields as
written, and a read masks all but them. -/
theorem packageCap : Obligations.PackageCap := by
  refine ⟨fun hi lo n hmem => ?_, fun s v hkd => ⟨fun hen hcap => ?_, fun hok => ?_, State.exec_read_pwrPkgcap hkd⟩⟩
  · rw [State.fld, reg_pwrPkgcap_reset]
    simp only [List.mem_cons, Prod.mk.injEq, List.not_mem_nil, or_false] at hmem
    rcases hmem with ⟨rfl, rfl, rfl⟩ | ⟨rfl, rfl, rfl⟩ | ⟨rfl, rfl, rfl⟩ <;> rfl
  · rw [State.exec_write_pwrPkgcap hkd, if_pos (capRefused_eq_true hen hcap)]
  · refine ⟨s.plainWrite 38 ⟨.pwrPkgcap, 0, 0⟩ (v.toNat % 2 ^ 32), ?_, rfl, ?_, ?_, ?_⟩
    · rw [State.exec_write_pwrPkgcap hkd, capRefused_eq_false hok]
      rfl
    · -- EN lies above CAP
      rw [s.fld_plainWrite_pwrPkgcap (by decide), bits_setBits_other (by decide), bits_setBits_same,
        bits_mod_two_pow (by decide)]
      exact Nat.mod_mod _ _
    · rw [s.fld_plainWrite_pwrPkgcap (by decide), bits_setBits_same, bits_mod_two_pow (by decide)]
      exact Nat.mod_mod _ _
    · -- the reserved bits lie between the two fields
      rw [s.fld_plainWrite_pwrPkgcap (by decide), bits_setBits_other (by decide), bits_setBits_other (by decide),
        State.fld]

end Sys2Proof.Machine
